-- ==== Sys2Proof/Word.lean ====
section
/-!
DEFINITION. The word types of the Ploavo architecture and the sparse map that memory and register files are held in.
-/
namespace Sys2Proof

abbrev Byte := BitVec 8
abbrev Half := BitVec 16
abbrev Word := BitVec 32
abbrev DWord := BitVec 64

/-- A Bool as a one-bit vector. -/
def bit (b : Bool) : BitVec 1 := BitVec.ofBool b

/-- A sparse map: pairs of key and value, keys strictly rising, no value equal to the default (see `SMap.wf`). -/
abbrev SMap (α : Type) := List (Nat × α)

namespace SMap
variable {α : Type}

/-- The value at a key, or the default. -/
def get (d : α) : SMap α → Nat → α
  | [], _ => d
  | (k', v) :: t, k => if k = k' then v else get d t k

/-- The value at a key where there is one. -/
def find : SMap α → Nat → Option α
  | [], _ => none
  | (k', v) :: t, k => if k = k' then some v else find t k

/-- Whether the key is listed. -/
def has : SMap α → Nat → Bool
  | [], _ => false
  | (k', _) :: t, k => if k = k' then true else has t k

/-- Sets a key, keeping the keys rising. -/
def ins : SMap α → Nat → α → SMap α
  | [], k, v => [(k, v)]
  | (k', v') :: t, k, v =>
    if k < k' then (k, v) :: (k', v') :: t
    else if k = k' then (k, v) :: t
    else (k', v') :: ins t k v

/-- Removes a key. -/
def del : SMap α → Nat → SMap α
  | [], _ => []
  | (k', v') :: t, k => if k = k' then del t k else (k', v') :: del t k

/-- Writes a key: a value equal to the default is not listed. -/
def put [DecidableEq α] (d : α) (m : SMap α) (k : Nat) (v : α) : SMap α :=
  if v = d then del m k else ins m k v

/-- Changes the value at a key where there is one. -/
def upd : SMap α → Nat → (α → α) → SMap α
  | [], _, _ => []
  | (k', v') :: t, k, f => if k = k' then (k', f v') :: t else (k', v') :: upd t k f

/-- Every key is at least `lo` and the keys rise strictly. -/
def sorted : Nat → SMap α → Bool
  | _, [] => true
  | lo, (k, _) :: t => decide (lo ≤ k) && sorted (k + 1) t

/-- The canonical form: keys strictly rising, no value equal to the default. -/
def wf [DecidableEq α] (d : α) (m : SMap α) : Bool :=
  sorted 0 m && m.all (fun kv => decide (kv.2 ≠ d))

/-- Drops the entries for which the test fails. -/
def keep (m : SMap α) (p : Nat → α → Bool) : SMap α := m.filter (fun kv => p kv.1 kv.2)

end SMap

/-- A list put in order, equal elements keeping their order. -/
def insertBy {α : Type} (le : α → α → Bool) (x : α) : List α → List α
  | [] => [x]
  | y :: t => if le x y then x :: y :: t else y :: insertBy le x t
def sortBy {α : Type} (le : α → α → Bool) : List α → List α
  | [] => []
  | x :: t => insertBy le x (sortBy le t)

end Sys2Proof
end

