-- ==== Sys2Proof/Syntax.lean ====
section
/-!
DEFINITION. The instructions: one constructor of `Instr` per row of spec/opcode_table.json. A row with an instruction
word has the word's fields as operands, `p` being the park bit (R83); a row without a word is something that an agent
other than a wave does (a completion, a timeout, an arrival, a command of the host, an error), and its operands say
which pending thing it is about.
-/
namespace Sys2Proof

/-- Rounding codes 0 to 6 (01 R20, R21). -/
inductive Rounding | rne | rtz | rpi | rmi | rna | rsr | rto
  deriving DecidableEq, Repr

/-- Requantisation rounding (03 R90, VMX b[1:0]). -/
inductive RqRound | rne | rsr
  deriving DecidableEq, Repr

/-- Compare conditions (03 R89, VCMP f[2:0]). -/
inductive Cond | eq | ne | lt | le | gt | ge | un | or
  deriving DecidableEq, Repr

/-- Hadamard option of a requantisation (03 R90, VMX b[3:2]). -/
inductive HadOpt | none | h16 | h32
  deriving DecidableEq, Repr

/-- Addressing of VLD and VST (03 R95, f[1:0]). -/
inductive AddrMode | base | pair | scratch | scratchBase
  deriving DecidableEq, Repr

/-- Scope of an atomic or a fence (03 R90). -/
inductive Scope | block | cluster | device | system
  deriving DecidableEq, Repr

/-- Use of an atomic (03 R90, VATOM b[2:0]). -/
inductive AtomUse | acqRel | acquire | release | unpaired | commutative | nonOrdering | quantum | speculative
  deriving DecidableEq, Repr

/-- An Aqpen frame's header (19 R392); the opcode is the constructor. `fits` says whether the payload has the length
that the command's fields need: the manual lays no payload out in bytes (DESIGN CHOICE: log entry 81). -/
structure AqpenHeader where
  ver : BitVec 8
  len : BitVec 16
  sess : BitVec 16
  rsv : BitVec 16
  seq : BitVec 32
  ack : BitVec 32
  fits : Bool
  deriving DecidableEq, Repr

/-- CTXCREATE's payload (19 R393, 14 R320, 11 R281). -/
structure CtxCreate where
  number : Nat
  mode : Nat
  nv : Nat
  table : List (BitVec 8)
  weight : Nat
  queueAddr : BitVec 64
  queueSize : Nat
  faddoAddr : BitVec 64
  faddoSize : Nat
  sigAddr : BitVec 64
  sigSize : Nat
  unexpAddr : BitVec 64
  unexpSize : Nat
  deriving DecidableEq, Repr

/-- An RPUT that arrives from a peer (20 R417, R422; 21 R432). `link` is the LINKTAG it carries, `source` the
peer's accelerator id, `poison` the payload offsets of poisoned 4-byte words. -/
structure RputMessage where
  source : BitVec 10
  link : BitVec 16
  tagged : Bool
  raddr : BitVec 64
  rvd : BitVec 2
  rctr : BitVec 16
  radd : BitVec 32
  bytes : List (BitVec 8)
  poison : List Nat
  deriving DecidableEq, Repr

/-- An RFLAG that arrives from a peer (20 R418; 21 R432). -/
structure RflagMessage where
  source : BitVec 10
  link : BitVec 16
  rvd : BitVec 2
  rctr : BitVec 16
  radd : BitVec 32
  deriving DecidableEq, Repr

/-- An RGET request that arrives from a peer (20 R417; 21 R432). -/
structure RgetRequest where
  source : BitVec 10
  link : BitVec 16
  raddr : BitVec 64
  len : BitVec 24
  token : Nat
  deriving DecidableEq, Repr

/-- What a peer returns for an RGET (20 R417, R421): the bytes, and the offsets of poisoned 4-byte words. -/
structure GetData where
  bytes : List (BitVec 8)
  poison : List Nat
  deriving DecidableEq, Repr

/-- How an atomic is performed: by the core's translation where it has one, and with which other commutative atomics as one
sum (12 R301). -/
structure AtomicChoice where
  useTlb : Bool
  others : List Nat
  deriving DecidableEq, Repr

/-- Where a correctable error was found: the structure and the physical address (17 R384). -/
structure ErrCell where
  struc : Nat
  addr : Nat
  deriving DecidableEq, Repr

/-- What an uncorrectable error strikes (17 R374). -/
inductive ErrTarget
  | memory (addr : Nat)
  | scratch (block : Nat) (offset : Nat)
  | vreg (unit : Nat) (reg : Nat) (lane : Nat)
  | ereg (unit : Nat) (reg : Nat) (lane : Nat)
  | sreg (unit : Nat) (reg : Nat)
  | tile (core : Nat) (tile : Nat) (row : Nat) (word : Nat)
  | control (core : Nat)
  deriving DecidableEq, Repr

/-- What REGREAD names (19 R393). -/
inductive DieReg
  | harvest | spare | lct | errors (struc : Nat)
  deriving DecidableEq, Repr

/-- What the DEBUG register subcommand names (19 R393): a register of the halted wave. -/
inductive DebugReg
  | v (reg : Nat) (lane : Nat)
  | e (reg : Nat) (lane : Nat)
  | s (reg : Nat)
  | m (reg : Nat)
  | csr (number : BitVec 9)
  | pc
  deriving DecidableEq, Repr

/-- SPDM requests the device answers, and any other (19 R400). -/
inductive SpdmRequest
  | getVersion | getCapabilities
  | negotiateAlgorithms (asym : Nat) (hash : Nat)
  | getDigests | getCertificate (slot offset length : Nat)
  | challenge (slot : Nat) (nonce : BitVec 256) | getMeasurements (index slot : Nat) (nonce : BitVec 256)
  | keyExchange
  | other (code : BitVec 8)
  deriving DecidableEq, Repr

/-- What a link partner offers (19 R390): speed in Gb/s, lanes, and whether RS(544,514) FEC is among its FECs. -/
structure LinkOffer where
  gbps : Nat
  lanes : Nat
  rs544 : Bool
  deriving DecidableEq, Repr

/-- What the completed bring-up step found (19 R395, R397; 14 R321): the fuses with the digest of the vendor's key, the
offer of the link partner, the image as fetched, the ports and cores that failed (17 R378), cores as 36 × die + physical core. -/
inductive BringupReport
  | plain
  | fuses (harvest : List (BitVec 36)) (svn : BitVec 32) (key : BitVec 512)
  | tier (kind : BitVec 8) (bytes : Nat)
  | link (offer : LinkOffer)
  | image (bytes : List (BitVec 8))
  | firmware (failedPorts : BitVec 32) (accel : BitVec 10) (failedCores : List Nat)
  deriving DecidableEq, Repr

/-- The queue pair of a RoCEv2 packet, and whether it carries the ECN mark of congestion (19 R391). -/
structure RoceMark where
  qp : Nat
  ecn : Bool
  deriving DecidableEq, Repr

/-- What an RDMA access names: its packet's queue pair and a registered region (19 R391). -/
structure RoceTarget where
  mark : RoceMark
  region : Nat
  deriving DecidableEq, Repr

/-- An Aqpen frame that is not one of the commands (19 R392). -/
inductive BadFrame
  | badHeader
  | unknownOp (h : AqpenHeader) (op : BitVec 8)
  deriving DecidableEq, Repr

/-- The instruction set and the events: one constructor per row of spec/opcode_table.json (DESIGN CHOICE: log entry 9). -/
inductive Instr
  | nop (p : Bool)
  | trap (p : Bool) (c : BitVec 14)
  | eret (p : Bool) (a : BitVec 7)
  | bkpt (p : Bool)
  | csrr (p : Bool) (d : BitVec 7) (i : BitVec 14)
  | csrw (p : Bool) (d : BitVec 7) (i : BitVec 14)
  | csrs (p : Bool) (d : BitVec 7) (i : BitVec 14)
  | csrc (p : Bool) (d : BitVec 7) (i : BitVec 14)
  | sleep (p : Bool) (a : BitVec 7)
  | sleepWake (unit : Nat)
  | evt (p : Bool) (a b : BitVec 7)
  | spawn (p : Bool) (a : BitVec 7)
  | join (p : Bool) (a b : BitVec 7)
  | cancel (p : Bool) (a b : BitVec 7)
  | rinkq (p : Bool) (d a b : BitVec 7)
  | vdie (p : Bool) (d a : BitVec 7)
  | hops (p : Bool) (d a b : BitVec 7)
  | sadd (p : Bool) (d a b : BitVec 7)
  | ssub (p : Bool) (d a b : BitVec 7)
  | smul (p : Bool) (d a b : BitVec 7)
  | smulhs (p : Bool) (d a b : BitVec 7)
  | smulhn (p : Bool) (d a b : BitVec 7)
  | sadd64 (p : Bool) (d a b : BitVec 7)
  | ssub64 (p : Bool) (d a b : BitVec 7)
  | sand (p : Bool) (d a b : BitVec 7)
  | sor (p : Bool) (d a b : BitVec 7)
  | sxor (p : Bool) (d a b : BitVec 7)
  | sshl (p : Bool) (d a b : BitVec 7)
  | sshr (p : Bool) (d a b : BitVec 7)
  | ssra (p : Bool) (d a b : BitVec 7)
  | smins (p : Bool) (d a b : BitVec 7)
  | smaxs (p : Bool) (d a b : BitVec 7)
  | sslts (p : Bool) (d a b : BitVec 7)
  | ssltn (p : Bool) (d a b : BitVec 7)
  | sseq (p : Bool) (d a b : BitVec 7)
  | ssne (p : Bool) (d a b : BitVec 7)
  | sclz (p : Bool) (d a : BitVec 7)
  | spopc (p : Bool) (d a : BitVec 7)
  | sbfe (p : Bool) (d a b : BitVec 7)
  | sbins (p : Bool) (d a b : BitVec 7)
  | sdivn (p : Bool) (d a b : BitVec 7)
  | sremn (p : Bool) (d a b : BitVec 7)
  | ssel (p : Bool) (d a b : BitVec 7)
  | saddi (p : Bool) (d a : BitVec 7) (i : BitVec 9)
  | sandi (p : Bool) (d a : BitVec 7) (i : BitVec 9)
  | sori (p : Bool) (d a : BitVec 7) (i : BitVec 9)
  | sxori (p : Bool) (d a : BitVec 7) (i : BitVec 9)
  | sshli (p : Bool) (d a : BitVec 7) (i : BitVec 5)
  | sshri (p : Bool) (d a : BitVec 7) (i : BitVec 5)
  | ssrai (p : Bool) (d a : BitVec 7) (i : BitVec 5)
  | sslti (p : Bool) (d a : BitVec 7) (i : BitVec 9)
  | sli (p : Bool) (d : BitVec 7) (i : BitVec 19)
  | shi (p : Bool) (d : BitVec 7) (i : BitVec 19)
  | bra (p : Bool) (o : BitVec 18)
  | brany (p : Bool) (k : BitVec 4) (o : BitVec 18)
  | brall (p : Bool) (k : BitVec 4) (o : BitVec 18)
  | brnone (p : Bool) (k : BitVec 4) (o : BitVec 18)
  | call (p : Bool) (o : BitVec 18)
  | beqz (p : Bool) (s : BitVec 7) (o : BitVec 16)
  | bnez (p : Bool) (s : BitVec 7) (o : BitVec 16)
  | bltz (p : Bool) (s : BitVec 7) (o : BitVec 16)
  | bgez (p : Bool) (s : BitVec 7) (o : BitVec 16)
  | bgtz (p : Bool) (s : BitVec 7) (o : BitVec 16)
  | blez (p : Bool) (s : BitVec 7) (o : BitVec 16)
  | jr (p : Bool) (a : BitVec 7)
  | jalr (p : Bool) (d a : BitVec 7)
  | mbr (p : Bool) (t : BitVec 7) (m : BitVec 4) (n : BitVec 2) (o : BitVec 13)
  | wfuse (p : Bool) (b : BitVec 7)
  | wsplit (p : Bool) (b : BitVec 7)
  | wbase (p : Bool) (n : BitVec 5)
  | yield (p : Bool)
  | wexit (p : Bool)
  | bars (p : Bool) (a b : BitVec 7)
  | bara (p : Bool) (a b : BitVec 7)
  | barw (p : Bool) (d a b : BitVec 7)
  | barwTimeout (unit : Nat)
  | cbara (p : Bool) (a : BitVec 7)
  | cbarw (p : Bool) (d a : BitVec 7)
  | cbarwTimeout (unit : Nat)
  | bjoin (p : Bool)
  | dqpush (p : Bool) (a : BitVec 7)
  | dqpop (p : Bool) (d : BitVec 7)
  | vadd (p : Bool) (d a b : BitVec 7)
  | vsub (p : Bool) (d a b : BitVec 7)
  | vmul (p : Bool) (d a b : BitVec 7)
  | vmulhs (p : Bool) (d a b : BitVec 7)
  | vmad (p : Bool) (d a b : BitVec 7)
  | vadd64 (p : Bool) (d a b : BitVec 7)
  | vsub64 (p : Bool) (d a b : BitVec 7)
  | vand (p : Bool) (d a b : BitVec 7)
  | vor (p : Bool) (d a b : BitVec 7)
  | vxor (p : Bool) (d a b : BitVec 7)
  | vandn (p : Bool) (d a b : BitVec 7)
  | vshl (p : Bool) (d a b : BitVec 7)
  | vshr (p : Bool) (d a b : BitVec 7)
  | vsra (p : Bool) (d a b : BitVec 7)
  | vmins (p : Bool) (d a b : BitVec 7)
  | vmaxs (p : Bool) (d a b : BitVec 7)
  | vminn (p : Bool) (d a b : BitVec 7)
  | vmaxn (p : Bool) (d a b : BitVec 7)
  | vaddss (p : Bool) (d a b : BitVec 7)
  | vsubss (p : Bool) (d a b : BitVec 7)
  | vclz (p : Bool) (d a : BitVec 7)
  | vpopc (p : Bool) (d a : BitVec 7)
  | vbfe (p : Bool) (d a b : BitVec 7)
  | vbins (p : Bool) (d a b : BitVec 7)
  | vmov (p : Bool) (d a : BitVec 7)
  | vlaneid (p : Bool) (d : BitVec 7)
  | vaddScalar (p : Bool) (d a b : BitVec 7)
  | vsubScalar (p : Bool) (d a b : BitVec 7)
  | vmulScalar (p : Bool) (d a b : BitVec 7)
  | vmulhsScalar (p : Bool) (d a b : BitVec 7)
  | vmadScalar (p : Bool) (d a b : BitVec 7)
  | vadd64Scalar (p : Bool) (d a b : BitVec 7)
  | vsub64Scalar (p : Bool) (d a b : BitVec 7)
  | vandScalar (p : Bool) (d a b : BitVec 7)
  | vorScalar (p : Bool) (d a b : BitVec 7)
  | vxorScalar (p : Bool) (d a b : BitVec 7)
  | vandnScalar (p : Bool) (d a b : BitVec 7)
  | vshlScalar (p : Bool) (d a b : BitVec 7)
  | vshrScalar (p : Bool) (d a b : BitVec 7)
  | vsraScalar (p : Bool) (d a b : BitVec 7)
  | vminsScalar (p : Bool) (d a b : BitVec 7)
  | vmaxsScalar (p : Bool) (d a b : BitVec 7)
  | vminnScalar (p : Bool) (d a b : BitVec 7)
  | vmaxnScalar (p : Bool) (d a b : BitVec 7)
  | vaddssScalar (p : Bool) (d a b : BitVec 7)
  | vsubssScalar (p : Bool) (d a b : BitVec 7)
  | vbfeScalar (p : Bool) (d a b : BitVec 7)
  | vbinsScalar (p : Bool) (d a b : BitVec 7)
  | vmovScalar (p : Bool) (d b : BitVec 7)
  | vfaddF32 (p : Bool) (d a b : BitVec 7) (r : Rounding)
  | vfsubF32 (p : Bool) (d a b : BitVec 7) (r : Rounding)
  | vfmulF32 (p : Bool) (d a b : BitVec 7) (r : Rounding)
  | vffmaF32 (p : Bool) (d a b : BitVec 7) (r : Rounding)
  | vfaddF64 (p : Bool) (d a b : BitVec 7) (r : Rounding)
  | vfsubF64 (p : Bool) (d a b : BitVec 7) (r : Rounding)
  | vfmulF64 (p : Bool) (d a b : BitVec 7) (r : Rounding)
  | vffmaF64 (p : Bool) (d a b : BitVec 7) (r : Rounding)
  | vfaddF16 (p : Bool) (d a b : BitVec 7) (r : Rounding)
  | vfsubF16 (p : Bool) (d a b : BitVec 7) (r : Rounding)
  | vfmulF16 (p : Bool) (d a b : BitVec 7) (r : Rounding)
  | vffmaF16 (p : Bool) (d a b : BitVec 7) (r : Rounding)
  | vfaddBf16 (p : Bool) (d a b : BitVec 7) (r : Rounding)
  | vfsubBf16 (p : Bool) (d a b : BitVec 7) (r : Rounding)
  | vfmulBf16 (p : Bool) (d a b : BitVec 7) (r : Rounding)
  | vffmaBf16 (p : Bool) (d a b : BitVec 7) (r : Rounding)
  | vfminF32 (p : Bool) (d a b : BitVec 7)
  | vfmaxF32 (p : Bool) (d a b : BitVec 7)
  | vfminF64 (p : Bool) (d a b : BitVec 7)
  | vfmaxF64 (p : Bool) (d a b : BitVec 7)
  | vfabsF32 (p : Bool) (d a : BitVec 7)
  | vfnegF32 (p : Bool) (d a : BitVec 7)
  | vfabsF64 (p : Bool) (d a : BitVec 7)
  | vfnegF64 (p : Bool) (d a : BitVec 7)
  | vfclassF32 (p : Bool) (d a : BitVec 7)
  | vfclassF64 (p : Bool) (d a : BitVec 7)
  | vfsclF32 (p : Bool) (d a b : BitVec 7)
  | vfsclF64 (p : Bool) (d a b : BitVec 7)
  | vfgexF32 (p : Bool) (d a : BitVec 7)
  | vfgexF64 (p : Bool) (d a : BitVec 7)
  | vcvtF64F32 (p : Bool) (d a : BitVec 7)
  | vcvtF32F64 (p : Bool) (d a : BitVec 7) (s : Bool) (r : Rounding)
  | vcvtF16F32 (p : Bool) (d a : BitVec 7) (s : Bool) (r : Rounding)
  | vcvtF32F16 (p : Bool) (d a : BitVec 7)
  | vcvtBf16F32 (p : Bool) (d a : BitVec 7) (s : Bool) (r : Rounding)
  | vcvtF32Bf16 (p : Bool) (d a : BitVec 7)
  | vcvtS32F32 (p : Bool) (d a : BitVec 7) (s : Bool) (r : Rounding)
  | vcvtF32S32 (p : Bool) (d a : BitVec 7) (s : Bool) (r : Rounding)
  | vcvtN32F32 (p : Bool) (d a : BitVec 7) (s : Bool) (r : Rounding)
  | vcvtF32N32 (p : Bool) (d a : BitVec 7) (s : Bool) (r : Rounding)
  | vcvtS32F64 (p : Bool) (d a : BitVec 7) (s : Bool) (r : Rounding)
  | vcvtF64S32 (p : Bool) (d a : BitVec 7)
  | vcvtS64F64 (p : Bool) (d a : BitVec 7) (s : Bool) (r : Rounding)
  | vcvtF64S64 (p : Bool) (d a : BitVec 7) (s : Bool) (r : Rounding)
  | vcvtE4m3F32 (p : Bool) (d a : BitVec 7) (s : Bool) (r : Rounding)
  | vcvtF32E4m3 (p : Bool) (d a : BitVec 7)
  | vcvtE5m2F32 (p : Bool) (d a : BitVec 7) (s : Bool) (r : Rounding)
  | vcvtF32E5m2 (p : Bool) (d a : BitVec 7)
  | vcvtF32E2m1 (p : Bool) (d a : BitVec 7)
  | vcvtF32E2m3 (p : Bool) (d a : BitVec 7)
  | vcvtF32E3m2 (p : Bool) (d a : BitVec 7)
  | vrcpF32 (p : Bool) (d a : BitVec 7)
  | vrsqF32 (p : Bool) (d a : BitVec 7)
  | vsqrtF32 (p : Bool) (d a : BitVec 7) (r : Rounding)
  | vexp2F32 (p : Bool) (d a : BitVec 7)
  | vlog2F32 (p : Bool) (d a : BitVec 7)
  | vsinF32 (p : Bool) (d a : BitVec 7)
  | vcosF32 (p : Bool) (d a : BitVec 7)
  | vtanhF32 (p : Bool) (d a : BitVec 7)
  | vdivF32 (p : Bool) (d a : BitVec 7) (r : Rounding)
  | vrcpF64 (p : Bool) (d a : BitVec 7)
  | vrsqF64 (p : Bool) (d a : BitVec 7)
  | vsqrtF64 (p : Bool) (d a : BitVec 7) (r : Rounding)
  | vexp2F64 (p : Bool) (d a : BitVec 7)
  | vlog2F64 (p : Bool) (d a : BitVec 7)
  | vsinF64 (p : Bool) (d a : BitVec 7)
  | vcosF64 (p : Bool) (d a : BitVec 7)
  | vdivF64 (p : Bool) (d a : BitVec 7) (r : Rounding)
  | vcmpF32 (p : Bool) (d a b : BitVec 7) (c : Cond)
  | vcmpF64 (p : Bool) (d a b : BitVec 7) (c : Cond)
  | vcmpS32 (p : Bool) (d a b : BitVec 7) (c : Cond)
  | vcmpN32 (p : Bool) (d a b : BitVec 7) (c : Cond)
  | vshfl (p : Bool) (d a b : BitVec 7)
  | vshflx (p : Bool) (d a k : BitVec 7)
  | vshflu (p : Bool) (d a k : BitVec 7)
  | vshfld (p : Bool) (d a k : BitVec 7)
  | vbcst (p : Bool) (d a b : BitVec 7)
  | vredaddS32 (p : Bool) (d a : BitVec 7)
  | vredaddF32 (p : Bool) (d a : BitVec 7)
  | vredmaxF32 (p : Bool) (d a : BitVec 7)
  | vredminF32 (p : Bool) (d a : BitVec 7)
  | vscanS32 (p : Bool) (d a : BitVec 7)
  | vscanF32 (p : Bool) (d a : BitVec 7)
  | vselm (p : Bool) (d a b : BitVec 7)
  | mand (p : Bool) (d a b : BitVec 7)
  | mor (p : Bool) (d a b : BitVec 7)
  | mxor (p : Bool) (d a b : BitVec 7)
  | mandn (p : Bool) (d a b : BitVec 7)
  | mnot (p : Bool) (d a : BitVec 7)
  | mmov (p : Bool) (d a : BitVec 7)
  | mpopc (p : Bool) (d a : BitVec 7)
  | mfirst (p : Bool) (d a : BitVec 7)
  | mtos (p : Bool) (d a : BitVec 7)
  | stom (p : Bool) (d a : BitVec 7)
  | vdp4s (p : Bool) (d a b : BitVec 7)
  | vdp4z (p : Bool) (d a b : BitVec 7)
  | vdp8s (p : Bool) (d a b : BitVec 7)
  | vdp8z (p : Bool) (d a b : BitVec 7)
  | vdpf4 (p : Bool) (d a b : BitVec 7)
  | vdpf8a (p : Bool) (d a b : BitVec 7)
  | vdpf8b (p : Bool) (d a b : BitVec 7)
  | vunpk4l (p : Bool) (d a : BitVec 7)
  | vunpk4h (p : Bool) (d a : BitVec 7)
  | vunpk6 (p : Bool) (d a : BitVec 7)
  | veset (p : Bool) (d b : BitVec 7)
  | veget (p : Bool) (d a : BitVec 7)
  | vemov (p : Bool) (d a : BitVec 7)
  | veadd (p : Bool) (d a b : BitVec 7)
  | rqntE2m1 (p : Bool) (d a : BitVec 7) (c : Bool) (h : HadOpt) (r : RqRound)
  | rqntE2m3 (p : Bool) (d a : BitVec 7) (h : HadOpt) (r : RqRound)
  | rqntE3m2 (p : Bool) (d a : BitVec 7) (h : HadOpt) (r : RqRound)
  | rqntE4m3 (p : Bool) (d a : BitVec 7) (h : HadOpt) (r : RqRound)
  | rqntE5m2 (p : Bool) (d a : BitVec 7) (h : HadOpt) (r : RqRound)
  | rqntg4 (p : Bool) (d a : BitVec 7) (h : HadOpt) (r : RqRound)
  | rqntg8 (p : Bool) (d a : BitVec 7) (h : HadOpt) (r : RqRound)
  | vebmax (p : Bool) (d a : BitVec 7)
  | vhad16 (p : Bool) (d a : BitVec 7)
  | vhad32 (p : Bool) (d a : BitVec 7)
  | vldB8 (p : Bool) (d a b : BitVec 7) (m : AddrMode)
  | vldS8 (p : Bool) (d a b : BitVec 7) (m : AddrMode)
  | vldB16 (p : Bool) (d a b : BitVec 7) (m : AddrMode)
  | vldS16 (p : Bool) (d a b : BitVec 7) (m : AddrMode)
  | vldW32 (p : Bool) (d a b : BitVec 7) (m : AddrMode)
  | vldW64 (p : Bool) (d a b : BitVec 7) (m : AddrMode)
  | vldW128 (p : Bool) (d a b : BitVec 7) (m : AddrMode)
  | vldE (p : Bool) (d a b : BitVec 7) (m : AddrMode)
  | vstB8 (p : Bool) (d a b : BitVec 7) (m : AddrMode)
  | vstB16 (p : Bool) (d a b : BitVec 7) (m : AddrMode)
  | vstW32 (p : Bool) (d a b : BitVec 7) (m : AddrMode)
  | vstW64 (p : Bool) (d a b : BitVec 7) (m : AddrMode)
  | vstW128 (p : Bool) (d a b : BitVec 7) (m : AddrMode)
  | vstE (p : Bool) (d a b : BitVec 7) (m : AddrMode)
  | vatomAdd32 (p : Bool) (d a : BitVec 7) (n : Bool) (s : Scope) (u : AtomUse) (x : Bool)
  | vatomAdd64 (p : Bool) (d a : BitVec 7) (n : Bool) (s : Scope) (u : AtomUse) (x : Bool)
  | vatomMinS32 (p : Bool) (d a : BitVec 7) (n : Bool) (s : Scope) (u : AtomUse) (x : Bool)
  | vatomMaxS32 (p : Bool) (d a : BitVec 7) (n : Bool) (s : Scope) (u : AtomUse) (x : Bool)
  | vatomAnd (p : Bool) (d a : BitVec 7) (n : Bool) (s : Scope) (u : AtomUse) (x : Bool)
  | vatomOr (p : Bool) (d a : BitVec 7) (n : Bool) (s : Scope) (u : AtomUse) (x : Bool)
  | vatomXor (p : Bool) (d a : BitVec 7) (n : Bool) (s : Scope) (u : AtomUse) (x : Bool)
  | vatomXch32 (p : Bool) (d a : BitVec 7) (n : Bool) (s : Scope) (u : AtomUse) (x : Bool)
  | vatomXch64 (p : Bool) (d a : BitVec 7) (n : Bool) (s : Scope) (u : AtomUse) (x : Bool)
  | vatomCas32 (p : Bool) (d a : BitVec 7) (n : Bool) (s : Scope) (u : AtomUse) (x : Bool)
  | vatomCas64 (p : Bool) (d a : BitVec 7) (n : Bool) (s : Scope) (u : AtomUse) (x : Bool)
  | vatomFadd32 (p : Bool) (d a : BitVec 7) (n : Bool) (s : Scope) (u : AtomUse) (x : Bool)
  | vatomFadd64 (p : Bool) (d a : BitVec 7) (n : Bool) (s : Scope) (u : AtomUse) (x : Bool)
  | vatomFaddo32 (p : Bool) (d a : BitVec 7) (n : Bool) (s : Scope) (u : AtomUse) (x : Bool)
  | vatomFaddo64 (p : Bool) (d a : BitVec 7) (n : Bool) (s : Scope) (u : AtomUse) (x : Bool)
  | vatomIncw (p : Bool) (d a : BitVec 7) (n : Bool) (s : Scope) (u : AtomUse) (x : Bool)
  | sld32 (p : Bool) (d a : BitVec 7) (i : BitVec 9)
  | sld64 (p : Bool) (d a : BitVec 7) (i : BitVec 9)
  | sld128 (p : Bool) (d a : BitVec 7) (i : BitVec 9)
  | sst32 (p : Bool) (d a : BitVec 7) (i : BitVec 9)
  | sst64 (p : Bool) (d a : BitVec 7) (i : BitVec 9)
  | sst128 (p : Bool) (d a : BitVec 7) (i : BitVec 9)
  | saadd (p : Bool) (d a : BitVec 7) (i : BitVec 9)
  | sacas (p : Bool) (d a : BitVec 7) (i : BitVec 9)
  | acp4 (p : Bool) (d a b : BitVec 7)
  | acp8 (p : Bool) (d a b : BitVec 7)
  | acp16 (p : Bool) (d a b : BitVec 7)
  | acps4 (p : Bool) (d a b : BitVec 7)
  | acps8 (p : Bool) (d a b : BitVec 7)
  | acps16 (p : Bool) (d a b : BitVec 7)
  | boinit (p : Bool) (a b : BitVec 7)
  | boarr (p : Bool) (d a : BitVec 7)
  | boexp (p : Bool) (a b : BitVec 7)
  | bowait (p : Bool) (d a b : BitVec 7)
  | botest (p : Bool) (d a : BitVec 7)
  | bowaitTimeout (unit : Nat)
  | waitaEq (p : Bool) (d a b : BitVec 7)
  | waitaNe (p : Bool) (d a b : BitVec 7)
  | waitaTimeout (unit : Nat)
  | fenceAcq (p : Bool) (s : Scope)
  | fenceRel (p : Bool) (s : Scope)
  | fenceFull (p : Bool) (s : Scope)
  | lempty (p : Bool) (a : BitVec 7)
  | lfill (p : Bool) (a : BitVec 7)
  | ltest (p : Bool) (d a : BitVec 7)
  | lwait (p : Bool) (d a b : BitVec 7)
  | lwaitTimeout (unit : Nat)
  | ldt4 (p : Bool) (d a b : BitVec 7)
  | ldt6 (p : Bool) (d a b : BitVec 7)
  | ldt8 (p : Bool) (d a b : BitVec 7)
  | ldt16 (p : Bool) (d a b : BitVec 7)
  | ldt32 (p : Bool) (d a b : BitVec 7)
  | tcpy (p : Bool) (d a b : BitVec 7)
  | tcpys (p : Bool) (d a b : BitVec 7)
  | tcpyv (p : Bool) (d a : BitVec 7)
  | shset (p : Bool) (d a b : BitVec 7)
  | shdrop (p : Bool) (a : BitVec 7)
  | shqry (p : Bool) (d a b : BitVec 7)
  | macq (p : Bool)
  | mrel (p : Bool)
  | matrixGrant (core : Nat)
  | mmode (p : Bool) (a : BitVec 7)
  | mma (p k c : Bool) (t : BitVec 3) (a b : BitVec 7)
  | mloop (p k c : Bool) (t : BitVec 3) (a b : BitVec 7)
  | matrixStep (core : Nat)
  | macc (p : Bool) (d : BitVec 7) (o : Bool) (t : BitVec 3) (b : BitVec 7)
  | maccw (p o : Bool) (t : BitVec 3) (a b : BitVec 7)
  | mzero (p : Bool) (t : BitVec 3)
  | mqry (p : Bool) (d : BitVec 7)
  | mwait (p : Bool)
  | gpost (p : Bool) (a b : BitVec 7)
  | gcancel (p : Bool) (d a : BitVec 7)
  | gadd (p : Bool) (a b : BitVec 7)
  | grd (p : Bool) (d a : BitVec 7)
  | gset (p : Bool) (a b : BitVec 7)
  | gateActionComplete (op : Nat)
  | rput (p : Bool) (a : BitVec 7)
  | rget (p : Bool) (a : BitVec 7)
  | rflag (p : Bool) (a b : BitVec 7)
  | publish (p : Bool) (d a : BitVec 7)
  | pubq (p : Bool) (d a : BitVec 7)
  | tgath (p : Bool) (a : BitVec 7)
  | tred (p : Bool) (a : BitVec 7)
  | tcvt (p : Bool) (a : BitVec 7)
  | stash (p : Bool) (a : BitVec 7)
  | restore (p : Bool) (a : BitVec 7)
  | teaselCommandComplete (op : Nat)
  | resultArrival (unit entry : Nat)
  | parkCommit (unit : Nat)
  | loadPerform (op : Nat) (useCopy useTlb : Bool)
  | storePerform (op : Nat) (useTlb : Bool)
  | atomicPerform (op : Nat) (how : AtomicChoice)
  | leaseExpiry (core line : Nat)
  | tlbLeaseExpiry (core page : Nat)
  | copyWriteLands (op line : Nat)
  | acpsSourceRelease (op : Nat)
  | tcpyComplete (op : Nat)
  | tcpysComplete (op : Nat)
  | tcpyvDelivery (op : Nat)
  | recordAcceptance (ctx : Nat)
  | dispatchStep
  | recordCompletion (ctx key : Nat)
  | rputArrival (m : RputMessage)
  | rflagArrival (m : RflagMessage)
  | rgetResponse (op : Nat) (data : GetData)
  | rputAcknowledge (op : Nat)
  | messageUndeliverable (op : Nat)
  | ualinkPortFailure (port : Nat)
  | correctableError (die : Nat) (cell : ErrCell)
  | uncorrectableError (target : ErrTarget)
  | hbmRowRepair (die row : Nat)
  | residueCheckFailure (core attempts : Nat)
  | contextSave (ctx : Nat)
  | eventBufferDrain (die : Nat)
  | openSession (h : AqpenHeader) (advance : Bool)
  | closeSession (h : AqpenHeader)
  | statusQuery (h : AqpenHeader)
  | ctxcreate (h : AqpenHeader) (c : CtxCreate)
  | ctxwrite (h : AqpenHeader) (ctx offset : Nat) (bytes : List (BitVec 8))
  | ctxdestroy (h : AqpenHeader) (ctx : Nat)
  | preempt (h : AqpenHeader) (ctx : Nat)
  | aqpenRestore (h : AqpenHeader) (ctx : Nat) (dies : List (BitVec 8))
  | savesize (h : AqpenHeader)
  | submit (h : AqpenHeader) (ctx : Nat) (records : List (BitVec 64))
  | aqpenCancel (h : AqpenHeader) (ctx : Nat) (control : BitVec 32) (record : BitVec 64)
  | inval (h : AqpenHeader) (asid : BitVec 8) (start length : BitVec 64)
  | fixans (h : AqpenHeader) (token : Nat) (answer : BitVec 32)
  | memreg (h : AqpenHeader) (ctx : Nat) (va length : BitVec 64) (access : BitVec 32)
  | evtread (h : AqpenHeader) (count : Nat)
  | regread (h : AqpenHeader) (die : Nat) (reg : DieReg)
  | debugClaim (h : AqpenHeader) (ctx : Nat)
  | debugHalt (h : AqpenHeader) (ctx unit : Nat)
  | debugResume (h : AqpenHeader) (ctx unit : Nat)
  | debugEnd (h : AqpenHeader) (ctx unit : Nat)
  | debugRegisterAccess (h : AqpenHeader) (ctx unit : Nat) (reg : DebugReg) (write : Option (BitVec 64))
  | spdm (h : AqpenHeader) (request : SpdmRequest)
  | telem (h : AqpenHeader)
  | plimit (h : AqpenHeader) (watts : Nat)
  | aqpenRetransmit (sess seq : Nat)
  | rdmaWrite (target : RoceTarget) (va : BitVec 64) (bytes : List (BitVec 8))
  | rdmaRead (target : RoceTarget) (va : BitVec 64) (length : Nat)
  | roceSend (mark : RoceMark) (bytes : List (BitVec 8))
  | resetDevice
  | bringupStepTimeout
  | powerLimitExceeded
  | thermalThreshold (celsius : Nat)
  | telemetryUpdate (values : BitVec 256) (throttled : BitVec 16)
  | tcpysSourceRelease (op : Nat)
  | rgetRequestArrival (m : RgetRequest)
  | ethernetPartnerSignal
  | bringupStepComplete (report : BringupReport)
  | portFault (port : Nat)
  | congestionNotificationPacket (qp : Nat)
  | priorityFlowControlFrame (priority : Nat) (pause : Bool)
  | unknownOpcodeFrame (frame : BadFrame)
  | powerFallsBelowLimit
  | faddoListEnlarge (ctx entries : Nat)
  deriving DecidableEq, Repr

end Sys2Proof
end

