-- ==== Sys2Proof/WellFormed.lean ====
section
/-!
DEFINITION. Well-formed instructions: checks 1 to 3 of 03 R91 that a decoded word can still fail (01 R36; 02 R62; 03 R88
to R90; and the tables of each family). Each check answers its number.
-/
namespace Sys2Proof

/-- Why the decoder rejects a word: check 1 of 03 R91, check 2, or fewer than four bytes. -/
inductive Reject | selector | reserved | short
  deriving DecidableEq, Repr

/-! ## The limits -/

/-- A pair names its even register (02 R62). -/
def even (x : BitVec 7) : Bool := x.toNat % 2 = 0
/-- A run or group starts at a multiple of k. -/
def mult (k : Nat) (x : BitVec 7) : Bool := x.toNat % k = 0
/-- A mask register is m0 to m15. -/
def mask (x : BitVec 7) : Bool := x.toNat < 16

/-- Fields that an address shape leaves unused are 0 (03 R95; 07 R190). -/
def addrFields (_a b : BitVec 7) (m : AddrMode) : Bool :=
  match m with
  | .pair | .scratch => b = 0
  | .base | .scratchBase => true
/-- The pair of a global address (02 R62). -/
def addrPair (a : BitVec 7) (m : AddrMode) : Bool :=
  match m with
  | .base | .pair => even a
  | .scratch | .scratchBase => true

/-- What an atomic permits (07 R199): `quantum` add32 and add64, `cas` the compare and swaps, `ordered` faddo, `comm` the
other commutative operations, `plain` the exchanges. -/
inductive AtomClass | quantum | cas | ordered | comm | plain
  deriving DecidableEq, Repr

/-- The permitted combinations of R199; `x` names scratch, `n` no return. -/
def atomOk (c : AtomClass) (n : Bool) (s : Scope) (u : AtomUse) (x : Bool) : Bool :=
  !(x && (s = .device || s = .system)) &&
    match u with
    | .acqRel | .acquire | .release | .unpaired => c ≠ .ordered
    | .commutative =>
      n && (c = .quantum || c = .comm || (c = .ordered && !x && (s = .device || s = .system)))
    | .nonOrdering => c ≠ .ordered && !n
    | .quantum => c = .quantum && !n
    | .speculative => c = .cas && !n && !x

/-- The first check that fails. -/
def firstFail (l : List (Nat × Bool)) : Option Nat := (l.find? fun c => !c.2).map (·.1)

/-! ## The check of an instruction -/

def WellFormed.check : Instr → Option Nat
  | .nop .. => none
  | .trap .. => none
  | .eret _ a => firstFail [(2, decide (a.toNat ≤ 1))]
  | .bkpt .. => none
  | .csrr .. => none
  | .csrw .. => none
  | .csrs .. => none
  | .csrc .. => none
  | .sleep .. => none
  | .sleepWake .. => none
  | .evt .. => none
  | .spawn _ a => firstFail [(3, even a)]
  | .join _ a _ => firstFail [(3, even a)]
  | .cancel _ _ b => firstFail [(3, even b)]
  | .rinkq .. => none
  | .vdie _ _ a => firstFail [(3, even a)]
  | .hops .. => none
  | .sadd .. => none
  | .ssub .. => none
  | .smul .. => none
  | .smulhs .. => none
  | .smulhn .. => none
  | .sadd64 _ d a b => firstFail [(3, even d), (3, even a), (3, even b)]
  | .ssub64 _ d a b => firstFail [(3, even d), (3, even a), (3, even b)]
  | .sand .. => none
  | .sor .. => none
  | .sxor .. => none
  | .sshl .. => none
  | .sshr .. => none
  | .ssra .. => none
  | .smins .. => none
  | .smaxs .. => none
  | .sslts .. => none
  | .ssltn .. => none
  | .sseq .. => none
  | .ssne .. => none
  | .sclz .. => none
  | .spopc .. => none
  | .sbfe .. => none
  | .sbins .. => none
  | .sdivn .. => none
  | .sremn .. => none
  | .ssel .. => none
  | .saddi .. => none
  | .sandi .. => none
  | .sori .. => none
  | .sxori .. => none
  | .sshli .. => none
  | .sshri .. => none
  | .ssrai .. => none
  | .sslti .. => none
  | .sli .. => none
  | .shi .. => none
  | .bra .. => none
  | .brany .. => none
  | .brall .. => none
  | .brnone .. => none
  | .call .. => none
  | .beqz .. => none
  | .bnez .. => none
  | .bltz .. => none
  | .bgez .. => none
  | .bgtz .. => none
  | .blez .. => none
  | .jr _ a => firstFail [(3, even a)]
  | .jalr _ d a => firstFail [(3, even d), (3, even a)]
  | .mbr _ t m n _ => firstFail [(3, decide (m.toNat + n.toNat ≤ 15)), (3, decide (t ≠ 0))]
  | .wfuse _ b => firstFail [(2, decide (b = 16 ∨ b = 32 ∨ b = 64))]
  | .wsplit _ b => firstFail [(2, decide (b = 8 ∨ b = 16 ∨ b = 32))]
  | .wbase .. => none
  | .yield .. => none
  | .wexit .. => none
  | .bars _ _ b => firstFail [(2, decide (b.toNat ≤ 7))]
  | .bara _ _ b => firstFail [(2, decide (b.toNat ≤ 7))]
  | .barw _ _ _ b => firstFail [(2, decide (b.toNat ≤ 7))]
  | .barwTimeout .. => none
  | .cbara .. => none
  | .cbarw .. => none
  | .cbarwTimeout .. => none
  | .bjoin .. => none
  | .dqpush .. => none
  | .dqpop .. => none
  | .vadd .. => none
  | .vsub .. => none
  | .vmul .. => none
  | .vmulhs .. => none
  | .vmad .. => none
  | .vadd64 _ d a b => firstFail [(3, even d), (3, even a), (3, even b)]
  | .vsub64 _ d a b => firstFail [(3, even d), (3, even a), (3, even b)]
  | .vand .. => none
  | .vor .. => none
  | .vxor .. => none
  | .vandn .. => none
  | .vshl .. => none
  | .vshr .. => none
  | .vsra .. => none
  | .vmins .. => none
  | .vmaxs .. => none
  | .vminn .. => none
  | .vmaxn .. => none
  | .vaddss .. => none
  | .vsubss .. => none
  | .vclz .. => none
  | .vpopc .. => none
  | .vbfe .. => none
  | .vbins .. => none
  | .vmov .. => none
  | .vlaneid .. => none
  | .vaddScalar .. => none
  | .vsubScalar .. => none
  | .vmulScalar .. => none
  | .vmulhsScalar .. => none
  | .vmadScalar .. => none
  | .vadd64Scalar _ d a b => firstFail [(3, even d), (3, even a), (3, even b)]
  | .vsub64Scalar _ d a b => firstFail [(3, even d), (3, even a), (3, even b)]
  | .vandScalar .. => none
  | .vorScalar .. => none
  | .vxorScalar .. => none
  | .vandnScalar .. => none
  | .vshlScalar .. => none
  | .vshrScalar .. => none
  | .vsraScalar .. => none
  | .vminsScalar .. => none
  | .vmaxsScalar .. => none
  | .vminnScalar .. => none
  | .vmaxnScalar .. => none
  | .vaddssScalar .. => none
  | .vsubssScalar .. => none
  | .vbfeScalar .. => none
  | .vbinsScalar .. => none
  | .vmovScalar .. => none
  | .vfaddF32 .. => none
  | .vfsubF32 .. => none
  | .vfmulF32 .. => none
  | .vffmaF32 .. => none
  | .vfaddF64 _ d a b _ => firstFail [(3, even d), (3, even a), (3, even b)]
  | .vfsubF64 _ d a b _ => firstFail [(3, even d), (3, even a), (3, even b)]
  | .vfmulF64 _ d a b _ => firstFail [(3, even d), (3, even a), (3, even b)]
  | .vffmaF64 _ d a b _ => firstFail [(3, even d), (3, even a), (3, even b)]
  | .vfaddF16 .. => none
  | .vfsubF16 .. => none
  | .vfmulF16 .. => none
  | .vffmaF16 .. => none
  | .vfaddBf16 .. => none
  | .vfsubBf16 .. => none
  | .vfmulBf16 .. => none
  | .vffmaBf16 .. => none
  | .vfminF32 .. => none
  | .vfmaxF32 .. => none
  | .vfminF64 _ d a b => firstFail [(3, even d), (3, even a), (3, even b)]
  | .vfmaxF64 _ d a b => firstFail [(3, even d), (3, even a), (3, even b)]
  | .vfabsF32 .. => none
  | .vfnegF32 .. => none
  | .vfabsF64 _ d a => firstFail [(3, even d), (3, even a)]
  | .vfnegF64 _ d a => firstFail [(3, even d), (3, even a)]
  | .vfclassF32 .. => none
  | .vfclassF64 _ _ a => firstFail [(3, even a)]
  | .vfsclF32 .. => none
  | .vfsclF64 _ d a _ => firstFail [(3, even d), (3, even a)]
  | .vfgexF32 .. => none
  | .vfgexF64 _ _ a => firstFail [(3, even a)]
  | .vcvtF64F32 _ d _ => firstFail [(3, even d)]
  | .vcvtF32F64 _ _ a _ _ => firstFail [(3, even a)]
  | .vcvtF16F32 .. => none
  | .vcvtF32F16 .. => none
  | .vcvtBf16F32 .. => none
  | .vcvtF32Bf16 .. => none
  | .vcvtS32F32 .. => none
  | .vcvtF32S32 .. => none
  | .vcvtN32F32 .. => none
  | .vcvtF32N32 .. => none
  | .vcvtS32F64 _ _ a _ _ => firstFail [(3, even a)]
  | .vcvtF64S32 _ d _ => firstFail [(3, even d)]
  | .vcvtS64F64 _ d a _ _ => firstFail [(3, even d), (3, even a)]
  | .vcvtF64S64 _ d a _ _ => firstFail [(3, even d), (3, even a)]
  | .vcvtE4m3F32 .. => none
  | .vcvtF32E4m3 .. => none
  | .vcvtE5m2F32 .. => none
  | .vcvtF32E5m2 .. => none
  | .vcvtF32E2m1 .. => none
  | .vcvtF32E2m3 .. => none
  | .vcvtF32E3m2 .. => none
  | .vrcpF32 .. => none
  | .vrsqF32 .. => none
  | .vsqrtF32 .. => none
  | .vexp2F32 .. => none
  | .vlog2F32 .. => none
  | .vsinF32 .. => none
  | .vcosF32 .. => none
  | .vtanhF32 .. => none
  | .vdivF32 .. => none
  | .vrcpF64 _ d a => firstFail [(3, even d), (3, even a)]
  | .vrsqF64 _ d a => firstFail [(3, even d), (3, even a)]
  | .vsqrtF64 _ d a _ => firstFail [(3, even d), (3, even a)]
  | .vexp2F64 _ d a => firstFail [(3, even d), (3, even a)]
  | .vlog2F64 _ d a => firstFail [(3, even d), (3, even a)]
  | .vsinF64 _ d a => firstFail [(3, even d), (3, even a)]
  | .vcosF64 _ d a => firstFail [(3, even d), (3, even a)]
  | .vdivF64 _ d a _ => firstFail [(3, even d), (3, even a)]
  | .vcmpF32 _ d _ _ _ => firstFail [(3, mask d)]
  | .vcmpF64 _ d a b _ => firstFail [(3, even a), (3, even b), (3, mask d)]
  | .vcmpS32 _ d _ _ c => firstFail [(1, decide (c ≠ .un ∧ c ≠ .or)), (3, mask d)]
  | .vcmpN32 _ d _ _ c => firstFail [(1, decide (c ≠ .un ∧ c ≠ .or)), (3, mask d)]
  | .vshfl .. => none
  | .vshflx .. => none
  | .vshflu .. => none
  | .vshfld .. => none
  | .vbcst .. => none
  | .vredaddS32 .. => none
  | .vredaddF32 .. => none
  | .vredmaxF32 .. => none
  | .vredminF32 .. => none
  | .vscanS32 .. => none
  | .vscanF32 .. => none
  | .vselm _ _ _ b => firstFail [(3, mask b)]
  | .mand _ d a b => firstFail [(3, mask d), (3, mask a), (3, mask b)]
  | .mor _ d a b => firstFail [(3, mask d), (3, mask a), (3, mask b)]
  | .mxor _ d a b => firstFail [(3, mask d), (3, mask a), (3, mask b)]
  | .mandn _ d a b => firstFail [(3, mask d), (3, mask a), (3, mask b)]
  | .mnot _ d a => firstFail [(3, mask d), (3, mask a)]
  | .mmov _ d a => firstFail [(3, mask d), (3, mask a)]
  | .mpopc _ _ a => firstFail [(3, mask a)]
  | .mfirst _ _ a => firstFail [(3, mask a)]
  | .mtos _ d a => firstFail [(3, even d), (3, mask a)]
  | .stom _ d a => firstFail [(3, mask d), (3, even a)]
  | .vdp4s .. => none
  | .vdp4z .. => none
  | .vdp8s .. => none
  | .vdp8z .. => none
  | .vdpf4 .. => none
  | .vdpf8a .. => none
  | .vdpf8b .. => none
  | .vunpk4l .. => none
  | .vunpk4h .. => none
  | .vunpk6 .. => none
  | .veset .. => none
  | .veget .. => none
  | .vemov .. => none
  | .veadd .. => none
  | .rqntE2m1 _ d a _ _ _ => firstFail [(3, mult 4 d), (3, mult 8 a)]
  | .rqntE2m3 _ d a _ _ => firstFail [(3, even d), (3, decide (d.toNat ≤ 122)), (3, mult 8 a)]
  | .rqntE3m2 _ d a _ _ => firstFail [(3, even d), (3, decide (d.toNat ≤ 122)), (3, mult 8 a)]
  | .rqntE4m3 _ d a _ _ => firstFail [(3, mult 8 d), (3, mult 8 a)]
  | .rqntE5m2 _ d a _ _ => firstFail [(3, mult 8 d), (3, mult 8 a)]
  | .rqntg4 _ d a _ _ => firstFail [(3, mult 4 d), (3, mult 8 a)]
  | .rqntg8 _ d a _ _ => firstFail [(3, mult 8 d), (3, mult 8 a)]
  | .vebmax _ _ a => firstFail [(3, mult 8 a)]
  | .vhad16 _ d a => firstFail [(3, mult 8 d), (3, mult 8 a)]
  | .vhad32 _ d a => firstFail [(3, mult 8 d), (3, mult 8 a)]
  | .vldB8 _ _ a b m => firstFail [(2, addrFields a b m), (3, addrPair a m)]
  | .vldS8 _ _ a b m => firstFail [(2, addrFields a b m), (3, addrPair a m)]
  | .vldB16 _ _ a b m => firstFail [(2, addrFields a b m), (3, addrPair a m)]
  | .vldS16 _ _ a b m => firstFail [(2, addrFields a b m), (3, addrPair a m)]
  | .vldW32 _ _ a b m => firstFail [(2, addrFields a b m), (3, addrPair a m)]
  | .vldW64 _ d a b m => firstFail [(2, addrFields a b m), (3, addrPair a m), (3, even d)]
  | .vldW128 _ d a b m => firstFail [(2, addrFields a b m), (3, addrPair a m), (3, mult 4 d)]
  | .vldE _ _ a b m => firstFail [(2, addrFields a b m), (3, addrPair a m)]
  | .vstB8 _ _ a b m => firstFail [(2, addrFields a b m), (3, addrPair a m)]
  | .vstB16 _ _ a b m => firstFail [(2, addrFields a b m), (3, addrPair a m)]
  | .vstW32 _ _ a b m => firstFail [(2, addrFields a b m), (3, addrPair a m)]
  | .vstW64 _ d a b m => firstFail [(2, addrFields a b m), (3, addrPair a m), (3, even d)]
  | .vstW128 _ d a b m => firstFail [(2, addrFields a b m), (3, addrPair a m), (3, mult 4 d)]
  | .vstE _ _ a b m => firstFail [(2, addrFields a b m), (3, addrPair a m)]
  | .vatomAdd32 _ _ a n s u x => firstFail [(2, atomOk .quantum n s u x), (3, x || even a)]
  | .vatomAdd64 _ d a n s u x => firstFail [(2, atomOk .quantum n s u x), (3, x || even a), (3, even d)]
  | .vatomMinS32 _ _ a n s u x => firstFail [(2, atomOk .comm n s u x), (3, x || even a)]
  | .vatomMaxS32 _ _ a n s u x => firstFail [(2, atomOk .comm n s u x), (3, x || even a)]
  | .vatomAnd _ _ a n s u x => firstFail [(2, atomOk .comm n s u x), (3, x || even a)]
  | .vatomOr _ _ a n s u x => firstFail [(2, atomOk .comm n s u x), (3, x || even a)]
  | .vatomXor _ _ a n s u x => firstFail [(2, atomOk .comm n s u x), (3, x || even a)]
  | .vatomXch32 _ _ a n s u x => firstFail [(2, atomOk .plain n s u x), (3, x || even a)]
  | .vatomXch64 _ d a n s u x => firstFail [(2, atomOk .plain n s u x), (3, x || even a), (3, even d)]
  | .vatomCas32 _ d a n s u x => firstFail [(2, atomOk .cas n s u x), (3, x || even a), (3, even d)]
  | .vatomCas64 _ d a n s u x => firstFail [(2, atomOk .cas n s u x), (3, x || even a), (3, mult 4 d)]
  | .vatomFadd32 _ _ a n s u x => firstFail [(2, atomOk .comm n s u x), (3, x || even a)]
  | .vatomFadd64 _ d a n s u x => firstFail [(2, atomOk .comm n s u x), (3, x || even a), (3, even d)]
  | .vatomFaddo32 _ _ a n s u x => firstFail [(2, atomOk .ordered n s u x), (3, x || even a)]
  | .vatomFaddo64 _ d a n s u x => firstFail [(2, atomOk .ordered n s u x), (3, x || even a), (3, even d)]
  | .vatomIncw _ _ a n s u x => firstFail [(2, atomOk .comm n s u x), (3, x || even a)]
  | .sld32 _ _ a _ => firstFail [(3, even a)]
  | .sld64 _ d a _ => firstFail [(3, even d), (3, even a)]
  | .sld128 _ d a _ => firstFail [(3, mult 4 d), (3, even a)]
  | .sst32 _ _ a _ => firstFail [(3, even a)]
  | .sst64 _ d a _ => firstFail [(3, even d), (3, even a)]
  | .sst128 _ d a _ => firstFail [(3, mult 4 d), (3, even a)]
  | .saadd _ _ a _ => firstFail [(3, even a)]
  | .sacas _ d a _ => firstFail [(3, even d), (3, even a)]
  | .acp4 _ _ a _ => firstFail [(3, even a)]
  | .acp8 _ _ a _ => firstFail [(3, even a)]
  | .acp16 _ _ a _ => firstFail [(3, even a)]
  | .acps4 _ _ a _ => firstFail [(3, mult 4 a)]
  | .acps8 _ _ a _ => firstFail [(3, mult 4 a)]
  | .acps16 _ _ a _ => firstFail [(3, mult 4 a)]
  | .boinit .. => none
  | .boarr .. => none
  | .boexp .. => none
  | .bowait .. => none
  | .botest .. => none
  | .bowaitTimeout .. => none
  | .waitaEq _ _ a _ => firstFail [(3, even a)]
  | .waitaNe _ _ a _ => firstFail [(3, even a)]
  | .waitaTimeout .. => none
  | .fenceAcq .. => none
  | .fenceRel .. => none
  | .fenceFull .. => none
  | .lempty .. => none
  | .lfill .. => none
  | .ltest .. => none
  | .lwait .. => none
  | .lwaitTimeout .. => none
  | .ldt4 _ d _ b => firstFail [(3, mult 2 d), (3, even b)]
  | .ldt6 _ d _ b => firstFail [(3, mult 4 d), (3, even b)]
  | .ldt8 _ d _ b => firstFail [(3, mult 4 d), (3, even b)]
  | .ldt16 _ d _ b => firstFail [(3, mult 8 d), (3, even b)]
  | .ldt32 _ d _ b => firstFail [(3, mult 16 d), (3, even b)]
  | .tcpy _ _ a b => firstFail [(3, mult 8 a), (3, even b)]
  | .tcpys _ _ a b => firstFail [(3, mult 8 a), (3, even b)]
  | .tcpyv _ _ a => firstFail [(3, mult 8 a)]
  | .shset _ _ a _ => firstFail [(3, even a)]
  | .shdrop .. => none
  | .shqry .. => none
  | .macq .. => none
  | .mrel .. => none
  | .matrixGrant .. => none
  | .mmode .. => none
  | .mma _ _ _ _ _ b => firstFail [(2, mult 8 b)]
  | .mloop _ _ _ _ _ b => firstFail [(2, mult 8 b)]
  | .matrixStep .. => none
  | .macc _ d _ _ _ => firstFail [(3, mult 8 d)]
  | .maccw _ _ _ a _ => firstFail [(3, mult 8 a)]
  | .mzero .. => none
  | .mqry .. => none
  | .mwait .. => none
  | .gpost _ a _ => firstFail [(3, even a)]
  | .gcancel .. => none
  | .gadd .. => none
  | .grd .. => none
  | .gset .. => none
  | .gateActionComplete .. => none
  | .rput _ a => firstFail [(3, mult 8 a)]
  | .rget _ a => firstFail [(3, mult 8 a)]
  | .rflag .. => none
  | .publish _ d _ => firstFail [(3, even d)]
  | .pubq .. => none
  | .tgath _ a => firstFail [(3, even a)]
  | .tred _ a => firstFail [(3, even a)]
  | .tcvt _ a => firstFail [(3, even a)]
  | .stash _ a => firstFail [(3, even a)]
  | .restore _ a => firstFail [(3, even a)]
  | .teaselCommandComplete .. => none
  | .resultArrival .. => none
  | .parkCommit .. => none
  | .loadPerform .. => none
  | .storePerform .. => none
  | .atomicPerform .. => none
  | .leaseExpiry .. => none
  | .tlbLeaseExpiry .. => none
  | .copyWriteLands .. => none
  | .acpsSourceRelease .. => none
  | .tcpyComplete .. => none
  | .tcpysComplete .. => none
  | .tcpyvDelivery .. => none
  | .recordAcceptance .. => none
  | .dispatchStep .. => none
  | .recordCompletion .. => none
  | .rputArrival .. => none
  | .rflagArrival .. => none
  | .rgetResponse .. => none
  | .rputAcknowledge .. => none
  | .messageUndeliverable .. => none
  | .ualinkPortFailure .. => none
  | .correctableError .. => none
  | .uncorrectableError .. => none
  | .hbmRowRepair .. => none
  | .residueCheckFailure .. => none
  | .contextSave .. => none
  | .eventBufferDrain .. => none
  | .openSession .. => none
  | .closeSession .. => none
  | .statusQuery .. => none
  | .ctxcreate .. => none
  | .ctxwrite .. => none
  | .ctxdestroy .. => none
  | .preempt .. => none
  | .aqpenRestore .. => none
  | .savesize .. => none
  | .submit .. => none
  | .aqpenCancel .. => none
  | .inval .. => none
  | .fixans .. => none
  | .memreg .. => none
  | .evtread .. => none
  | .regread .. => none
  | .debugClaim .. => none
  | .debugHalt .. => none
  | .debugResume .. => none
  | .debugEnd .. => none
  | .debugRegisterAccess .. => none
  | .spdm .. => none
  | .telem .. => none
  | .plimit .. => none
  | .aqpenRetransmit .. => none
  | .rdmaWrite .. => none
  | .rdmaRead .. => none
  | .roceSend .. => none
  | .resetDevice .. => none
  | .bringupStepTimeout => none
  | .powerLimitExceeded .. => none
  | .thermalThreshold .. => none
  | .telemetryUpdate .. => none
  | .tcpysSourceRelease .. => none
  | .rgetRequestArrival .. => none
  | .ethernetPartnerSignal => none
  | .bringupStepComplete .. => none
  | .portFault .. => none
  | .congestionNotificationPacket .. => none
  | .priorityFlowControlFrame .. => none
  | .unknownOpcodeFrame .. => none
  | .powerFallsBelowLimit .. => none
  | .faddoListEnlarge .. => none

/-- An instruction that passes every check of its word (DEDUCED: log entry 10). -/
def WellFormed (i : Instr) : Prop := WellFormed.check i = none

end Sys2Proof
end

