-- ==== Sys2Proof/Decode.lean ====
section
/-!
DEFINITION. Decoding (03 R83 to R91, checks 1 and 2): total on every 32-bit word, rejecting by name; and the encoder,
from the same tables.
-/
namespace Sys2Proof

/-- The fields of a word (03 R83, form layouts). -/
def wP (w : Word) : Bool := w.getLsbD 31
def wMajor (w : Word) : BitVec 5 := w.extractLsb' 26 5
def wD (w : Word) : BitVec 7 := w.extractLsb' 19 7
def wA (w : Word) : BitVec 7 := w.extractLsb' 12 7
def wB (w : Word) : BitVec 7 := w.extractLsb' 5 7
def wF (w : Word) : BitVec 5 := w.extractLsb' 0 5
def wF3 (w : Word) : BitVec 3 := w.extractLsb' 9 3
def wImm9 (w : Word) : BitVec 9 := w.extractLsb' 0 9
def wImm19 (w : Word) : BitVec 19 := w.extractLsb' 0 19
def wKind (w : Word) : BitVec 4 := w.extractLsb' 22 4
def wMask (w : Word) : BitVec 4 := w.extractLsb' 18 4
def wOff18 (w : Word) : BitVec 18 := w.extractLsb' 0 18
def wCond (w : Word) : BitVec 3 := w.extractLsb' 16 3
def wOff16 (w : Word) : BitVec 16 := w.extractLsb' 0 16
def wMa (w : Word) : BitVec 4 := w.extractLsb' 15 4
def wPairs (w : Word) : BitVec 2 := w.extractLsb' 13 2
def wOff13 (w : Word) : BitVec 13 := w.extractLsb' 0 13

/-- The six forms (03 R83). -/
def wordA (p : Bool) (maj : BitVec 5) (d a b : BitVec 7) (f : BitVec 5) : Word :=
  bit p ++ maj ++ d ++ a ++ b ++ f
def wordI (p : Bool) (maj : BitVec 5) (d a : BitVec 7) (f : BitVec 3) (i : BitVec 9) : Word :=
  bit p ++ maj ++ d ++ a ++ f ++ i
def wordL (p : Bool) (maj : BitVec 5) (d : BitVec 7) (i : BitVec 19) : Word :=
  bit p ++ maj ++ d ++ i
def wordB (p : Bool) (maj : BitVec 5) (k m : BitVec 4) (o : BitVec 18) : Word :=
  bit p ++ maj ++ k ++ m ++ o
def wordS (p : Bool) (maj : BitVec 5) (s : BitVec 7) (c : BitVec 3) (o : BitVec 16) : Word :=
  bit p ++ maj ++ s ++ c ++ o
def wordW (p : Bool) (maj : BitVec 5) (t : BitVec 7) (m : BitVec 4) (n : BitVec 2) (o : BitVec 13) : Word :=
  bit p ++ maj ++ t ++ m ++ n ++ o

/-- The option codes (01 R20; 03 R90). -/
def Rounding.code : Rounding → BitVec 3
  | .rne => 0 | .rtz => 1 | .rpi => 2 | .rmi => 3 | .rna => 4 | .rsr => 5 | .rto => 6
def Rounding.ofCode (c : BitVec 3) : Option Rounding :=
  if c = 0 then some .rne else if c = 1 then some .rtz else if c = 2 then some .rpi
  else if c = 3 then some .rmi else if c = 4 then some .rna else if c = 5 then some .rsr
  else if c = 6 then some .rto else none
def RqRound.code : RqRound → BitVec 2
  | .rne => 0 | .rsr => 1
def RqRound.ofCode (c : BitVec 2) : Option RqRound :=
  if c = 0 then some .rne else if c = 1 then some .rsr else none
def HadOpt.code : HadOpt → BitVec 2
  | .none => 0 | .h16 => 1 | .h32 => 2
def HadOpt.ofCode (c : BitVec 2) : Option HadOpt :=
  if c = 0 then some .none else if c = 1 then some .h16 else if c = 2 then some .h32 else Option.none
def Cond.code : Cond → BitVec 3
  | .eq => 0 | .ne => 1 | .lt => 2 | .le => 3 | .gt => 4 | .ge => 5 | .un => 6 | .or => 7
def Cond.ofCode (c : BitVec 3) : Cond :=
  if c = 0 then .eq else if c = 1 then .ne else if c = 2 then .lt else if c = 3 then .le
  else if c = 4 then .gt else if c = 5 then .ge else if c = 6 then .un else .or
def AddrMode.code : AddrMode → BitVec 2
  | .base => 0 | .pair => 1 | .scratch => 2 | .scratchBase => 3
def AddrMode.ofCode (c : BitVec 2) : AddrMode :=
  if c = 0 then .base else if c = 1 then .pair else if c = 2 then .scratch else .scratchBase
def Scope.code : Scope → BitVec 2
  | .block => 0 | .cluster => 1 | .device => 2 | .system => 3
def Scope.ofCode (c : BitVec 2) : Scope :=
  if c = 0 then .block else if c = 1 then .cluster else if c = 2 then .device else .system
def AtomUse.code : AtomUse → BitVec 3
  | .acqRel => 0 | .acquire => 1 | .release => 2 | .unpaired => 3 | .commutative => 4 | .nonOrdering => 5
  | .quantum => 6 | .speculative => 7
def AtomUse.ofCode (c : BitVec 3) : AtomUse :=
  if c = 0 then .acqRel else if c = 1 then .acquire else if c = 2 then .release else if c = 3 then .unpaired
  else if c = 4 then .commutative else if c = 5 then .nonOrdering else if c = 6 then .quantum else .speculative

/-- A reserved field or sub-field must be 0 (03 R85, R90). -/
def rsv (c : Bool) (k : Except Reject Instr) : Except Reject Instr := if c = true then k else .error .reserved

/-- An option field whose value may be illegal (03 R90). -/
def opt {α : Type} (e : Reject) (o : Option α) (k : α → Except Reject Instr) : Except Reject Instr :=
  match o with
  | some x => k x
  | none => .error e

/-- Major 0x00 (03 R89). -/
noncomputable def decodeSys (w : Word) : Except Reject Instr :=
  if wF w = 0#5 then rsv (decide (wD w = 0#7) && decide (wA w = 0#7) && decide (wB w = 0#7)) (.ok (.nop (wP w)))
  else if wF w = 1#5 then rsv (decide (wD w = 0#7)) (.ok (.trap (wP w) (wA w ++ wB w)))
  else if wF w = 2#5 then rsv (decide (wD w = 0#7) && decide (wB w = 0#7)) (.ok (.eret (wP w) (wA w)))
  else if wF w = 3#5 then rsv (decide (wD w = 0#7) && decide (wA w = 0#7) && decide (wB w = 0#7)) (.ok (.bkpt (wP w)))
  else if wF w = 4#5 then .ok (.csrr (wP w) (wD w) (wA w ++ wB w))
  else if wF w = 5#5 then .ok (.csrw (wP w) (wD w) (wA w ++ wB w))
  else if wF w = 6#5 then .ok (.csrs (wP w) (wD w) (wA w ++ wB w))
  else if wF w = 7#5 then .ok (.csrc (wP w) (wD w) (wA w ++ wB w))
  else if wF w = 8#5 then rsv (decide (wD w = 0#7) && decide (wB w = 0#7)) (.ok (.sleep (wP w) (wA w)))
  else if wF w = 9#5 then rsv (decide (wD w = 0#7)) (.ok (.evt (wP w) (wA w) (wB w)))
  else if wF w = 10#5 then rsv (decide (wD w = 0#7) && decide (wB w = 0#7)) (.ok (.spawn (wP w) (wA w)))
  else if wF w = 11#5 then rsv (decide (wD w = 0#7)) (.ok (.join (wP w) (wA w) (wB w)))
  else if wF w = 12#5 then rsv (decide (wD w = 0#7)) (.ok (.cancel (wP w) (wA w) (wB w)))
  else if wF w = 13#5 then .ok (.rinkq (wP w) (wD w) (wA w) (wB w))
  else if wF w = 14#5 then rsv (decide (wB w = 0#7)) (.ok (.vdie (wP w) (wD w) (wA w)))
  else if wF w = 15#5 then .ok (.hops (wP w) (wD w) (wA w) (wB w))
  else .error .selector

/-- Major 0x01 (03 R89). -/
noncomputable def decodeSalu (w : Word) : Except Reject Instr :=
  if wF w = 0#5 then .ok (.sadd (wP w) (wD w) (wA w) (wB w))
  else if wF w = 1#5 then .ok (.ssub (wP w) (wD w) (wA w) (wB w))
  else if wF w = 2#5 then .ok (.smul (wP w) (wD w) (wA w) (wB w))
  else if wF w = 3#5 then .ok (.smulhs (wP w) (wD w) (wA w) (wB w))
  else if wF w = 4#5 then .ok (.smulhn (wP w) (wD w) (wA w) (wB w))
  else if wF w = 5#5 then .ok (.sadd64 (wP w) (wD w) (wA w) (wB w))
  else if wF w = 6#5 then .ok (.ssub64 (wP w) (wD w) (wA w) (wB w))
  else if wF w = 7#5 then .ok (.sand (wP w) (wD w) (wA w) (wB w))
  else if wF w = 8#5 then .ok (.sor (wP w) (wD w) (wA w) (wB w))
  else if wF w = 9#5 then .ok (.sxor (wP w) (wD w) (wA w) (wB w))
  else if wF w = 10#5 then .ok (.sshl (wP w) (wD w) (wA w) (wB w))
  else if wF w = 11#5 then .ok (.sshr (wP w) (wD w) (wA w) (wB w))
  else if wF w = 12#5 then .ok (.ssra (wP w) (wD w) (wA w) (wB w))
  else if wF w = 13#5 then .ok (.smins (wP w) (wD w) (wA w) (wB w))
  else if wF w = 14#5 then .ok (.smaxs (wP w) (wD w) (wA w) (wB w))
  else if wF w = 15#5 then .ok (.sslts (wP w) (wD w) (wA w) (wB w))
  else if wF w = 16#5 then .ok (.ssltn (wP w) (wD w) (wA w) (wB w))
  else if wF w = 17#5 then .ok (.sseq (wP w) (wD w) (wA w) (wB w))
  else if wF w = 18#5 then .ok (.ssne (wP w) (wD w) (wA w) (wB w))
  else if wF w = 19#5 then rsv (decide (wB w = 0#7)) (.ok (.sclz (wP w) (wD w) (wA w)))
  else if wF w = 20#5 then rsv (decide (wB w = 0#7)) (.ok (.spopc (wP w) (wD w) (wA w)))
  else if wF w = 21#5 then .ok (.sbfe (wP w) (wD w) (wA w) (wB w))
  else if wF w = 22#5 then .ok (.sbins (wP w) (wD w) (wA w) (wB w))
  else if wF w = 23#5 then .ok (.sdivn (wP w) (wD w) (wA w) (wB w))
  else if wF w = 24#5 then .ok (.sremn (wP w) (wD w) (wA w) (wB w))
  else if wF w = 25#5 then .ok (.ssel (wP w) (wD w) (wA w) (wB w))
  else .error .selector

/-- Major 0x02 (03 R89). -/
noncomputable def decodeSalui (w : Word) : Except Reject Instr :=
  if wF3 w = 0#3 then .ok (.saddi (wP w) (wD w) (wA w) (wImm9 w))
  else if wF3 w = 1#3 then .ok (.sandi (wP w) (wD w) (wA w) (wImm9 w))
  else if wF3 w = 2#3 then .ok (.sori (wP w) (wD w) (wA w) (wImm9 w))
  else if wF3 w = 3#3 then .ok (.sxori (wP w) (wD w) (wA w) (wImm9 w))
  else if wF3 w = 4#3 then rsv (decide ((wImm9 w).extractLsb' 5 4 = 0#4)) (.ok (.sshli (wP w) (wD w) (wA w) (((wImm9 w).extractLsb' 0 5))))
  else if wF3 w = 5#3 then rsv (decide ((wImm9 w).extractLsb' 5 4 = 0#4)) (.ok (.sshri (wP w) (wD w) (wA w) (((wImm9 w).extractLsb' 0 5))))
  else if wF3 w = 6#3 then rsv (decide ((wImm9 w).extractLsb' 5 4 = 0#4)) (.ok (.ssrai (wP w) (wD w) (wA w) (((wImm9 w).extractLsb' 0 5))))
  else if wF3 w = 7#3 then .ok (.sslti (wP w) (wD w) (wA w) (wImm9 w))
  else .error .selector

/-- Major 0x03 (03 R89). -/
noncomputable def decodeSli (w : Word) : Except Reject Instr :=
  .ok (.sli (wP w) (wD w) (wImm19 w))

/-- Major 0x04 (03 R89). -/
noncomputable def decodeShi (w : Word) : Except Reject Instr :=
  .ok (.shi (wP w) (wD w) (wImm19 w))

/-- Major 0x05 (03 R89). -/
noncomputable def decodeBr (w : Word) : Except Reject Instr :=
  if wKind w = 0#4 then rsv (decide (wMask w = 0#4)) (.ok (.bra (wP w) (wOff18 w)))
  else if wKind w = 1#4 then .ok (.brany (wP w) (wMask w) (wOff18 w))
  else if wKind w = 2#4 then .ok (.brall (wP w) (wMask w) (wOff18 w))
  else if wKind w = 3#4 then .ok (.brnone (wP w) (wMask w) (wOff18 w))
  else if wKind w = 4#4 then rsv (decide (wMask w = 0#4)) (.ok (.call (wP w) (wOff18 w)))
  else .error .selector

/-- Major 0x06 (03 R89). -/
noncomputable def decodeBrs (w : Word) : Except Reject Instr :=
  if wCond w = 0#3 then .ok (.beqz (wP w) (wD w) (wOff16 w))
  else if wCond w = 1#3 then .ok (.bnez (wP w) (wD w) (wOff16 w))
  else if wCond w = 2#3 then .ok (.bltz (wP w) (wD w) (wOff16 w))
  else if wCond w = 3#3 then .ok (.bgez (wP w) (wD w) (wOff16 w))
  else if wCond w = 4#3 then .ok (.bgtz (wP w) (wD w) (wOff16 w))
  else if wCond w = 5#3 then .ok (.blez (wP w) (wD w) (wOff16 w))
  else .error .selector

/-- Major 0x07 (03 R89). -/
noncomputable def decodeJmp (w : Word) : Except Reject Instr :=
  if wF w = 0#5 then rsv (decide (wD w = 0#7) && decide (wB w = 0#7)) (.ok (.jr (wP w) (wA w)))
  else if wF w = 1#5 then rsv (decide (wB w = 0#7)) (.ok (.jalr (wP w) (wD w) (wA w)))
  else .error .selector

/-- Major 0x08 (03 R89). -/
noncomputable def decodeMbr (w : Word) : Except Reject Instr :=
  .ok (.mbr (wP w) (wD w) (wMa w) (wPairs w) (wOff13 w))

/-- Major 0x09 (03 R89). -/
noncomputable def decodeWctl (w : Word) : Except Reject Instr :=
  if wF w = 0#5 then rsv (decide (wD w = 0#7) && decide (wA w = 0#7)) (.ok (.wfuse (wP w) (wB w)))
  else if wF w = 1#5 then rsv (decide (wD w = 0#7) && decide (wA w = 0#7)) (.ok (.wsplit (wP w) (wB w)))
  else if wF w = 2#5 then rsv (decide (wD w = 0#7) && decide (wA w = 0#7) && decide ((wB w).extractLsb' 5 2 = 0#2)) (.ok (.wbase (wP w) (((wB w).extractLsb' 0 5))))
  else if wF w = 3#5 then rsv (decide (wD w = 0#7) && decide (wA w = 0#7) && decide (wB w = 0#7)) (.ok (.yield (wP w)))
  else if wF w = 4#5 then rsv (decide (wD w = 0#7) && decide (wA w = 0#7) && decide (wB w = 0#7)) (.ok (.wexit (wP w)))
  else if wF w = 5#5 then rsv (decide (wD w = 0#7)) (.ok (.bars (wP w) (wA w) (wB w)))
  else if wF w = 6#5 then rsv (decide (wD w = 0#7)) (.ok (.bara (wP w) (wA w) (wB w)))
  else if wF w = 7#5 then .ok (.barw (wP w) (wD w) (wA w) (wB w))
  else if wF w = 8#5 then rsv (decide (wD w = 0#7) && decide (wB w = 0#7)) (.ok (.cbara (wP w) (wA w)))
  else if wF w = 9#5 then rsv (decide (wB w = 0#7)) (.ok (.cbarw (wP w) (wD w) (wA w)))
  else if wF w = 10#5 then rsv (decide (wD w = 0#7) && decide (wA w = 0#7) && decide (wB w = 0#7)) (.ok (.bjoin (wP w)))
  else if wF w = 11#5 then rsv (decide (wD w = 0#7) && decide (wB w = 0#7)) (.ok (.dqpush (wP w) (wA w)))
  else if wF w = 12#5 then rsv (decide (wA w = 0#7) && decide (wB w = 0#7)) (.ok (.dqpop (wP w) (wD w)))
  else .error .selector

/-- Major 0x0A (03 R89). -/
noncomputable def decodeVint (w : Word) : Except Reject Instr :=
  if wF w = 0#5 then .ok (.vadd (wP w) (wD w) (wA w) (wB w))
  else if wF w = 1#5 then .ok (.vsub (wP w) (wD w) (wA w) (wB w))
  else if wF w = 2#5 then .ok (.vmul (wP w) (wD w) (wA w) (wB w))
  else if wF w = 3#5 then .ok (.vmulhs (wP w) (wD w) (wA w) (wB w))
  else if wF w = 4#5 then .ok (.vmad (wP w) (wD w) (wA w) (wB w))
  else if wF w = 5#5 then .ok (.vadd64 (wP w) (wD w) (wA w) (wB w))
  else if wF w = 6#5 then .ok (.vsub64 (wP w) (wD w) (wA w) (wB w))
  else if wF w = 7#5 then .ok (.vand (wP w) (wD w) (wA w) (wB w))
  else if wF w = 8#5 then .ok (.vor (wP w) (wD w) (wA w) (wB w))
  else if wF w = 9#5 then .ok (.vxor (wP w) (wD w) (wA w) (wB w))
  else if wF w = 10#5 then .ok (.vandn (wP w) (wD w) (wA w) (wB w))
  else if wF w = 11#5 then .ok (.vshl (wP w) (wD w) (wA w) (wB w))
  else if wF w = 12#5 then .ok (.vshr (wP w) (wD w) (wA w) (wB w))
  else if wF w = 13#5 then .ok (.vsra (wP w) (wD w) (wA w) (wB w))
  else if wF w = 14#5 then .ok (.vmins (wP w) (wD w) (wA w) (wB w))
  else if wF w = 15#5 then .ok (.vmaxs (wP w) (wD w) (wA w) (wB w))
  else if wF w = 16#5 then .ok (.vminn (wP w) (wD w) (wA w) (wB w))
  else if wF w = 17#5 then .ok (.vmaxn (wP w) (wD w) (wA w) (wB w))
  else if wF w = 18#5 then .ok (.vaddss (wP w) (wD w) (wA w) (wB w))
  else if wF w = 19#5 then .ok (.vsubss (wP w) (wD w) (wA w) (wB w))
  else if wF w = 20#5 then rsv (decide (wB w = 0#7)) (.ok (.vclz (wP w) (wD w) (wA w)))
  else if wF w = 21#5 then rsv (decide (wB w = 0#7)) (.ok (.vpopc (wP w) (wD w) (wA w)))
  else if wF w = 22#5 then .ok (.vbfe (wP w) (wD w) (wA w) (wB w))
  else if wF w = 23#5 then .ok (.vbins (wP w) (wD w) (wA w) (wB w))
  else if wF w = 24#5 then rsv (decide (wB w = 0#7)) (.ok (.vmov (wP w) (wD w) (wA w)))
  else if wF w = 25#5 then rsv (decide (wA w = 0#7) && decide (wB w = 0#7)) (.ok (.vlaneid (wP w) (wD w)))
  else .error .selector

/-- Major 0x0B (03 R89). -/
noncomputable def decodeVints (w : Word) : Except Reject Instr :=
  if wF w = 0#5 then .ok (.vaddScalar (wP w) (wD w) (wA w) (wB w))
  else if wF w = 1#5 then .ok (.vsubScalar (wP w) (wD w) (wA w) (wB w))
  else if wF w = 2#5 then .ok (.vmulScalar (wP w) (wD w) (wA w) (wB w))
  else if wF w = 3#5 then .ok (.vmulhsScalar (wP w) (wD w) (wA w) (wB w))
  else if wF w = 4#5 then .ok (.vmadScalar (wP w) (wD w) (wA w) (wB w))
  else if wF w = 5#5 then .ok (.vadd64Scalar (wP w) (wD w) (wA w) (wB w))
  else if wF w = 6#5 then .ok (.vsub64Scalar (wP w) (wD w) (wA w) (wB w))
  else if wF w = 7#5 then .ok (.vandScalar (wP w) (wD w) (wA w) (wB w))
  else if wF w = 8#5 then .ok (.vorScalar (wP w) (wD w) (wA w) (wB w))
  else if wF w = 9#5 then .ok (.vxorScalar (wP w) (wD w) (wA w) (wB w))
  else if wF w = 10#5 then .ok (.vandnScalar (wP w) (wD w) (wA w) (wB w))
  else if wF w = 11#5 then .ok (.vshlScalar (wP w) (wD w) (wA w) (wB w))
  else if wF w = 12#5 then .ok (.vshrScalar (wP w) (wD w) (wA w) (wB w))
  else if wF w = 13#5 then .ok (.vsraScalar (wP w) (wD w) (wA w) (wB w))
  else if wF w = 14#5 then .ok (.vminsScalar (wP w) (wD w) (wA w) (wB w))
  else if wF w = 15#5 then .ok (.vmaxsScalar (wP w) (wD w) (wA w) (wB w))
  else if wF w = 16#5 then .ok (.vminnScalar (wP w) (wD w) (wA w) (wB w))
  else if wF w = 17#5 then .ok (.vmaxnScalar (wP w) (wD w) (wA w) (wB w))
  else if wF w = 18#5 then .ok (.vaddssScalar (wP w) (wD w) (wA w) (wB w))
  else if wF w = 19#5 then .ok (.vsubssScalar (wP w) (wD w) (wA w) (wB w))
  else if wF w = 22#5 then .ok (.vbfeScalar (wP w) (wD w) (wA w) (wB w))
  else if wF w = 23#5 then .ok (.vbinsScalar (wP w) (wD w) (wA w) (wB w))
  else if wF w = 24#5 then rsv (decide (wA w = 0#7)) (.ok (.vmovScalar (wP w) (wD w) (wB w)))
  else .error .selector

/-- Major 0x0C (03 R89). -/
noncomputable def decodeVf32 (w : Word) : Except Reject Instr :=
  if (wF w).extractLsb' 3 2 = 0#2 then opt .selector (Rounding.ofCode (((wF w).extractLsb' 0 3))) fun r => .ok (.vfaddF32 (wP w) (wD w) (wA w) (wB w) r)
  else if (wF w).extractLsb' 3 2 = 1#2 then opt .selector (Rounding.ofCode (((wF w).extractLsb' 0 3))) fun r => .ok (.vfsubF32 (wP w) (wD w) (wA w) (wB w) r)
  else if (wF w).extractLsb' 3 2 = 2#2 then opt .selector (Rounding.ofCode (((wF w).extractLsb' 0 3))) fun r => .ok (.vfmulF32 (wP w) (wD w) (wA w) (wB w) r)
  else if (wF w).extractLsb' 3 2 = 3#2 then opt .selector (Rounding.ofCode (((wF w).extractLsb' 0 3))) fun r => .ok (.vffmaF32 (wP w) (wD w) (wA w) (wB w) r)
  else .error .selector

/-- Major 0x0D (03 R89). -/
noncomputable def decodeVf64 (w : Word) : Except Reject Instr :=
  if (wF w).extractLsb' 3 2 = 0#2 then opt .selector (Rounding.ofCode (((wF w).extractLsb' 0 3))) fun r => .ok (.vfaddF64 (wP w) (wD w) (wA w) (wB w) r)
  else if (wF w).extractLsb' 3 2 = 1#2 then opt .selector (Rounding.ofCode (((wF w).extractLsb' 0 3))) fun r => .ok (.vfsubF64 (wP w) (wD w) (wA w) (wB w) r)
  else if (wF w).extractLsb' 3 2 = 2#2 then opt .selector (Rounding.ofCode (((wF w).extractLsb' 0 3))) fun r => .ok (.vfmulF64 (wP w) (wD w) (wA w) (wB w) r)
  else if (wF w).extractLsb' 3 2 = 3#2 then opt .selector (Rounding.ofCode (((wF w).extractLsb' 0 3))) fun r => .ok (.vffmaF64 (wP w) (wD w) (wA w) (wB w) r)
  else .error .selector

/-- Major 0x0E (03 R89). -/
noncomputable def decodeVf16 (w : Word) : Except Reject Instr :=
  if (wF w).extractLsb' 3 2 = 0#2 then opt .selector (Rounding.ofCode (((wF w).extractLsb' 0 3))) fun r => .ok (.vfaddF16 (wP w) (wD w) (wA w) (wB w) r)
  else if (wF w).extractLsb' 3 2 = 1#2 then opt .selector (Rounding.ofCode (((wF w).extractLsb' 0 3))) fun r => .ok (.vfsubF16 (wP w) (wD w) (wA w) (wB w) r)
  else if (wF w).extractLsb' 3 2 = 2#2 then opt .selector (Rounding.ofCode (((wF w).extractLsb' 0 3))) fun r => .ok (.vfmulF16 (wP w) (wD w) (wA w) (wB w) r)
  else if (wF w).extractLsb' 3 2 = 3#2 then opt .selector (Rounding.ofCode (((wF w).extractLsb' 0 3))) fun r => .ok (.vffmaF16 (wP w) (wD w) (wA w) (wB w) r)
  else .error .selector

/-- Major 0x0F (03 R89). -/
noncomputable def decodeVbf16 (w : Word) : Except Reject Instr :=
  if (wF w).extractLsb' 3 2 = 0#2 then opt .selector (Rounding.ofCode (((wF w).extractLsb' 0 3))) fun r => .ok (.vfaddBf16 (wP w) (wD w) (wA w) (wB w) r)
  else if (wF w).extractLsb' 3 2 = 1#2 then opt .selector (Rounding.ofCode (((wF w).extractLsb' 0 3))) fun r => .ok (.vfsubBf16 (wP w) (wD w) (wA w) (wB w) r)
  else if (wF w).extractLsb' 3 2 = 2#2 then opt .selector (Rounding.ofCode (((wF w).extractLsb' 0 3))) fun r => .ok (.vfmulBf16 (wP w) (wD w) (wA w) (wB w) r)
  else if (wF w).extractLsb' 3 2 = 3#2 then opt .selector (Rounding.ofCode (((wF w).extractLsb' 0 3))) fun r => .ok (.vffmaBf16 (wP w) (wD w) (wA w) (wB w) r)
  else .error .selector

/-- Major 0x10 (03 R89). -/
noncomputable def decodeVfmisc (w : Word) : Except Reject Instr :=
  if wF w = 0#5 then .ok (.vfminF32 (wP w) (wD w) (wA w) (wB w))
  else if wF w = 1#5 then .ok (.vfmaxF32 (wP w) (wD w) (wA w) (wB w))
  else if wF w = 2#5 then .ok (.vfminF64 (wP w) (wD w) (wA w) (wB w))
  else if wF w = 3#5 then .ok (.vfmaxF64 (wP w) (wD w) (wA w) (wB w))
  else if wF w = 4#5 then rsv (decide (wB w = 0#7)) (.ok (.vfabsF32 (wP w) (wD w) (wA w)))
  else if wF w = 5#5 then rsv (decide (wB w = 0#7)) (.ok (.vfnegF32 (wP w) (wD w) (wA w)))
  else if wF w = 6#5 then rsv (decide (wB w = 0#7)) (.ok (.vfabsF64 (wP w) (wD w) (wA w)))
  else if wF w = 7#5 then rsv (decide (wB w = 0#7)) (.ok (.vfnegF64 (wP w) (wD w) (wA w)))
  else if wF w = 8#5 then rsv (decide (wB w = 0#7)) (.ok (.vfclassF32 (wP w) (wD w) (wA w)))
  else if wF w = 9#5 then rsv (decide (wB w = 0#7)) (.ok (.vfclassF64 (wP w) (wD w) (wA w)))
  else if wF w = 10#5 then .ok (.vfsclF32 (wP w) (wD w) (wA w) (wB w))
  else if wF w = 11#5 then .ok (.vfsclF64 (wP w) (wD w) (wA w) (wB w))
  else if wF w = 12#5 then rsv (decide (wB w = 0#7)) (.ok (.vfgexF32 (wP w) (wD w) (wA w)))
  else if wF w = 13#5 then rsv (decide (wB w = 0#7)) (.ok (.vfgexF64 (wP w) (wD w) (wA w)))
  else .error .selector

/-- Major 0x11 (03 R89). -/
noncomputable def decodeVcvt (w : Word) : Except Reject Instr :=
  if wF w = 0#5 then rsv (decide (wB w = 0#7)) (.ok (.vcvtF64F32 (wP w) (wD w) (wA w)))
  else if wF w = 1#5 then rsv (decide ((wB w).extractLsb' 3 3 = 0#3)) (opt .reserved (Rounding.ofCode (((wB w).extractLsb' 0 3))) fun r => .ok (.vcvtF32F64 (wP w) (wD w) (wA w) ((((wB w).extractLsb' 6 1)) = 1#1) r))
  else if wF w = 2#5 then rsv (decide ((wB w).extractLsb' 3 3 = 0#3)) (opt .reserved (Rounding.ofCode (((wB w).extractLsb' 0 3))) fun r => .ok (.vcvtF16F32 (wP w) (wD w) (wA w) ((((wB w).extractLsb' 6 1)) = 1#1) r))
  else if wF w = 3#5 then rsv (decide (wB w = 0#7)) (.ok (.vcvtF32F16 (wP w) (wD w) (wA w)))
  else if wF w = 4#5 then rsv (decide ((wB w).extractLsb' 3 3 = 0#3)) (opt .reserved (Rounding.ofCode (((wB w).extractLsb' 0 3))) fun r => .ok (.vcvtBf16F32 (wP w) (wD w) (wA w) ((((wB w).extractLsb' 6 1)) = 1#1) r))
  else if wF w = 5#5 then rsv (decide (wB w = 0#7)) (.ok (.vcvtF32Bf16 (wP w) (wD w) (wA w)))
  else if wF w = 6#5 then rsv (decide ((wB w).extractLsb' 3 3 = 0#3)) (opt .reserved (Rounding.ofCode (((wB w).extractLsb' 0 3))) fun r => .ok (.vcvtS32F32 (wP w) (wD w) (wA w) ((((wB w).extractLsb' 6 1)) = 1#1) r))
  else if wF w = 7#5 then rsv (decide ((wB w).extractLsb' 3 3 = 0#3)) (opt .reserved (Rounding.ofCode (((wB w).extractLsb' 0 3))) fun r => .ok (.vcvtF32S32 (wP w) (wD w) (wA w) ((((wB w).extractLsb' 6 1)) = 1#1) r))
  else if wF w = 8#5 then rsv (decide ((wB w).extractLsb' 3 3 = 0#3)) (opt .reserved (Rounding.ofCode (((wB w).extractLsb' 0 3))) fun r => .ok (.vcvtN32F32 (wP w) (wD w) (wA w) ((((wB w).extractLsb' 6 1)) = 1#1) r))
  else if wF w = 9#5 then rsv (decide ((wB w).extractLsb' 3 3 = 0#3)) (opt .reserved (Rounding.ofCode (((wB w).extractLsb' 0 3))) fun r => .ok (.vcvtF32N32 (wP w) (wD w) (wA w) ((((wB w).extractLsb' 6 1)) = 1#1) r))
  else if wF w = 10#5 then rsv (decide ((wB w).extractLsb' 3 3 = 0#3)) (opt .reserved (Rounding.ofCode (((wB w).extractLsb' 0 3))) fun r => .ok (.vcvtS32F64 (wP w) (wD w) (wA w) ((((wB w).extractLsb' 6 1)) = 1#1) r))
  else if wF w = 11#5 then rsv (decide (wB w = 0#7)) (.ok (.vcvtF64S32 (wP w) (wD w) (wA w)))
  else if wF w = 12#5 then rsv (decide ((wB w).extractLsb' 3 3 = 0#3)) (opt .reserved (Rounding.ofCode (((wB w).extractLsb' 0 3))) fun r => .ok (.vcvtS64F64 (wP w) (wD w) (wA w) ((((wB w).extractLsb' 6 1)) = 1#1) r))
  else if wF w = 13#5 then rsv (decide ((wB w).extractLsb' 3 3 = 0#3)) (opt .reserved (Rounding.ofCode (((wB w).extractLsb' 0 3))) fun r => .ok (.vcvtF64S64 (wP w) (wD w) (wA w) ((((wB w).extractLsb' 6 1)) = 1#1) r))
  else if wF w = 14#5 then rsv (decide ((wB w).extractLsb' 3 3 = 0#3)) (opt .reserved (Rounding.ofCode (((wB w).extractLsb' 0 3))) fun r => .ok (.vcvtE4m3F32 (wP w) (wD w) (wA w) ((((wB w).extractLsb' 6 1)) = 1#1) r))
  else if wF w = 15#5 then rsv (decide (wB w = 0#7)) (.ok (.vcvtF32E4m3 (wP w) (wD w) (wA w)))
  else if wF w = 16#5 then rsv (decide ((wB w).extractLsb' 3 3 = 0#3)) (opt .reserved (Rounding.ofCode (((wB w).extractLsb' 0 3))) fun r => .ok (.vcvtE5m2F32 (wP w) (wD w) (wA w) ((((wB w).extractLsb' 6 1)) = 1#1) r))
  else if wF w = 17#5 then rsv (decide (wB w = 0#7)) (.ok (.vcvtF32E5m2 (wP w) (wD w) (wA w)))
  else if wF w = 18#5 then rsv (decide (wB w = 0#7)) (.ok (.vcvtF32E2m1 (wP w) (wD w) (wA w)))
  else if wF w = 19#5 then rsv (decide (wB w = 0#7)) (.ok (.vcvtF32E2m3 (wP w) (wD w) (wA w)))
  else if wF w = 20#5 then rsv (decide (wB w = 0#7)) (.ok (.vcvtF32E3m2 (wP w) (wD w) (wA w)))
  else .error .selector

/-- Major 0x12 (03 R89). -/
noncomputable def decodeVxc (w : Word) : Except Reject Instr :=
  if wF w = 0#5 then rsv (decide (wB w = 0#7)) (.ok (.vrcpF32 (wP w) (wD w) (wA w)))
  else if wF w = 1#5 then rsv (decide (wB w = 0#7)) (.ok (.vrsqF32 (wP w) (wD w) (wA w)))
  else if wF w = 2#5 then rsv (decide ((wB w).extractLsb' 3 4 = 0#4)) (opt .reserved (Rounding.ofCode (((wB w).extractLsb' 0 3))) fun r => .ok (.vsqrtF32 (wP w) (wD w) (wA w) r))
  else if wF w = 3#5 then rsv (decide (wB w = 0#7)) (.ok (.vexp2F32 (wP w) (wD w) (wA w)))
  else if wF w = 4#5 then rsv (decide (wB w = 0#7)) (.ok (.vlog2F32 (wP w) (wD w) (wA w)))
  else if wF w = 5#5 then rsv (decide (wB w = 0#7)) (.ok (.vsinF32 (wP w) (wD w) (wA w)))
  else if wF w = 6#5 then rsv (decide (wB w = 0#7)) (.ok (.vcosF32 (wP w) (wD w) (wA w)))
  else if wF w = 7#5 then rsv (decide (wB w = 0#7)) (.ok (.vtanhF32 (wP w) (wD w) (wA w)))
  else if wF w = 8#5 then rsv (decide ((wB w).extractLsb' 3 4 = 0#4)) (opt .reserved (Rounding.ofCode (((wB w).extractLsb' 0 3))) fun r => .ok (.vdivF32 (wP w) (wD w) (wA w) r))
  else if wF w = 9#5 then rsv (decide (wB w = 0#7)) (.ok (.vrcpF64 (wP w) (wD w) (wA w)))
  else if wF w = 10#5 then rsv (decide (wB w = 0#7)) (.ok (.vrsqF64 (wP w) (wD w) (wA w)))
  else if wF w = 11#5 then rsv (decide ((wB w).extractLsb' 3 4 = 0#4)) (opt .reserved (Rounding.ofCode (((wB w).extractLsb' 0 3))) fun r => .ok (.vsqrtF64 (wP w) (wD w) (wA w) r))
  else if wF w = 12#5 then rsv (decide (wB w = 0#7)) (.ok (.vexp2F64 (wP w) (wD w) (wA w)))
  else if wF w = 13#5 then rsv (decide (wB w = 0#7)) (.ok (.vlog2F64 (wP w) (wD w) (wA w)))
  else if wF w = 14#5 then rsv (decide (wB w = 0#7)) (.ok (.vsinF64 (wP w) (wD w) (wA w)))
  else if wF w = 15#5 then rsv (decide (wB w = 0#7)) (.ok (.vcosF64 (wP w) (wD w) (wA w)))
  else if wF w = 16#5 then rsv (decide ((wB w).extractLsb' 3 4 = 0#4)) (opt .reserved (Rounding.ofCode (((wB w).extractLsb' 0 3))) fun r => .ok (.vdivF64 (wP w) (wD w) (wA w) r))
  else .error .selector

/-- Major 0x13 (03 R89). -/
noncomputable def decodeVcmp (w : Word) : Except Reject Instr :=
  if (wF w).extractLsb' 3 2 = 0#2 then .ok (.vcmpF32 (wP w) (wD w) (wA w) (wB w) (Cond.ofCode (((wF w).extractLsb' 0 3))))
  else if (wF w).extractLsb' 3 2 = 1#2 then .ok (.vcmpF64 (wP w) (wD w) (wA w) (wB w) (Cond.ofCode (((wF w).extractLsb' 0 3))))
  else if (wF w).extractLsb' 3 2 = 2#2 then .ok (.vcmpS32 (wP w) (wD w) (wA w) (wB w) (Cond.ofCode (((wF w).extractLsb' 0 3))))
  else if (wF w).extractLsb' 3 2 = 3#2 then .ok (.vcmpN32 (wP w) (wD w) (wA w) (wB w) (Cond.ofCode (((wF w).extractLsb' 0 3))))
  else .error .selector

/-- Major 0x14 (03 R89). -/
noncomputable def decodeVlane (w : Word) : Except Reject Instr :=
  if wF w = 0#5 then .ok (.vshfl (wP w) (wD w) (wA w) (wB w))
  else if wF w = 1#5 then .ok (.vshflx (wP w) (wD w) (wA w) (wB w))
  else if wF w = 2#5 then .ok (.vshflu (wP w) (wD w) (wA w) (wB w))
  else if wF w = 3#5 then .ok (.vshfld (wP w) (wD w) (wA w) (wB w))
  else if wF w = 4#5 then .ok (.vbcst (wP w) (wD w) (wA w) (wB w))
  else if wF w = 5#5 then rsv (decide (wB w = 0#7)) (.ok (.vredaddS32 (wP w) (wD w) (wA w)))
  else if wF w = 6#5 then rsv (decide (wB w = 0#7)) (.ok (.vredaddF32 (wP w) (wD w) (wA w)))
  else if wF w = 7#5 then rsv (decide (wB w = 0#7)) (.ok (.vredmaxF32 (wP w) (wD w) (wA w)))
  else if wF w = 8#5 then rsv (decide (wB w = 0#7)) (.ok (.vredminF32 (wP w) (wD w) (wA w)))
  else if wF w = 9#5 then rsv (decide (wB w = 0#7)) (.ok (.vscanS32 (wP w) (wD w) (wA w)))
  else if wF w = 10#5 then rsv (decide (wB w = 0#7)) (.ok (.vscanF32 (wP w) (wD w) (wA w)))
  else if wF w = 11#5 then .ok (.vselm (wP w) (wD w) (wA w) (wB w))
  else if wF w = 12#5 then .ok (.mand (wP w) (wD w) (wA w) (wB w))
  else if wF w = 13#5 then .ok (.mor (wP w) (wD w) (wA w) (wB w))
  else if wF w = 14#5 then .ok (.mxor (wP w) (wD w) (wA w) (wB w))
  else if wF w = 15#5 then .ok (.mandn (wP w) (wD w) (wA w) (wB w))
  else if wF w = 16#5 then rsv (decide (wB w = 0#7)) (.ok (.mnot (wP w) (wD w) (wA w)))
  else if wF w = 17#5 then rsv (decide (wB w = 0#7)) (.ok (.mmov (wP w) (wD w) (wA w)))
  else if wF w = 18#5 then rsv (decide (wB w = 0#7)) (.ok (.mpopc (wP w) (wD w) (wA w)))
  else if wF w = 19#5 then rsv (decide (wB w = 0#7)) (.ok (.mfirst (wP w) (wD w) (wA w)))
  else if wF w = 20#5 then rsv (decide (wB w = 0#7)) (.ok (.mtos (wP w) (wD w) (wA w)))
  else if wF w = 21#5 then rsv (decide (wB w = 0#7)) (.ok (.stom (wP w) (wD w) (wA w)))
  else .error .selector

/-- Major 0x15 (03 R89). -/
noncomputable def decodeVpack (w : Word) : Except Reject Instr :=
  if wF w = 0#5 then .ok (.vdp4s (wP w) (wD w) (wA w) (wB w))
  else if wF w = 1#5 then .ok (.vdp4z (wP w) (wD w) (wA w) (wB w))
  else if wF w = 2#5 then .ok (.vdp8s (wP w) (wD w) (wA w) (wB w))
  else if wF w = 3#5 then .ok (.vdp8z (wP w) (wD w) (wA w) (wB w))
  else if wF w = 4#5 then .ok (.vdpf4 (wP w) (wD w) (wA w) (wB w))
  else if wF w = 5#5 then .ok (.vdpf8a (wP w) (wD w) (wA w) (wB w))
  else if wF w = 6#5 then .ok (.vdpf8b (wP w) (wD w) (wA w) (wB w))
  else if wF w = 7#5 then rsv (decide (wB w = 0#7)) (.ok (.vunpk4l (wP w) (wD w) (wA w)))
  else if wF w = 8#5 then rsv (decide (wB w = 0#7)) (.ok (.vunpk4h (wP w) (wD w) (wA w)))
  else if wF w = 9#5 then rsv (decide (wB w = 0#7)) (.ok (.vunpk6 (wP w) (wD w) (wA w)))
  else if wF w = 10#5 then rsv (decide (wA w = 0#7)) (.ok (.veset (wP w) (wD w) (wB w)))
  else if wF w = 11#5 then rsv (decide (wB w = 0#7)) (.ok (.veget (wP w) (wD w) (wA w)))
  else if wF w = 12#5 then rsv (decide (wB w = 0#7)) (.ok (.vemov (wP w) (wD w) (wA w)))
  else if wF w = 13#5 then .ok (.veadd (wP w) (wD w) (wA w) (wB w))
  else .error .selector

/-- Major 0x16 (03 R89). -/
noncomputable def decodeVmx (w : Word) : Except Reject Instr :=
  if wF w = 0#5 then rsv (decide ((wB w).extractLsb' 5 2 = 0#2)) (opt .reserved (RqRound.ofCode (((wB w).extractLsb' 0 2))) fun r => opt .reserved (HadOpt.ofCode (((wB w).extractLsb' 2 2))) fun h => .ok (.rqntE2m1 (wP w) (wD w) (wA w) ((((wB w).extractLsb' 4 1)) = 1#1) h r))
  else if wF w = 1#5 then rsv (decide ((wB w).extractLsb' 4 3 = 0#3)) (opt .reserved (RqRound.ofCode (((wB w).extractLsb' 0 2))) fun r => opt .reserved (HadOpt.ofCode (((wB w).extractLsb' 2 2))) fun h => .ok (.rqntE2m3 (wP w) (wD w) (wA w) h r))
  else if wF w = 2#5 then rsv (decide ((wB w).extractLsb' 4 3 = 0#3)) (opt .reserved (RqRound.ofCode (((wB w).extractLsb' 0 2))) fun r => opt .reserved (HadOpt.ofCode (((wB w).extractLsb' 2 2))) fun h => .ok (.rqntE3m2 (wP w) (wD w) (wA w) h r))
  else if wF w = 3#5 then rsv (decide ((wB w).extractLsb' 4 3 = 0#3)) (opt .reserved (RqRound.ofCode (((wB w).extractLsb' 0 2))) fun r => opt .reserved (HadOpt.ofCode (((wB w).extractLsb' 2 2))) fun h => .ok (.rqntE4m3 (wP w) (wD w) (wA w) h r))
  else if wF w = 4#5 then rsv (decide ((wB w).extractLsb' 4 3 = 0#3)) (opt .reserved (RqRound.ofCode (((wB w).extractLsb' 0 2))) fun r => opt .reserved (HadOpt.ofCode (((wB w).extractLsb' 2 2))) fun h => .ok (.rqntE5m2 (wP w) (wD w) (wA w) h r))
  else if wF w = 5#5 then rsv (decide ((wB w).extractLsb' 4 3 = 0#3)) (opt .reserved (RqRound.ofCode (((wB w).extractLsb' 0 2))) fun r => opt .reserved (HadOpt.ofCode (((wB w).extractLsb' 2 2))) fun h => .ok (.rqntg4 (wP w) (wD w) (wA w) h r))
  else if wF w = 6#5 then rsv (decide ((wB w).extractLsb' 4 3 = 0#3)) (opt .reserved (RqRound.ofCode (((wB w).extractLsb' 0 2))) fun r => opt .reserved (HadOpt.ofCode (((wB w).extractLsb' 2 2))) fun h => .ok (.rqntg8 (wP w) (wD w) (wA w) h r))
  else if wF w = 7#5 then rsv (decide (wB w = 0#7)) (.ok (.vebmax (wP w) (wD w) (wA w)))
  else if wF w = 8#5 then rsv (decide (wB w = 0#7)) (.ok (.vhad16 (wP w) (wD w) (wA w)))
  else if wF w = 9#5 then rsv (decide (wB w = 0#7)) (.ok (.vhad32 (wP w) (wD w) (wA w)))
  else .error .selector

/-- Major 0x17 (03 R89). -/
noncomputable def decodeVld (w : Word) : Except Reject Instr :=
  if (wF w).extractLsb' 2 3 = 0#3 then .ok (.vldB8 (wP w) (wD w) (wA w) (wB w) (AddrMode.ofCode (((wF w).extractLsb' 0 2))))
  else if (wF w).extractLsb' 2 3 = 1#3 then .ok (.vldS8 (wP w) (wD w) (wA w) (wB w) (AddrMode.ofCode (((wF w).extractLsb' 0 2))))
  else if (wF w).extractLsb' 2 3 = 2#3 then .ok (.vldB16 (wP w) (wD w) (wA w) (wB w) (AddrMode.ofCode (((wF w).extractLsb' 0 2))))
  else if (wF w).extractLsb' 2 3 = 3#3 then .ok (.vldS16 (wP w) (wD w) (wA w) (wB w) (AddrMode.ofCode (((wF w).extractLsb' 0 2))))
  else if (wF w).extractLsb' 2 3 = 4#3 then .ok (.vldW32 (wP w) (wD w) (wA w) (wB w) (AddrMode.ofCode (((wF w).extractLsb' 0 2))))
  else if (wF w).extractLsb' 2 3 = 5#3 then .ok (.vldW64 (wP w) (wD w) (wA w) (wB w) (AddrMode.ofCode (((wF w).extractLsb' 0 2))))
  else if (wF w).extractLsb' 2 3 = 6#3 then .ok (.vldW128 (wP w) (wD w) (wA w) (wB w) (AddrMode.ofCode (((wF w).extractLsb' 0 2))))
  else if (wF w).extractLsb' 2 3 = 7#3 then .ok (.vldE (wP w) (wD w) (wA w) (wB w) (AddrMode.ofCode (((wF w).extractLsb' 0 2))))
  else .error .selector

/-- Major 0x18 (03 R89). -/
noncomputable def decodeVst (w : Word) : Except Reject Instr :=
  if (wF w).extractLsb' 2 3 = 0#3 then .ok (.vstB8 (wP w) (wD w) (wA w) (wB w) (AddrMode.ofCode (((wF w).extractLsb' 0 2))))
  else if (wF w).extractLsb' 2 3 = 2#3 then .ok (.vstB16 (wP w) (wD w) (wA w) (wB w) (AddrMode.ofCode (((wF w).extractLsb' 0 2))))
  else if (wF w).extractLsb' 2 3 = 4#3 then .ok (.vstW32 (wP w) (wD w) (wA w) (wB w) (AddrMode.ofCode (((wF w).extractLsb' 0 2))))
  else if (wF w).extractLsb' 2 3 = 5#3 then .ok (.vstW64 (wP w) (wD w) (wA w) (wB w) (AddrMode.ofCode (((wF w).extractLsb' 0 2))))
  else if (wF w).extractLsb' 2 3 = 6#3 then .ok (.vstW128 (wP w) (wD w) (wA w) (wB w) (AddrMode.ofCode (((wF w).extractLsb' 0 2))))
  else if (wF w).extractLsb' 2 3 = 7#3 then .ok (.vstE (wP w) (wD w) (wA w) (wB w) (AddrMode.ofCode (((wF w).extractLsb' 0 2))))
  else .error .selector

/-- Major 0x19 (03 R89). -/
noncomputable def decodeVatom (w : Word) : Except Reject Instr :=
  if (wF w).extractLsb' 0 4 = 0#4 then rsv (decide ((wB w).extractLsb' 5 1 = 0#1)) (.ok (.vatomAdd32 (wP w) (wD w) (wA w) ((((wB w).extractLsb' 6 1)) = 1#1) (Scope.ofCode (((wB w).extractLsb' 3 2))) (AtomUse.ofCode (((wB w).extractLsb' 0 3))) ((((wF w).extractLsb' 4 1)) = 1#1)))
  else if (wF w).extractLsb' 0 4 = 1#4 then rsv (decide ((wB w).extractLsb' 5 1 = 0#1)) (.ok (.vatomAdd64 (wP w) (wD w) (wA w) ((((wB w).extractLsb' 6 1)) = 1#1) (Scope.ofCode (((wB w).extractLsb' 3 2))) (AtomUse.ofCode (((wB w).extractLsb' 0 3))) ((((wF w).extractLsb' 4 1)) = 1#1)))
  else if (wF w).extractLsb' 0 4 = 2#4 then rsv (decide ((wB w).extractLsb' 5 1 = 0#1)) (.ok (.vatomMinS32 (wP w) (wD w) (wA w) ((((wB w).extractLsb' 6 1)) = 1#1) (Scope.ofCode (((wB w).extractLsb' 3 2))) (AtomUse.ofCode (((wB w).extractLsb' 0 3))) ((((wF w).extractLsb' 4 1)) = 1#1)))
  else if (wF w).extractLsb' 0 4 = 3#4 then rsv (decide ((wB w).extractLsb' 5 1 = 0#1)) (.ok (.vatomMaxS32 (wP w) (wD w) (wA w) ((((wB w).extractLsb' 6 1)) = 1#1) (Scope.ofCode (((wB w).extractLsb' 3 2))) (AtomUse.ofCode (((wB w).extractLsb' 0 3))) ((((wF w).extractLsb' 4 1)) = 1#1)))
  else if (wF w).extractLsb' 0 4 = 4#4 then rsv (decide ((wB w).extractLsb' 5 1 = 0#1)) (.ok (.vatomAnd (wP w) (wD w) (wA w) ((((wB w).extractLsb' 6 1)) = 1#1) (Scope.ofCode (((wB w).extractLsb' 3 2))) (AtomUse.ofCode (((wB w).extractLsb' 0 3))) ((((wF w).extractLsb' 4 1)) = 1#1)))
  else if (wF w).extractLsb' 0 4 = 5#4 then rsv (decide ((wB w).extractLsb' 5 1 = 0#1)) (.ok (.vatomOr (wP w) (wD w) (wA w) ((((wB w).extractLsb' 6 1)) = 1#1) (Scope.ofCode (((wB w).extractLsb' 3 2))) (AtomUse.ofCode (((wB w).extractLsb' 0 3))) ((((wF w).extractLsb' 4 1)) = 1#1)))
  else if (wF w).extractLsb' 0 4 = 6#4 then rsv (decide ((wB w).extractLsb' 5 1 = 0#1)) (.ok (.vatomXor (wP w) (wD w) (wA w) ((((wB w).extractLsb' 6 1)) = 1#1) (Scope.ofCode (((wB w).extractLsb' 3 2))) (AtomUse.ofCode (((wB w).extractLsb' 0 3))) ((((wF w).extractLsb' 4 1)) = 1#1)))
  else if (wF w).extractLsb' 0 4 = 7#4 then rsv (decide ((wB w).extractLsb' 5 1 = 0#1)) (.ok (.vatomXch32 (wP w) (wD w) (wA w) ((((wB w).extractLsb' 6 1)) = 1#1) (Scope.ofCode (((wB w).extractLsb' 3 2))) (AtomUse.ofCode (((wB w).extractLsb' 0 3))) ((((wF w).extractLsb' 4 1)) = 1#1)))
  else if (wF w).extractLsb' 0 4 = 8#4 then rsv (decide ((wB w).extractLsb' 5 1 = 0#1)) (.ok (.vatomXch64 (wP w) (wD w) (wA w) ((((wB w).extractLsb' 6 1)) = 1#1) (Scope.ofCode (((wB w).extractLsb' 3 2))) (AtomUse.ofCode (((wB w).extractLsb' 0 3))) ((((wF w).extractLsb' 4 1)) = 1#1)))
  else if (wF w).extractLsb' 0 4 = 9#4 then rsv (decide ((wB w).extractLsb' 5 1 = 0#1)) (.ok (.vatomCas32 (wP w) (wD w) (wA w) ((((wB w).extractLsb' 6 1)) = 1#1) (Scope.ofCode (((wB w).extractLsb' 3 2))) (AtomUse.ofCode (((wB w).extractLsb' 0 3))) ((((wF w).extractLsb' 4 1)) = 1#1)))
  else if (wF w).extractLsb' 0 4 = 10#4 then rsv (decide ((wB w).extractLsb' 5 1 = 0#1)) (.ok (.vatomCas64 (wP w) (wD w) (wA w) ((((wB w).extractLsb' 6 1)) = 1#1) (Scope.ofCode (((wB w).extractLsb' 3 2))) (AtomUse.ofCode (((wB w).extractLsb' 0 3))) ((((wF w).extractLsb' 4 1)) = 1#1)))
  else if (wF w).extractLsb' 0 4 = 11#4 then rsv (decide ((wB w).extractLsb' 5 1 = 0#1)) (.ok (.vatomFadd32 (wP w) (wD w) (wA w) ((((wB w).extractLsb' 6 1)) = 1#1) (Scope.ofCode (((wB w).extractLsb' 3 2))) (AtomUse.ofCode (((wB w).extractLsb' 0 3))) ((((wF w).extractLsb' 4 1)) = 1#1)))
  else if (wF w).extractLsb' 0 4 = 12#4 then rsv (decide ((wB w).extractLsb' 5 1 = 0#1)) (.ok (.vatomFadd64 (wP w) (wD w) (wA w) ((((wB w).extractLsb' 6 1)) = 1#1) (Scope.ofCode (((wB w).extractLsb' 3 2))) (AtomUse.ofCode (((wB w).extractLsb' 0 3))) ((((wF w).extractLsb' 4 1)) = 1#1)))
  else if (wF w).extractLsb' 0 4 = 13#4 then rsv (decide ((wB w).extractLsb' 5 1 = 0#1)) (.ok (.vatomFaddo32 (wP w) (wD w) (wA w) ((((wB w).extractLsb' 6 1)) = 1#1) (Scope.ofCode (((wB w).extractLsb' 3 2))) (AtomUse.ofCode (((wB w).extractLsb' 0 3))) ((((wF w).extractLsb' 4 1)) = 1#1)))
  else if (wF w).extractLsb' 0 4 = 14#4 then rsv (decide ((wB w).extractLsb' 5 1 = 0#1)) (.ok (.vatomFaddo64 (wP w) (wD w) (wA w) ((((wB w).extractLsb' 6 1)) = 1#1) (Scope.ofCode (((wB w).extractLsb' 3 2))) (AtomUse.ofCode (((wB w).extractLsb' 0 3))) ((((wF w).extractLsb' 4 1)) = 1#1)))
  else if (wF w).extractLsb' 0 4 = 15#4 then rsv (decide ((wB w).extractLsb' 5 1 = 0#1)) (.ok (.vatomIncw (wP w) (wD w) (wA w) ((((wB w).extractLsb' 6 1)) = 1#1) (Scope.ofCode (((wB w).extractLsb' 3 2))) (AtomUse.ofCode (((wB w).extractLsb' 0 3))) ((((wF w).extractLsb' 4 1)) = 1#1)))
  else .error .selector

/-- Major 0x1A (03 R89). -/
noncomputable def decodeSmem (w : Word) : Except Reject Instr :=
  if wF3 w = 0#3 then .ok (.sld32 (wP w) (wD w) (wA w) (wImm9 w))
  else if wF3 w = 1#3 then .ok (.sld64 (wP w) (wD w) (wA w) (wImm9 w))
  else if wF3 w = 2#3 then .ok (.sld128 (wP w) (wD w) (wA w) (wImm9 w))
  else if wF3 w = 3#3 then .ok (.sst32 (wP w) (wD w) (wA w) (wImm9 w))
  else if wF3 w = 4#3 then .ok (.sst64 (wP w) (wD w) (wA w) (wImm9 w))
  else if wF3 w = 5#3 then .ok (.sst128 (wP w) (wD w) (wA w) (wImm9 w))
  else if wF3 w = 6#3 then .ok (.saadd (wP w) (wD w) (wA w) (wImm9 w))
  else if wF3 w = 7#3 then .ok (.sacas (wP w) (wD w) (wA w) (wImm9 w))
  else .error .selector

/-- Major 0x1B (03 R89). -/
noncomputable def decodeVsync (w : Word) : Except Reject Instr :=
  if wF w = 0#5 then .ok (.acp4 (wP w) (wD w) (wA w) (wB w))
  else if wF w = 1#5 then .ok (.acp8 (wP w) (wD w) (wA w) (wB w))
  else if wF w = 2#5 then .ok (.acp16 (wP w) (wD w) (wA w) (wB w))
  else if wF w = 3#5 then .ok (.acps4 (wP w) (wD w) (wA w) (wB w))
  else if wF w = 4#5 then .ok (.acps8 (wP w) (wD w) (wA w) (wB w))
  else if wF w = 5#5 then .ok (.acps16 (wP w) (wD w) (wA w) (wB w))
  else if wF w = 6#5 then rsv (decide (wD w = 0#7)) (.ok (.boinit (wP w) (wA w) (wB w)))
  else if wF w = 7#5 then rsv (decide (wB w = 0#7)) (.ok (.boarr (wP w) (wD w) (wA w)))
  else if wF w = 8#5 then rsv (decide (wD w = 0#7)) (.ok (.boexp (wP w) (wA w) (wB w)))
  else if wF w = 9#5 then .ok (.bowait (wP w) (wD w) (wA w) (wB w))
  else if wF w = 10#5 then rsv (decide (wB w = 0#7)) (.ok (.botest (wP w) (wD w) (wA w)))
  else if wF w = 11#5 then .ok (.waitaEq (wP w) (wD w) (wA w) (wB w))
  else if wF w = 12#5 then .ok (.waitaNe (wP w) (wD w) (wA w) (wB w))
  else if wF w = 13#5 then rsv (decide (wD w = 0#7) && decide (wA w = 0#7) && decide ((wB w).extractLsb' 2 5 = 0#5)) (.ok (.fenceAcq (wP w) (Scope.ofCode (((wB w).extractLsb' 0 2)))))
  else if wF w = 14#5 then rsv (decide (wD w = 0#7) && decide (wA w = 0#7) && decide ((wB w).extractLsb' 2 5 = 0#5)) (.ok (.fenceRel (wP w) (Scope.ofCode (((wB w).extractLsb' 0 2)))))
  else if wF w = 15#5 then rsv (decide (wD w = 0#7) && decide (wA w = 0#7) && decide ((wB w).extractLsb' 2 5 = 0#5)) (.ok (.fenceFull (wP w) (Scope.ofCode (((wB w).extractLsb' 0 2)))))
  else if wF w = 16#5 then rsv (decide (wD w = 0#7) && decide (wB w = 0#7)) (.ok (.lempty (wP w) (wA w)))
  else if wF w = 17#5 then rsv (decide (wD w = 0#7) && decide (wB w = 0#7)) (.ok (.lfill (wP w) (wA w)))
  else if wF w = 18#5 then rsv (decide (wB w = 0#7)) (.ok (.ltest (wP w) (wD w) (wA w)))
  else if wF w = 19#5 then .ok (.lwait (wP w) (wD w) (wA w) (wB w))
  else .error .selector

/-- Major 0x1C (03 R89). -/
noncomputable def decodeTens (w : Word) : Except Reject Instr :=
  if wF w = 0#5 then .ok (.ldt4 (wP w) (wD w) (wA w) (wB w))
  else if wF w = 1#5 then .ok (.ldt6 (wP w) (wD w) (wA w) (wB w))
  else if wF w = 2#5 then .ok (.ldt8 (wP w) (wD w) (wA w) (wB w))
  else if wF w = 3#5 then .ok (.ldt16 (wP w) (wD w) (wA w) (wB w))
  else if wF w = 4#5 then .ok (.ldt32 (wP w) (wD w) (wA w) (wB w))
  else if wF w = 5#5 then .ok (.tcpy (wP w) (wD w) (wA w) (wB w))
  else if wF w = 6#5 then .ok (.tcpys (wP w) (wD w) (wA w) (wB w))
  else if wF w = 7#5 then rsv (decide (wB w = 0#7)) (.ok (.tcpyv (wP w) (wD w) (wA w)))
  else if wF w = 8#5 then .ok (.shset (wP w) (wD w) (wA w) (wB w))
  else if wF w = 9#5 then rsv (decide (wD w = 0#7) && decide (wB w = 0#7)) (.ok (.shdrop (wP w) (wA w)))
  else if wF w = 10#5 then .ok (.shqry (wP w) (wD w) (wA w) (wB w))
  else .error .selector

/-- Major 0x1D (03 R89). -/
noncomputable def decodeMat (w : Word) : Except Reject Instr :=
  if wF w = 0#5 then rsv (decide (wD w = 0#7) && decide (wA w = 0#7) && decide (wB w = 0#7)) (.ok (.macq (wP w)))
  else if wF w = 1#5 then rsv (decide (wD w = 0#7) && decide (wA w = 0#7) && decide (wB w = 0#7)) (.ok (.mrel (wP w)))
  else if wF w = 2#5 then rsv (decide (wD w = 0#7) && decide (wB w = 0#7)) (.ok (.mmode (wP w) (wA w)))
  else if wF w = 3#5 then rsv (decide ((wD w).extractLsb' 3 2 = 0#2)) (.ok (.mma (wP w) ((((wD w).extractLsb' 6 1)) = 1#1) ((((wD w).extractLsb' 5 1)) = 1#1) (((wD w).extractLsb' 0 3)) (wA w) (wB w)))
  else if wF w = 4#5 then rsv (decide ((wD w).extractLsb' 3 2 = 0#2)) (.ok (.mloop (wP w) ((((wD w).extractLsb' 6 1)) = 1#1) ((((wD w).extractLsb' 5 1)) = 1#1) (((wD w).extractLsb' 0 3)) (wA w) (wB w)))
  else if wF w = 5#5 then rsv (decide ((wA w).extractLsb' 4 3 = 0#3)) (.ok (.macc (wP w) (wD w) ((((wA w).extractLsb' 3 1)) = 1#1) (((wA w).extractLsb' 0 3)) (wB w)))
  else if wF w = 6#5 then rsv (decide ((wD w).extractLsb' 4 3 = 0#3)) (.ok (.maccw (wP w) ((((wD w).extractLsb' 3 1)) = 1#1) (((wD w).extractLsb' 0 3)) (wA w) (wB w)))
  else if wF w = 7#5 then rsv (decide ((wD w).extractLsb' 3 4 = 0#4) && decide (wA w = 0#7) && decide (wB w = 0#7)) (.ok (.mzero (wP w) (((wD w).extractLsb' 0 3))))
  else if wF w = 8#5 then rsv (decide (wA w = 0#7) && decide (wB w = 0#7)) (.ok (.mqry (wP w) (wD w)))
  else if wF w = 9#5 then rsv (decide (wD w = 0#7) && decide (wA w = 0#7) && decide (wB w = 0#7)) (.ok (.mwait (wP w)))
  else .error .selector

/-- Major 0x1E (03 R89). -/
noncomputable def decodeNet (w : Word) : Except Reject Instr :=
  if wF w = 0#5 then rsv (decide (wD w = 0#7)) (.ok (.gpost (wP w) (wA w) (wB w)))
  else if wF w = 1#5 then rsv (decide (wB w = 0#7)) (.ok (.gcancel (wP w) (wD w) (wA w)))
  else if wF w = 2#5 then rsv (decide (wD w = 0#7)) (.ok (.gadd (wP w) (wA w) (wB w)))
  else if wF w = 3#5 then rsv (decide (wB w = 0#7)) (.ok (.grd (wP w) (wD w) (wA w)))
  else if wF w = 4#5 then rsv (decide (wD w = 0#7)) (.ok (.gset (wP w) (wA w) (wB w)))
  else if wF w = 5#5 then rsv (decide (wD w = 0#7) && decide (wB w = 0#7)) (.ok (.rput (wP w) (wA w)))
  else if wF w = 6#5 then rsv (decide (wD w = 0#7) && decide (wB w = 0#7)) (.ok (.rget (wP w) (wA w)))
  else if wF w = 7#5 then rsv (decide (wD w = 0#7)) (.ok (.rflag (wP w) (wA w) (wB w)))
  else if wF w = 8#5 then rsv (decide (wB w = 0#7)) (.ok (.publish (wP w) (wD w) (wA w)))
  else if wF w = 9#5 then rsv (decide (wB w = 0#7)) (.ok (.pubq (wP w) (wD w) (wA w)))
  else if wF w = 10#5 then rsv (decide (wD w = 0#7) && decide (wB w = 0#7)) (.ok (.tgath (wP w) (wA w)))
  else if wF w = 11#5 then rsv (decide (wD w = 0#7) && decide (wB w = 0#7)) (.ok (.tred (wP w) (wA w)))
  else if wF w = 12#5 then rsv (decide (wD w = 0#7) && decide (wB w = 0#7)) (.ok (.tcvt (wP w) (wA w)))
  else if wF w = 13#5 then rsv (decide (wD w = 0#7) && decide (wB w = 0#7)) (.ok (.stash (wP w) (wA w)))
  else if wF w = 14#5 then rsv (decide (wD w = 0#7) && decide (wB w = 0#7)) (.ok (.restore (wP w) (wA w)))
  else .error .selector

/-- Decoding: checks 1 and 2 of 03 R91, in that order; total on every word. -/
noncomputable def decode (w : Word) : Except Reject Instr :=
  if wMajor w = 0#5 then decodeSys w
  else if wMajor w = 1#5 then decodeSalu w
  else if wMajor w = 2#5 then decodeSalui w
  else if wMajor w = 3#5 then decodeSli w
  else if wMajor w = 4#5 then decodeShi w
  else if wMajor w = 5#5 then decodeBr w
  else if wMajor w = 6#5 then decodeBrs w
  else if wMajor w = 7#5 then decodeJmp w
  else if wMajor w = 8#5 then decodeMbr w
  else if wMajor w = 9#5 then decodeWctl w
  else if wMajor w = 10#5 then decodeVint w
  else if wMajor w = 11#5 then decodeVints w
  else if wMajor w = 12#5 then decodeVf32 w
  else if wMajor w = 13#5 then decodeVf64 w
  else if wMajor w = 14#5 then decodeVf16 w
  else if wMajor w = 15#5 then decodeVbf16 w
  else if wMajor w = 16#5 then decodeVfmisc w
  else if wMajor w = 17#5 then decodeVcvt w
  else if wMajor w = 18#5 then decodeVxc w
  else if wMajor w = 19#5 then decodeVcmp w
  else if wMajor w = 20#5 then decodeVlane w
  else if wMajor w = 21#5 then decodeVpack w
  else if wMajor w = 22#5 then decodeVmx w
  else if wMajor w = 23#5 then decodeVld w
  else if wMajor w = 24#5 then decodeVst w
  else if wMajor w = 25#5 then decodeVatom w
  else if wMajor w = 26#5 then decodeSmem w
  else if wMajor w = 27#5 then decodeVsync w
  else if wMajor w = 28#5 then decodeTens w
  else if wMajor w = 29#5 then decodeMat w
  else if wMajor w = 30#5 then decodeNet w
  else .error .selector

/-- The word of an instruction (03 R83 to R90); a row without a word has none. -/
def encode : Instr → Option Word
  | .nop p => some (wordA p 0#5 0#7 0#7 0#7 0#5)
  | .trap p c => some (wordA p 0#5 0#7 (c.extractLsb' 7 7) (c.extractLsb' 0 7) 1#5)
  | .eret p a => some (wordA p 0#5 0#7 a 0#7 2#5)
  | .bkpt p => some (wordA p 0#5 0#7 0#7 0#7 3#5)
  | .csrr p d i => some (wordA p 0#5 d (i.extractLsb' 7 7) (i.extractLsb' 0 7) 4#5)
  | .csrw p d i => some (wordA p 0#5 d (i.extractLsb' 7 7) (i.extractLsb' 0 7) 5#5)
  | .csrs p d i => some (wordA p 0#5 d (i.extractLsb' 7 7) (i.extractLsb' 0 7) 6#5)
  | .csrc p d i => some (wordA p 0#5 d (i.extractLsb' 7 7) (i.extractLsb' 0 7) 7#5)
  | .sleep p a => some (wordA p 0#5 0#7 a 0#7 8#5)
  | .evt p a b => some (wordA p 0#5 0#7 a b 9#5)
  | .spawn p a => some (wordA p 0#5 0#7 a 0#7 10#5)
  | .join p a b => some (wordA p 0#5 0#7 a b 11#5)
  | .cancel p a b => some (wordA p 0#5 0#7 a b 12#5)
  | .rinkq p d a b => some (wordA p 0#5 d a b 13#5)
  | .vdie p d a => some (wordA p 0#5 d a 0#7 14#5)
  | .hops p d a b => some (wordA p 0#5 d a b 15#5)
  | .sadd p d a b => some (wordA p 1#5 d a b 0#5)
  | .ssub p d a b => some (wordA p 1#5 d a b 1#5)
  | .smul p d a b => some (wordA p 1#5 d a b 2#5)
  | .smulhs p d a b => some (wordA p 1#5 d a b 3#5)
  | .smulhn p d a b => some (wordA p 1#5 d a b 4#5)
  | .sadd64 p d a b => some (wordA p 1#5 d a b 5#5)
  | .ssub64 p d a b => some (wordA p 1#5 d a b 6#5)
  | .sand p d a b => some (wordA p 1#5 d a b 7#5)
  | .sor p d a b => some (wordA p 1#5 d a b 8#5)
  | .sxor p d a b => some (wordA p 1#5 d a b 9#5)
  | .sshl p d a b => some (wordA p 1#5 d a b 10#5)
  | .sshr p d a b => some (wordA p 1#5 d a b 11#5)
  | .ssra p d a b => some (wordA p 1#5 d a b 12#5)
  | .smins p d a b => some (wordA p 1#5 d a b 13#5)
  | .smaxs p d a b => some (wordA p 1#5 d a b 14#5)
  | .sslts p d a b => some (wordA p 1#5 d a b 15#5)
  | .ssltn p d a b => some (wordA p 1#5 d a b 16#5)
  | .sseq p d a b => some (wordA p 1#5 d a b 17#5)
  | .ssne p d a b => some (wordA p 1#5 d a b 18#5)
  | .sclz p d a => some (wordA p 1#5 d a 0#7 19#5)
  | .spopc p d a => some (wordA p 1#5 d a 0#7 20#5)
  | .sbfe p d a b => some (wordA p 1#5 d a b 21#5)
  | .sbins p d a b => some (wordA p 1#5 d a b 22#5)
  | .sdivn p d a b => some (wordA p 1#5 d a b 23#5)
  | .sremn p d a b => some (wordA p 1#5 d a b 24#5)
  | .ssel p d a b => some (wordA p 1#5 d a b 25#5)
  | .saddi p d a i => some (wordI p 2#5 d a 0#3 i)
  | .sandi p d a i => some (wordI p 2#5 d a 1#3 i)
  | .sori p d a i => some (wordI p 2#5 d a 2#3 i)
  | .sxori p d a i => some (wordI p 2#5 d a 3#3 i)
  | .sshli p d a i => some (wordI p 2#5 d a 4#3 (0#4 ++ i))
  | .sshri p d a i => some (wordI p 2#5 d a 5#3 (0#4 ++ i))
  | .ssrai p d a i => some (wordI p 2#5 d a 6#3 (0#4 ++ i))
  | .sslti p d a i => some (wordI p 2#5 d a 7#3 i)
  | .sli p d i => some (wordL p 3#5 d i)
  | .shi p d i => some (wordL p 4#5 d i)
  | .bra p o => some (wordB p 5#5 0#4 0#4 o)
  | .brany p k o => some (wordB p 5#5 1#4 k o)
  | .brall p k o => some (wordB p 5#5 2#4 k o)
  | .brnone p k o => some (wordB p 5#5 3#4 k o)
  | .call p o => some (wordB p 5#5 4#4 0#4 o)
  | .beqz p s o => some (wordS p 6#5 s 0#3 o)
  | .bnez p s o => some (wordS p 6#5 s 1#3 o)
  | .bltz p s o => some (wordS p 6#5 s 2#3 o)
  | .bgez p s o => some (wordS p 6#5 s 3#3 o)
  | .bgtz p s o => some (wordS p 6#5 s 4#3 o)
  | .blez p s o => some (wordS p 6#5 s 5#3 o)
  | .jr p a => some (wordA p 7#5 0#7 a 0#7 0#5)
  | .jalr p d a => some (wordA p 7#5 d a 0#7 1#5)
  | .mbr p t m n o => some (wordW p 8#5 t m n o)
  | .wfuse p b => some (wordA p 9#5 0#7 0#7 b 0#5)
  | .wsplit p b => some (wordA p 9#5 0#7 0#7 b 1#5)
  | .wbase p n => some (wordA p 9#5 0#7 0#7 (0#2 ++ n) 2#5)
  | .yield p => some (wordA p 9#5 0#7 0#7 0#7 3#5)
  | .wexit p => some (wordA p 9#5 0#7 0#7 0#7 4#5)
  | .bars p a b => some (wordA p 9#5 0#7 a b 5#5)
  | .bara p a b => some (wordA p 9#5 0#7 a b 6#5)
  | .barw p d a b => some (wordA p 9#5 d a b 7#5)
  | .cbara p a => some (wordA p 9#5 0#7 a 0#7 8#5)
  | .cbarw p d a => some (wordA p 9#5 d a 0#7 9#5)
  | .bjoin p => some (wordA p 9#5 0#7 0#7 0#7 10#5)
  | .dqpush p a => some (wordA p 9#5 0#7 a 0#7 11#5)
  | .dqpop p d => some (wordA p 9#5 d 0#7 0#7 12#5)
  | .vadd p d a b => some (wordA p 10#5 d a b 0#5)
  | .vsub p d a b => some (wordA p 10#5 d a b 1#5)
  | .vmul p d a b => some (wordA p 10#5 d a b 2#5)
  | .vmulhs p d a b => some (wordA p 10#5 d a b 3#5)
  | .vmad p d a b => some (wordA p 10#5 d a b 4#5)
  | .vadd64 p d a b => some (wordA p 10#5 d a b 5#5)
  | .vsub64 p d a b => some (wordA p 10#5 d a b 6#5)
  | .vand p d a b => some (wordA p 10#5 d a b 7#5)
  | .vor p d a b => some (wordA p 10#5 d a b 8#5)
  | .vxor p d a b => some (wordA p 10#5 d a b 9#5)
  | .vandn p d a b => some (wordA p 10#5 d a b 10#5)
  | .vshl p d a b => some (wordA p 10#5 d a b 11#5)
  | .vshr p d a b => some (wordA p 10#5 d a b 12#5)
  | .vsra p d a b => some (wordA p 10#5 d a b 13#5)
  | .vmins p d a b => some (wordA p 10#5 d a b 14#5)
  | .vmaxs p d a b => some (wordA p 10#5 d a b 15#5)
  | .vminn p d a b => some (wordA p 10#5 d a b 16#5)
  | .vmaxn p d a b => some (wordA p 10#5 d a b 17#5)
  | .vaddss p d a b => some (wordA p 10#5 d a b 18#5)
  | .vsubss p d a b => some (wordA p 10#5 d a b 19#5)
  | .vclz p d a => some (wordA p 10#5 d a 0#7 20#5)
  | .vpopc p d a => some (wordA p 10#5 d a 0#7 21#5)
  | .vbfe p d a b => some (wordA p 10#5 d a b 22#5)
  | .vbins p d a b => some (wordA p 10#5 d a b 23#5)
  | .vmov p d a => some (wordA p 10#5 d a 0#7 24#5)
  | .vlaneid p d => some (wordA p 10#5 d 0#7 0#7 25#5)
  | .vaddScalar p d a b => some (wordA p 11#5 d a b 0#5)
  | .vsubScalar p d a b => some (wordA p 11#5 d a b 1#5)
  | .vmulScalar p d a b => some (wordA p 11#5 d a b 2#5)
  | .vmulhsScalar p d a b => some (wordA p 11#5 d a b 3#5)
  | .vmadScalar p d a b => some (wordA p 11#5 d a b 4#5)
  | .vadd64Scalar p d a b => some (wordA p 11#5 d a b 5#5)
  | .vsub64Scalar p d a b => some (wordA p 11#5 d a b 6#5)
  | .vandScalar p d a b => some (wordA p 11#5 d a b 7#5)
  | .vorScalar p d a b => some (wordA p 11#5 d a b 8#5)
  | .vxorScalar p d a b => some (wordA p 11#5 d a b 9#5)
  | .vandnScalar p d a b => some (wordA p 11#5 d a b 10#5)
  | .vshlScalar p d a b => some (wordA p 11#5 d a b 11#5)
  | .vshrScalar p d a b => some (wordA p 11#5 d a b 12#5)
  | .vsraScalar p d a b => some (wordA p 11#5 d a b 13#5)
  | .vminsScalar p d a b => some (wordA p 11#5 d a b 14#5)
  | .vmaxsScalar p d a b => some (wordA p 11#5 d a b 15#5)
  | .vminnScalar p d a b => some (wordA p 11#5 d a b 16#5)
  | .vmaxnScalar p d a b => some (wordA p 11#5 d a b 17#5)
  | .vaddssScalar p d a b => some (wordA p 11#5 d a b 18#5)
  | .vsubssScalar p d a b => some (wordA p 11#5 d a b 19#5)
  | .vbfeScalar p d a b => some (wordA p 11#5 d a b 22#5)
  | .vbinsScalar p d a b => some (wordA p 11#5 d a b 23#5)
  | .vmovScalar p d b => some (wordA p 11#5 d 0#7 b 24#5)
  | .vfaddF32 p d a b r => some (wordA p 12#5 d a b (0#2 ++ r.code))
  | .vfsubF32 p d a b r => some (wordA p 12#5 d a b (1#2 ++ r.code))
  | .vfmulF32 p d a b r => some (wordA p 12#5 d a b (2#2 ++ r.code))
  | .vffmaF32 p d a b r => some (wordA p 12#5 d a b (3#2 ++ r.code))
  | .vfaddF64 p d a b r => some (wordA p 13#5 d a b (0#2 ++ r.code))
  | .vfsubF64 p d a b r => some (wordA p 13#5 d a b (1#2 ++ r.code))
  | .vfmulF64 p d a b r => some (wordA p 13#5 d a b (2#2 ++ r.code))
  | .vffmaF64 p d a b r => some (wordA p 13#5 d a b (3#2 ++ r.code))
  | .vfaddF16 p d a b r => some (wordA p 14#5 d a b (0#2 ++ r.code))
  | .vfsubF16 p d a b r => some (wordA p 14#5 d a b (1#2 ++ r.code))
  | .vfmulF16 p d a b r => some (wordA p 14#5 d a b (2#2 ++ r.code))
  | .vffmaF16 p d a b r => some (wordA p 14#5 d a b (3#2 ++ r.code))
  | .vfaddBf16 p d a b r => some (wordA p 15#5 d a b (0#2 ++ r.code))
  | .vfsubBf16 p d a b r => some (wordA p 15#5 d a b (1#2 ++ r.code))
  | .vfmulBf16 p d a b r => some (wordA p 15#5 d a b (2#2 ++ r.code))
  | .vffmaBf16 p d a b r => some (wordA p 15#5 d a b (3#2 ++ r.code))
  | .vfminF32 p d a b => some (wordA p 16#5 d a b 0#5)
  | .vfmaxF32 p d a b => some (wordA p 16#5 d a b 1#5)
  | .vfminF64 p d a b => some (wordA p 16#5 d a b 2#5)
  | .vfmaxF64 p d a b => some (wordA p 16#5 d a b 3#5)
  | .vfabsF32 p d a => some (wordA p 16#5 d a 0#7 4#5)
  | .vfnegF32 p d a => some (wordA p 16#5 d a 0#7 5#5)
  | .vfabsF64 p d a => some (wordA p 16#5 d a 0#7 6#5)
  | .vfnegF64 p d a => some (wordA p 16#5 d a 0#7 7#5)
  | .vfclassF32 p d a => some (wordA p 16#5 d a 0#7 8#5)
  | .vfclassF64 p d a => some (wordA p 16#5 d a 0#7 9#5)
  | .vfsclF32 p d a b => some (wordA p 16#5 d a b 10#5)
  | .vfsclF64 p d a b => some (wordA p 16#5 d a b 11#5)
  | .vfgexF32 p d a => some (wordA p 16#5 d a 0#7 12#5)
  | .vfgexF64 p d a => some (wordA p 16#5 d a 0#7 13#5)
  | .vcvtF64F32 p d a => some (wordA p 17#5 d a 0#7 0#5)
  | .vcvtF32F64 p d a s r => some (wordA p 17#5 d a (bit s ++ 0#3 ++ r.code) 1#5)
  | .vcvtF16F32 p d a s r => some (wordA p 17#5 d a (bit s ++ 0#3 ++ r.code) 2#5)
  | .vcvtF32F16 p d a => some (wordA p 17#5 d a 0#7 3#5)
  | .vcvtBf16F32 p d a s r => some (wordA p 17#5 d a (bit s ++ 0#3 ++ r.code) 4#5)
  | .vcvtF32Bf16 p d a => some (wordA p 17#5 d a 0#7 5#5)
  | .vcvtS32F32 p d a s r => some (wordA p 17#5 d a (bit s ++ 0#3 ++ r.code) 6#5)
  | .vcvtF32S32 p d a s r => some (wordA p 17#5 d a (bit s ++ 0#3 ++ r.code) 7#5)
  | .vcvtN32F32 p d a s r => some (wordA p 17#5 d a (bit s ++ 0#3 ++ r.code) 8#5)
  | .vcvtF32N32 p d a s r => some (wordA p 17#5 d a (bit s ++ 0#3 ++ r.code) 9#5)
  | .vcvtS32F64 p d a s r => some (wordA p 17#5 d a (bit s ++ 0#3 ++ r.code) 10#5)
  | .vcvtF64S32 p d a => some (wordA p 17#5 d a 0#7 11#5)
  | .vcvtS64F64 p d a s r => some (wordA p 17#5 d a (bit s ++ 0#3 ++ r.code) 12#5)
  | .vcvtF64S64 p d a s r => some (wordA p 17#5 d a (bit s ++ 0#3 ++ r.code) 13#5)
  | .vcvtE4m3F32 p d a s r => some (wordA p 17#5 d a (bit s ++ 0#3 ++ r.code) 14#5)
  | .vcvtF32E4m3 p d a => some (wordA p 17#5 d a 0#7 15#5)
  | .vcvtE5m2F32 p d a s r => some (wordA p 17#5 d a (bit s ++ 0#3 ++ r.code) 16#5)
  | .vcvtF32E5m2 p d a => some (wordA p 17#5 d a 0#7 17#5)
  | .vcvtF32E2m1 p d a => some (wordA p 17#5 d a 0#7 18#5)
  | .vcvtF32E2m3 p d a => some (wordA p 17#5 d a 0#7 19#5)
  | .vcvtF32E3m2 p d a => some (wordA p 17#5 d a 0#7 20#5)
  | .vrcpF32 p d a => some (wordA p 18#5 d a 0#7 0#5)
  | .vrsqF32 p d a => some (wordA p 18#5 d a 0#7 1#5)
  | .vsqrtF32 p d a r => some (wordA p 18#5 d a (0#4 ++ r.code) 2#5)
  | .vexp2F32 p d a => some (wordA p 18#5 d a 0#7 3#5)
  | .vlog2F32 p d a => some (wordA p 18#5 d a 0#7 4#5)
  | .vsinF32 p d a => some (wordA p 18#5 d a 0#7 5#5)
  | .vcosF32 p d a => some (wordA p 18#5 d a 0#7 6#5)
  | .vtanhF32 p d a => some (wordA p 18#5 d a 0#7 7#5)
  | .vdivF32 p d a r => some (wordA p 18#5 d a (0#4 ++ r.code) 8#5)
  | .vrcpF64 p d a => some (wordA p 18#5 d a 0#7 9#5)
  | .vrsqF64 p d a => some (wordA p 18#5 d a 0#7 10#5)
  | .vsqrtF64 p d a r => some (wordA p 18#5 d a (0#4 ++ r.code) 11#5)
  | .vexp2F64 p d a => some (wordA p 18#5 d a 0#7 12#5)
  | .vlog2F64 p d a => some (wordA p 18#5 d a 0#7 13#5)
  | .vsinF64 p d a => some (wordA p 18#5 d a 0#7 14#5)
  | .vcosF64 p d a => some (wordA p 18#5 d a 0#7 15#5)
  | .vdivF64 p d a r => some (wordA p 18#5 d a (0#4 ++ r.code) 16#5)
  | .vcmpF32 p d a b c => some (wordA p 19#5 d a b (0#2 ++ c.code))
  | .vcmpF64 p d a b c => some (wordA p 19#5 d a b (1#2 ++ c.code))
  | .vcmpS32 p d a b c => some (wordA p 19#5 d a b (2#2 ++ c.code))
  | .vcmpN32 p d a b c => some (wordA p 19#5 d a b (3#2 ++ c.code))
  | .vshfl p d a b => some (wordA p 20#5 d a b 0#5)
  | .vshflx p d a k => some (wordA p 20#5 d a k 1#5)
  | .vshflu p d a k => some (wordA p 20#5 d a k 2#5)
  | .vshfld p d a k => some (wordA p 20#5 d a k 3#5)
  | .vbcst p d a b => some (wordA p 20#5 d a b 4#5)
  | .vredaddS32 p d a => some (wordA p 20#5 d a 0#7 5#5)
  | .vredaddF32 p d a => some (wordA p 20#5 d a 0#7 6#5)
  | .vredmaxF32 p d a => some (wordA p 20#5 d a 0#7 7#5)
  | .vredminF32 p d a => some (wordA p 20#5 d a 0#7 8#5)
  | .vscanS32 p d a => some (wordA p 20#5 d a 0#7 9#5)
  | .vscanF32 p d a => some (wordA p 20#5 d a 0#7 10#5)
  | .vselm p d a b => some (wordA p 20#5 d a b 11#5)
  | .mand p d a b => some (wordA p 20#5 d a b 12#5)
  | .mor p d a b => some (wordA p 20#5 d a b 13#5)
  | .mxor p d a b => some (wordA p 20#5 d a b 14#5)
  | .mandn p d a b => some (wordA p 20#5 d a b 15#5)
  | .mnot p d a => some (wordA p 20#5 d a 0#7 16#5)
  | .mmov p d a => some (wordA p 20#5 d a 0#7 17#5)
  | .mpopc p d a => some (wordA p 20#5 d a 0#7 18#5)
  | .mfirst p d a => some (wordA p 20#5 d a 0#7 19#5)
  | .mtos p d a => some (wordA p 20#5 d a 0#7 20#5)
  | .stom p d a => some (wordA p 20#5 d a 0#7 21#5)
  | .vdp4s p d a b => some (wordA p 21#5 d a b 0#5)
  | .vdp4z p d a b => some (wordA p 21#5 d a b 1#5)
  | .vdp8s p d a b => some (wordA p 21#5 d a b 2#5)
  | .vdp8z p d a b => some (wordA p 21#5 d a b 3#5)
  | .vdpf4 p d a b => some (wordA p 21#5 d a b 4#5)
  | .vdpf8a p d a b => some (wordA p 21#5 d a b 5#5)
  | .vdpf8b p d a b => some (wordA p 21#5 d a b 6#5)
  | .vunpk4l p d a => some (wordA p 21#5 d a 0#7 7#5)
  | .vunpk4h p d a => some (wordA p 21#5 d a 0#7 8#5)
  | .vunpk6 p d a => some (wordA p 21#5 d a 0#7 9#5)
  | .veset p d b => some (wordA p 21#5 d 0#7 b 10#5)
  | .veget p d a => some (wordA p 21#5 d a 0#7 11#5)
  | .vemov p d a => some (wordA p 21#5 d a 0#7 12#5)
  | .veadd p d a b => some (wordA p 21#5 d a b 13#5)
  | .rqntE2m1 p d a c h r => some (wordA p 22#5 d a (0#2 ++ bit c ++ h.code ++ r.code) 0#5)
  | .rqntE2m3 p d a h r => some (wordA p 22#5 d a (0#3 ++ h.code ++ r.code) 1#5)
  | .rqntE3m2 p d a h r => some (wordA p 22#5 d a (0#3 ++ h.code ++ r.code) 2#5)
  | .rqntE4m3 p d a h r => some (wordA p 22#5 d a (0#3 ++ h.code ++ r.code) 3#5)
  | .rqntE5m2 p d a h r => some (wordA p 22#5 d a (0#3 ++ h.code ++ r.code) 4#5)
  | .rqntg4 p d a h r => some (wordA p 22#5 d a (0#3 ++ h.code ++ r.code) 5#5)
  | .rqntg8 p d a h r => some (wordA p 22#5 d a (0#3 ++ h.code ++ r.code) 6#5)
  | .vebmax p d a => some (wordA p 22#5 d a 0#7 7#5)
  | .vhad16 p d a => some (wordA p 22#5 d a 0#7 8#5)
  | .vhad32 p d a => some (wordA p 22#5 d a 0#7 9#5)
  | .vldB8 p d a b m => some (wordA p 23#5 d a b (0#3 ++ m.code))
  | .vldS8 p d a b m => some (wordA p 23#5 d a b (1#3 ++ m.code))
  | .vldB16 p d a b m => some (wordA p 23#5 d a b (2#3 ++ m.code))
  | .vldS16 p d a b m => some (wordA p 23#5 d a b (3#3 ++ m.code))
  | .vldW32 p d a b m => some (wordA p 23#5 d a b (4#3 ++ m.code))
  | .vldW64 p d a b m => some (wordA p 23#5 d a b (5#3 ++ m.code))
  | .vldW128 p d a b m => some (wordA p 23#5 d a b (6#3 ++ m.code))
  | .vldE p d a b m => some (wordA p 23#5 d a b (7#3 ++ m.code))
  | .vstB8 p d a b m => some (wordA p 24#5 d a b (0#3 ++ m.code))
  | .vstB16 p d a b m => some (wordA p 24#5 d a b (2#3 ++ m.code))
  | .vstW32 p d a b m => some (wordA p 24#5 d a b (4#3 ++ m.code))
  | .vstW64 p d a b m => some (wordA p 24#5 d a b (5#3 ++ m.code))
  | .vstW128 p d a b m => some (wordA p 24#5 d a b (6#3 ++ m.code))
  | .vstE p d a b m => some (wordA p 24#5 d a b (7#3 ++ m.code))
  | .vatomAdd32 p d a n s u x => some (wordA p 25#5 d a (bit n ++ 0#1 ++ s.code ++ u.code) (bit x ++ 0#4))
  | .vatomAdd64 p d a n s u x => some (wordA p 25#5 d a (bit n ++ 0#1 ++ s.code ++ u.code) (bit x ++ 1#4))
  | .vatomMinS32 p d a n s u x => some (wordA p 25#5 d a (bit n ++ 0#1 ++ s.code ++ u.code) (bit x ++ 2#4))
  | .vatomMaxS32 p d a n s u x => some (wordA p 25#5 d a (bit n ++ 0#1 ++ s.code ++ u.code) (bit x ++ 3#4))
  | .vatomAnd p d a n s u x => some (wordA p 25#5 d a (bit n ++ 0#1 ++ s.code ++ u.code) (bit x ++ 4#4))
  | .vatomOr p d a n s u x => some (wordA p 25#5 d a (bit n ++ 0#1 ++ s.code ++ u.code) (bit x ++ 5#4))
  | .vatomXor p d a n s u x => some (wordA p 25#5 d a (bit n ++ 0#1 ++ s.code ++ u.code) (bit x ++ 6#4))
  | .vatomXch32 p d a n s u x => some (wordA p 25#5 d a (bit n ++ 0#1 ++ s.code ++ u.code) (bit x ++ 7#4))
  | .vatomXch64 p d a n s u x => some (wordA p 25#5 d a (bit n ++ 0#1 ++ s.code ++ u.code) (bit x ++ 8#4))
  | .vatomCas32 p d a n s u x => some (wordA p 25#5 d a (bit n ++ 0#1 ++ s.code ++ u.code) (bit x ++ 9#4))
  | .vatomCas64 p d a n s u x => some (wordA p 25#5 d a (bit n ++ 0#1 ++ s.code ++ u.code) (bit x ++ 10#4))
  | .vatomFadd32 p d a n s u x => some (wordA p 25#5 d a (bit n ++ 0#1 ++ s.code ++ u.code) (bit x ++ 11#4))
  | .vatomFadd64 p d a n s u x => some (wordA p 25#5 d a (bit n ++ 0#1 ++ s.code ++ u.code) (bit x ++ 12#4))
  | .vatomFaddo32 p d a n s u x => some (wordA p 25#5 d a (bit n ++ 0#1 ++ s.code ++ u.code) (bit x ++ 13#4))
  | .vatomFaddo64 p d a n s u x => some (wordA p 25#5 d a (bit n ++ 0#1 ++ s.code ++ u.code) (bit x ++ 14#4))
  | .vatomIncw p d a n s u x => some (wordA p 25#5 d a (bit n ++ 0#1 ++ s.code ++ u.code) (bit x ++ 15#4))
  | .sld32 p d a i => some (wordI p 26#5 d a 0#3 i)
  | .sld64 p d a i => some (wordI p 26#5 d a 1#3 i)
  | .sld128 p d a i => some (wordI p 26#5 d a 2#3 i)
  | .sst32 p d a i => some (wordI p 26#5 d a 3#3 i)
  | .sst64 p d a i => some (wordI p 26#5 d a 4#3 i)
  | .sst128 p d a i => some (wordI p 26#5 d a 5#3 i)
  | .saadd p d a i => some (wordI p 26#5 d a 6#3 i)
  | .sacas p d a i => some (wordI p 26#5 d a 7#3 i)
  | .acp4 p d a b => some (wordA p 27#5 d a b 0#5)
  | .acp8 p d a b => some (wordA p 27#5 d a b 1#5)
  | .acp16 p d a b => some (wordA p 27#5 d a b 2#5)
  | .acps4 p d a b => some (wordA p 27#5 d a b 3#5)
  | .acps8 p d a b => some (wordA p 27#5 d a b 4#5)
  | .acps16 p d a b => some (wordA p 27#5 d a b 5#5)
  | .boinit p a b => some (wordA p 27#5 0#7 a b 6#5)
  | .boarr p d a => some (wordA p 27#5 d a 0#7 7#5)
  | .boexp p a b => some (wordA p 27#5 0#7 a b 8#5)
  | .bowait p d a b => some (wordA p 27#5 d a b 9#5)
  | .botest p d a => some (wordA p 27#5 d a 0#7 10#5)
  | .waitaEq p d a b => some (wordA p 27#5 d a b 11#5)
  | .waitaNe p d a b => some (wordA p 27#5 d a b 12#5)
  | .fenceAcq p s => some (wordA p 27#5 0#7 0#7 (0#5 ++ s.code) 13#5)
  | .fenceRel p s => some (wordA p 27#5 0#7 0#7 (0#5 ++ s.code) 14#5)
  | .fenceFull p s => some (wordA p 27#5 0#7 0#7 (0#5 ++ s.code) 15#5)
  | .lempty p a => some (wordA p 27#5 0#7 a 0#7 16#5)
  | .lfill p a => some (wordA p 27#5 0#7 a 0#7 17#5)
  | .ltest p d a => some (wordA p 27#5 d a 0#7 18#5)
  | .lwait p d a b => some (wordA p 27#5 d a b 19#5)
  | .ldt4 p d a b => some (wordA p 28#5 d a b 0#5)
  | .ldt6 p d a b => some (wordA p 28#5 d a b 1#5)
  | .ldt8 p d a b => some (wordA p 28#5 d a b 2#5)
  | .ldt16 p d a b => some (wordA p 28#5 d a b 3#5)
  | .ldt32 p d a b => some (wordA p 28#5 d a b 4#5)
  | .tcpy p d a b => some (wordA p 28#5 d a b 5#5)
  | .tcpys p d a b => some (wordA p 28#5 d a b 6#5)
  | .tcpyv p d a => some (wordA p 28#5 d a 0#7 7#5)
  | .shset p d a b => some (wordA p 28#5 d a b 8#5)
  | .shdrop p a => some (wordA p 28#5 0#7 a 0#7 9#5)
  | .shqry p d a b => some (wordA p 28#5 d a b 10#5)
  | .macq p => some (wordA p 29#5 0#7 0#7 0#7 0#5)
  | .mrel p => some (wordA p 29#5 0#7 0#7 0#7 1#5)
  | .mmode p a => some (wordA p 29#5 0#7 a 0#7 2#5)
  | .mma p k c t a b => some (wordA p 29#5 (bit k ++ bit c ++ 0#2 ++ t) a b 3#5)
  | .mloop p k c t a b => some (wordA p 29#5 (bit k ++ bit c ++ 0#2 ++ t) a b 4#5)
  | .macc p d o t b => some (wordA p 29#5 d (0#3 ++ bit o ++ t) b 5#5)
  | .maccw p o t a b => some (wordA p 29#5 (0#3 ++ bit o ++ t) a b 6#5)
  | .mzero p t => some (wordA p 29#5 (0#4 ++ t) 0#7 0#7 7#5)
  | .mqry p d => some (wordA p 29#5 d 0#7 0#7 8#5)
  | .mwait p => some (wordA p 29#5 0#7 0#7 0#7 9#5)
  | .gpost p a b => some (wordA p 30#5 0#7 a b 0#5)
  | .gcancel p d a => some (wordA p 30#5 d a 0#7 1#5)
  | .gadd p a b => some (wordA p 30#5 0#7 a b 2#5)
  | .grd p d a => some (wordA p 30#5 d a 0#7 3#5)
  | .gset p a b => some (wordA p 30#5 0#7 a b 4#5)
  | .rput p a => some (wordA p 30#5 0#7 a 0#7 5#5)
  | .rget p a => some (wordA p 30#5 0#7 a 0#7 6#5)
  | .rflag p a b => some (wordA p 30#5 0#7 a b 7#5)
  | .publish p d a => some (wordA p 30#5 d a 0#7 8#5)
  | .pubq p d a => some (wordA p 30#5 d a 0#7 9#5)
  | .tgath p a => some (wordA p 30#5 0#7 a 0#7 10#5)
  | .tred p a => some (wordA p 30#5 0#7 a 0#7 11#5)
  | .tcvt p a => some (wordA p 30#5 0#7 a 0#7 12#5)
  | .stash p a => some (wordA p 30#5 0#7 a 0#7 13#5)
  | .restore p a => some (wordA p 30#5 0#7 a 0#7 14#5)
  | .sleepWake .. => none
  | .barwTimeout .. => none
  | .cbarwTimeout .. => none
  | .bowaitTimeout .. => none
  | .waitaTimeout .. => none
  | .lwaitTimeout .. => none
  | .matrixGrant .. => none
  | .matrixStep .. => none
  | .gateActionComplete .. => none
  | .teaselCommandComplete .. => none
  | .resultArrival .. => none
  | .parkCommit .. => none
  | .loadPerform .. => none
  | .storePerform .. => none
  | .atomicPerform .. => none
  | .leaseExpiry .. => none
  | .tlbLeaseExpiry .. => none
  | .copyWriteLands .. => none
  | .acpsSourceRelease .. => none
  | .tcpyComplete .. => none
  | .tcpysComplete .. => none
  | .tcpyvDelivery .. => none
  | .recordAcceptance .. => none
  | .dispatchStep .. => none
  | .recordCompletion .. => none
  | .rputArrival .. => none
  | .rflagArrival .. => none
  | .rgetResponse .. => none
  | .rputAcknowledge .. => none
  | .messageUndeliverable .. => none
  | .ualinkPortFailure .. => none
  | .correctableError .. => none
  | .uncorrectableError .. => none
  | .hbmRowRepair .. => none
  | .residueCheckFailure .. => none
  | .contextSave .. => none
  | .eventBufferDrain .. => none
  | .openSession .. => none
  | .closeSession .. => none
  | .statusQuery .. => none
  | .ctxcreate .. => none
  | .ctxwrite .. => none
  | .ctxdestroy .. => none
  | .preempt .. => none
  | .aqpenRestore .. => none
  | .savesize .. => none
  | .submit .. => none
  | .aqpenCancel .. => none
  | .inval .. => none
  | .fixans .. => none
  | .memreg .. => none
  | .evtread .. => none
  | .regread .. => none
  | .debugClaim .. => none
  | .debugHalt .. => none
  | .debugResume .. => none
  | .debugEnd .. => none
  | .debugRegisterAccess .. => none
  | .spdm .. => none
  | .telem .. => none
  | .plimit .. => none
  | .aqpenRetransmit .. => none
  | .rdmaWrite .. => none
  | .rdmaRead .. => none
  | .roceSend .. => none
  | .resetDevice .. => none
  | .bringupStepTimeout => none
  | .powerLimitExceeded .. => none
  | .thermalThreshold .. => none
  | .telemetryUpdate .. => none
  | .tcpysSourceRelease .. => none
  | .rgetRequestArrival .. => none
  | .ethernetPartnerSignal => none
  | .bringupStepComplete .. => none
  | .portFault .. => none
  | .congestionNotificationPacket .. => none
  | .priorityFlowControlFrame .. => none
  | .unknownOpcodeFrame .. => none
  | .powerFallsBelowLimit .. => none
  | .faddoListEnlarge .. => none

/-- The little-endian bytes of a word, lowest address first (00 R5). -/
def wordBytes (w : Word) : List Byte :=
  [w.extractLsb' 0 8, w.extractLsb' 8 8, w.extractLsb' 16 8, w.extractLsb' 24 8]

/-- A word from four bytes, lowest address first (00 R5). -/
def bytesWord (a b c d : Byte) : Word := d ++ c ++ b ++ a

/-- Decoding a list of bytes: the instruction and the bytes after it (03 R83: every instruction is one word). -/
noncomputable def decodeBytes : List Byte → Except Reject (Instr × List Byte)
  | a :: b :: c :: d :: rest =>
    match decode (bytesWord a b c d) with
    | .ok i => .ok (i, rest)
    | .error e => .error e
  | _ => .error .short

/-- The instruction the decoder reads from the word whose bits are `w`, bit 0 the least significant of the word. -/
noncomputable def decodeTableWord (nbits w : Nat) : Option Instr :=
  match decodeBytes (wordBytes (BitVec.ofNat 32 (w % 2 ^ nbits))) with
  | .ok (i, _) => some i
  | .error _ => none

end Sys2Proof
end

