-- ==== Sys2Proof/Config.lean ====
section
/-!
DEFINITION. What the implementation fixes and the free values: each is an opaque constant with no body, so nothing can
be proved about which value it takes.
-/
namespace Sys2Proof.Config

/-- A fresh undefined word; the argument is the draw counter of the state (DESIGN CHOICE: notes/assumptions/4.md)
(DEDUCED: log entry 74). -/
opaque freeWord : Nat → Word

/-- Which of the values within R52's bound a bounded function delivers in default mode: a fixed function of the
operation, the format and the operand (01 R52; DESIGN CHOICE: notes/assumptions/5.md). -/
opaque boundedPick : Nat → Nat → Nat

/-- The structure code of an error event (17 R384 gives its field and no values) (DESIGN CHOICE: log entry 4). -/
opaque structureCode : Nat → DWord

/-- The size of a logical core's save area (17 R370), and the bytes of a saved image (17 R370: the layout belongs to the
implementation); the arguments are the image's name and the byte's place (DESIGN CHOICE: log entry 4). -/
opaque saveBytes : Nat
opaque saveImage : Nat → Nat → Byte

/-- CLASS and SUB of a context-fault event (17 R370 names the event and gives it no class)
(DESIGN CHOICE: log entry 4). -/
opaque contextFault : Half

/-- What bits [5:0] of an unset entry of the logical core table read as (14 R322 gives no encoding)
(DESIGN CHOICE: log entry 4). -/
opaque unsetCore : BitVec 6

/-- The device's part number and serial number (19 R393) (DESIGN CHOICE: log entry 4). -/
opaque partNumber : Word
opaque serial : Word

/-- The vendor key, modulus and exponent, that has a digest (19 R397 fuses the digest and does not say where the key itself
is), and the length of the signature's salt, which it leaves open (DESIGN CHOICE: log entry 82). -/
opaque vendorKey : BitVec 512 → Nat × Nat
opaque saltLength : Nat

/-- The fused identity key, never readable, and the certificate chain that an image holds (19 R400; neither's form is given)
(DESIGN CHOICE: log entry 82). -/
opaque identityKey : BitVec 4096
opaque certificateChain : List Byte → List Byte

/-- The body of an SPDM response that the chain alone does not give (19 R400 names the messages and gives no bodies): the
response, the request's arguments, the identity key, what measurements cover, and the draw counter (DESIGN CHOICE: log entry 4). -/
opaque spdmBody : Byte → List Nat → BitVec 4096 → List Nat → Nat → List Byte

end Sys2Proof.Config
end

