-- ==== Sys2Proof/Machine/Crypto.lean ====
section
/-!
DEFINITION. The signature of the firmware image (19 R397): SHA-512 and the verification of RSASSA-PSS with MGF1, as
FIPS 180-4 and PKCS #1 v2.2, which the rule names, give them (PRESUMED: log entry 88).
-/
namespace Sys2Proof.Machine

/-! ## SHA-512 -/

/-- The round constants: the first 64 bits of the fractions of the cube roots of the first eighty primes. -/
def shaK0 : List DWord :=
  [0x428A2F98D728AE22, 0x7137449123EF65CD, 0xB5C0FBCFEC4D3B2F, 0xE9B5DBA58189DBBC,
   0x3956C25BF348B538, 0x59F111F1B605D019, 0x923F82A4AF194F9B, 0xAB1C5ED5DA6D8118,
   0xD807AA98A3030242, 0x12835B0145706FBE, 0x243185BE4EE4B28C, 0x550C7DC3D5FFB4E2,
   0x72BE5D74F27B896F, 0x80DEB1FE3B1696B1, 0x9BDC06A725C71235, 0xC19BF174CF692694]
def shaK1 : List DWord :=
  [0xE49B69C19EF14AD2, 0xEFBE4786384F25E3, 0x0FC19DC68B8CD5B5, 0x240CA1CC77AC9C65,
   0x2DE92C6F592B0275, 0x4A7484AA6EA6E483, 0x5CB0A9DCBD41FBD4, 0x76F988DA831153B5,
   0x983E5152EE66DFAB, 0xA831C66D2DB43210, 0xB00327C898FB213F, 0xBF597FC7BEEF0EE4,
   0xC6E00BF33DA88FC2, 0xD5A79147930AA725, 0x06CA6351E003826F, 0x142929670A0E6E70]
def shaK2 : List DWord :=
  [0x27B70A8546D22FFC, 0x2E1B21385C26C926, 0x4D2C6DFC5AC42AED, 0x53380D139D95B3DF,
   0x650A73548BAF63DE, 0x766A0ABB3C77B2A8, 0x81C2C92E47EDAEE6, 0x92722C851482353B,
   0xA2BFE8A14CF10364, 0xA81A664BBC423001, 0xC24B8B70D0F89791, 0xC76C51A30654BE30,
   0xD192E819D6EF5218, 0xD69906245565A910, 0xF40E35855771202A, 0x106AA07032BBD1B8]
def shaK3 : List DWord :=
  [0x19A4C116B8D2D0C8, 0x1E376C085141AB53, 0x2748774CDF8EEB99, 0x34B0BCB5E19B48A8,
   0x391C0CB3C5C95A63, 0x4ED8AA4AE3418ACB, 0x5B9CCA4F7763E373, 0x682E6FF3D6B2B8A3,
   0x748F82EE5DEFB2FC, 0x78A5636F43172F60, 0x84C87814A1F0AB72, 0x8CC702081A6439EC,
   0x90BEFFFA23631E28, 0xA4506CEBDE82BDE9, 0xBEF9A3F7B2C67915, 0xC67178F2E372532B]
def shaK4 : List DWord :=
  [0xCA273ECEEA26619C, 0xD186B8C721C0C207, 0xEADA7DD6CDE0EB1E, 0xF57D4F7FEE6ED178,
   0x06F067AA72176FBA, 0x0A637DC5A2C898A6, 0x113F9804BEF90DAE, 0x1B710B35131C471B,
   0x28DB77F523047D84, 0x32CAAB7B40C72493, 0x3C9EBE0A15C9BEBC, 0x431D67C49C100D4C,
   0x4CC5D4BECB3E42B6, 0x597F299CFC657E2A, 0x5FCB6FAB3AD6FAEC, 0x6C44198C4A475817]
def shaK : List DWord := shaK0 ++ shaK1 ++ shaK2 ++ shaK3 ++ shaK4

/-- The eight words of a hash under way. -/
structure Sha where
  a : DWord
  b : DWord
  c : DWord
  d : DWord
  e : DWord
  f : DWord
  g : DWord
  h : DWord
  deriving DecidableEq, Repr

/-- The first hash value: the same of the square roots of the first eight primes. -/
def Sha.start : Sha :=
  ⟨0x6A09E667F3BCC908, 0xBB67AE8584CAA73B, 0x3C6EF372FE94F82B, 0xA54FF53A5F1D36F1,
   0x510E527FADE682D1, 0x9B05688C2B3E6C1F, 0x1F83D9ABFB41BD6B, 0x5BE0CD19137E2179⟩

/-- One round. -/
def Sha.round (x : Sha) (k w : DWord) : Sha :=
  let s1 := x.e.rotateRight 14 ^^^ x.e.rotateRight 18 ^^^ x.e.rotateRight 41
  let ch := (x.e &&& x.f) ^^^ (~~~x.e &&& x.g)
  let t1 := x.h + s1 + ch + k + w
  let s0 := x.a.rotateRight 28 ^^^ x.a.rotateRight 34 ^^^ x.a.rotateRight 39
  let maj := (x.a &&& x.b) ^^^ (x.a &&& x.c) ^^^ (x.b &&& x.c)
  ⟨t1 + (s0 + maj), x.a, x.b, x.c, x.d + t1, x.e, x.f, x.g⟩

/-- The next word of the schedule from the last sixteen. -/
def shaNext (l : List DWord) : DWord :=
  let w (i : Nat) : DWord := l.getD i 0
  let s0 := (w 1).rotateRight 1 ^^^ (w 1).rotateRight 8 ^^^ (w 1) >>> 7
  let s1 := (w 14).rotateRight 19 ^^^ (w 14).rotateRight 61 ^^^ (w 14) >>> 6
  s1 + w 9 + s0 + w 0
/-- The rounds, the sixteen words that come next under way. -/
def Sha.rounds : List DWord → List DWord → Sha → Sha
  | [], _, x => x
  | k :: ks, l, x => Sha.rounds ks (l.drop 1 ++ [shaNext l]) (x.round k (l.getD 0 0))
def Sha.add (x y : Sha) : Sha := ⟨x.a + y.a, x.b + y.b, x.c + y.c, x.d + y.d, x.e + y.e, x.f + y.f, x.g + y.g, x.h + y.h⟩

/-- A number from bytes with the most significant first, and its bytes. -/
def beNat (l : List Byte) : Nat := l.foldl (fun n b => 256 * n + b.toNat) 0
def beBytes (n x : Nat) : List Byte := (List.range n).map fun i => BitVec.ofNat 8 (x / 256 ^ (n - 1 - i))

/-- One block of 128 bytes. -/
def Sha.block (x : Sha) (l : List Byte) : Sha :=
  x.add (Sha.rounds shaK ((List.range 16).map fun i => BitVec.ofNat 64 (beNat ((l.drop (8 * i)).take 8))) x)
def Sha.blocks : Nat → List Byte → Sha → Sha
  | 0, _, x => x
  | n + 1, l, x => Sha.blocks n (l.drop 128) (x.block (l.take 128))
/-- The message with its padding. -/
def shaPad (l : List Byte) : List Byte :=
  l ++ 0x80 :: List.replicate ((239 - l.length % 128) % 128) 0 ++ beBytes 16 (8 * l.length)
def sha512 (l : List Byte) : List Byte :=
  let p := shaPad l
  let x := Sha.blocks (p.length / 128) p Sha.start
  [x.a, x.b, x.c, x.d, x.e, x.f, x.g, x.h].flatMap fun w => beBytes 8 w.toNat

/-! ## RSASSA-PSS -/

/-- MGF1 with SHA-512: n bytes from a seed. -/
def mgf1 (seed : List Byte) (n : Nat) : List Byte :=
  ((List.range ((n + 63) / 64)).flatMap fun i => sha512 (seed ++ beBytes 4 i)).take n

/-- b to the power of an exponent of at most `fuel` bits, modulo n. -/
def powMod (n : Nat) : Nat → Nat → Nat → Nat
  | 0, _, _ => 1 % n
  | fuel + 1, b, e =>
    let r := powMod n fuel (b * b % n) (e / 2)
    if e % 2 = 1 then b * r % n else r

def xorBytes (a b : List Byte) : List Byte := (a.zip b).map fun xy => xy.1 ^^^ xy.2

/-- EMSA-PSS-VERIFY of a digest and an encoded message of 512 bytes, of 4,095 bits, with a salt of `salt` bytes. -/
def pssVerify (salt : Nat) (digest em : List Byte) : Bool :=
  let masked := em.take 447
  let h := (em.drop 447).take 64
  let db := match xorBytes masked (mgf1 h 447) with
    | b :: t => (b &&& 0x7F) :: t
    | [] => []
  let zeros := 446 - salt
  decide (salt ≤ 446) && em.length = 512 && em.getLast? = some 0xBC && (masked.headD 0).getLsbD 7 = false
    && (db.take zeros).all (fun b => b = 0) && (db.drop zeros).head? = some 1
    && sha512 (List.replicate 8 0 ++ digest ++ db.drop (zeros + 1)) = h

/-- A public key: RSA-4096's modulus and exponent. -/
structure RsaKey where
  modulus : Nat
  exponent : Nat

/-- Whether a signature of 512 bytes over a message is good under a key. -/
def rsaVerify (k : RsaKey) (salt : Nat) (message signature : List Byte) : Bool :=
  let s := beNat signature
  signature.length = 512 && decide (s < k.modulus) &&
    pssVerify salt (sha512 message) (beBytes 512 (powMod k.modulus 4096 s k.exponent))

end Sys2Proof.Machine
end

