-- ==== Sys2Proof/Machine/Flags.lean ====
section
/-!
DEFINITION. The exception flags of 01 R29 and R33, as the six bits of `FSTICKY`, and how an instruction's flags meet
`FTRAPEN` (01 R30, R31). Integer instructions of this architecture have no flags.
-/
namespace Sys2Proof.Machine

/-- The bits of `FSTICKY` and `FTRAPEN` (01 R33): NV, DZ, OF, UF, NX, BL from bit 0 up. -/
abbrev FpFlags := BitVec 6

def flagNV : FpFlags := 1#6
def flagDZ : FpFlags := 2#6
def flagOF : FpFlags := 4#6
def flagUF : FpFlags := 8#6
def flagNX : FpFlags := 16#6
def flagBL : FpFlags := 32#6

/-- A flag where a condition holds. -/
def flagIf (c : Bool) (f : FpFlags) : FpFlags := if c then f else 0#6

/-- The first enabled exception in the order of 01 R31 (NV, DZ, OF, UF, NX, BL), as a bit position. -/
def firstEnabled (raised enabled : FpFlags) : Option Nat :=
  (List.range 6).find? (fun k => raised.getLsbD k && enabled.getLsbD k)

/-- The trap cause of a flag (17 R355): 0x09 to 0x0E. -/
def flagCause (k : Nat) : BitVec 8 := BitVec.ofNat 8 (9 + k)

/-- The mask of lane positions whose flags hold bit `k` (17 R355, TRAPINFO of an FP cause). -/
def flagLanes (k : Nat) (lanes : List (Nat × FpFlags)) : BitVec 64 :=
  lanes.foldl (fun m lf => if lf.2.getLsbD k then m ||| (1#64 <<< lf.1) else m) 0#64

/-- All the flags that any lane raised. -/
def flagUnion (lanes : List (Nat × FpFlags)) : FpFlags :=
  lanes.foldl (fun f lf => f ||| lf.2) 0#6

end Sys2Proof.Machine
end

