-- ==== Sys2Proof/Machine/Fp.lean ====
section
/-!
DEFINITION. Binary floating point and the MX element formats (01 R12 to R29): decoding a code into an exact value,
rounding an exact value to a format, and the arithmetic operations as exact computation followed by one rounding.
-/
namespace Sys2Proof.Machine

/-- What a format's codes above the largest finite one mean. -/
inductive FpKind
  | ieee       -- infinities and NaNs, with signalling NaNs (01 R12)
  | e5m2       -- infinities and NaNs, all quiet (01 R15)
  | e4m3       -- one NaN magnitude, no infinity (01 R15, R23)
  | finite     -- neither (01 R15, R23)
  deriving DecidableEq, Repr

/-- A binary format: exponent and fraction widths, bias, and the code of the largest finite magnitude. -/
structure Fmt where
  eb : Nat
  fb : Nat
  bias : Nat
  maxCode : Nat
  nan : Nat
  kind : FpKind
  deriving DecidableEq, Repr

def f64 : Fmt := ⟨11, 52, 1023, 0x7FEFFFFFFFFFFFFF, 0x7FF8000000000000, .ieee⟩
def f32 : Fmt := ⟨8, 23, 127, 0x7F7FFFFF, 0x7FC00000, .ieee⟩
def f16 : Fmt := ⟨5, 10, 15, 0x7BFF, 0x7E00, .ieee⟩
def bf16 : Fmt := ⟨8, 7, 127, 0x7F7F, 0x7FC0, .ieee⟩
def e4m3 : Fmt := ⟨4, 3, 7, 0x7E, 0x7F, .e4m3⟩
def e5m2 : Fmt := ⟨5, 2, 15, 0x7B, 0x7E, .e5m2⟩
def e2m3 : Fmt := ⟨2, 3, 1, 0x1F, 0, .finite⟩
def e3m2 : Fmt := ⟨3, 2, 3, 0x1F, 0, .finite⟩
def e2m1 : Fmt := ⟨2, 1, 1, 0x7, 0, .finite⟩

/-- The number of bits of a code. -/
def Fmt.bits (f : Fmt) : Nat := 1 + f.eb + f.fb
/-- The sign bit's weight. -/
def Fmt.signW (f : Fmt) : Nat := 2 ^ (f.eb + f.fb)
/-- The exponent of the smallest normal. -/
def Fmt.emin (f : Fmt) : Int := 1 - (f.bias : Int)
/-- The exponent of the largest finite value (01 R15, column emax). -/
def Fmt.emax (f : Fmt) : Int := (f.maxCode / 2 ^ f.fb : Nat) - (f.bias : Int)

/-- A value: a NaN (signalling or quiet), an infinity, or (-1)^neg × m × 2^e exactly. -/
inductive FVal
  | nan (signalling : Bool)
  | inf (neg : Bool)
  | fin (neg : Bool) (m : Nat) (e : Int)
  deriving DecidableEq, Repr

/-- The value of a code (01 R12, R15). -/
def Fmt.decode (f : Fmt) (c : Nat) : FVal :=
  let neg := c / f.signW % 2 = 1
  let mag := c % f.signW
  let ex := mag / 2 ^ f.fb
  let fr := mag % 2 ^ f.fb
  let v : FVal :=
    if ex = 0 then .fin neg fr (f.emin - f.fb)
    else .fin neg (2 ^ f.fb + fr) ((ex : Int) - f.bias - f.fb)
  if mag ≤ f.maxCode then v
  else match f.kind with
    | .ieee => if fr = 0 then .inf neg else .nan (fr / 2 ^ (f.fb - 1) = 0)
    | .e5m2 => if fr = 0 then .inf neg else .nan false
    | .e4m3 => .nan false
    | .finite => v

def FVal.isNan : FVal → Bool
  | .nan _ => true
  | _ => false
def FVal.isSnan : FVal → Bool
  | .nan s => s
  | _ => false
def FVal.isInf : FVal → Bool
  | .inf _ => true
  | _ => false
def FVal.isZero : FVal → Bool
  | .fin _ m _ => m = 0
  | _ => false
def FVal.isNeg : FVal → Bool
  | .nan _ => false
  | .inf n => n
  | .fin n _ _ => n

/-- A result: its code and the exceptions it raises. -/
structure FpRes where
  code : Nat
  flags : FpFlags
  deriving DecidableEq, Repr

/-- Whether an inexact magnitude rounds away from zero (01 R21, R24): `odd` says the truncated significand is odd,
`half` compares the discarded part with one half (the discarded part is `F` / 2^32 of the gap, rounded down), `D` is
the draw of R24. -/
def roundsUp (r : Rounding) (neg odd : Bool) (half : Ordering) (F D : Nat) : Bool :=
  match r with
  | .rne => half = .gt || (half = .eq && odd)
  | .rtz => false
  | .rpi => !neg
  | .rmi => neg
  | .rna => half ≠ .lt
  | .rsr => decide (2 ^ 32 ≤ F + D)
  | .rto => !odd

/-- Rounding a magnitude m × 2^e (a little more where `sticky`) to a multiple of 2^q: the multiple, and whether the
value was inexact. A sticky value must have e ≤ q, or be given more low bits first; `roundAt` gives them. -/
def roundAt (r : Rounding) (neg : Bool) (m : Nat) (e : Int) (sticky : Bool) (q : Int) (D : Nat) : Nat × Bool :=
  let k := (34 - (q - e)).toNat
  let m' := m * 2 ^ k
  let sh := (q - e + k).toNat
  let a := m' / 2 ^ sh
  let rem := m' % 2 ^ sh
  let inexact := rem ≠ 0 || sticky
  let h := 2 ^ (sh - 1)
  let half := if rem < h then Ordering.lt else if rem = h && !sticky then .eq else .gt
  let F := rem * 2 ^ 32 / 2 ^ sh
  (if inexact && roundsUp r neg (a % 2 = 1) half F D then a + 1 else a, inexact)

/-- The code of a zero, an infinity, the largest finite value and a NaN. -/
def Fmt.sgn (f : Fmt) (neg : Bool) : Nat := if neg then f.signW else 0
def Fmt.zero (f : Fmt) (neg : Bool) : Nat := f.sgn neg
def Fmt.maxFin (f : Fmt) (neg : Bool) : Nat := f.sgn neg + f.maxCode
def Fmt.inf (f : Fmt) (neg : Bool) : Nat :=
  match f.kind with
  | .ieee => f.sgn neg + (f.maxCode + 1)
  | .e5m2 => f.sgn neg + (f.maxCode + 1)
  | .e4m3 => f.nan
  | .finite => f.maxFin neg

/-- The delivered code of an overflow (01 R22, R23). -/
def Fmt.overflow (f : Fmt) (r : Rounding) (sat neg : Bool) : Nat :=
  if sat then f.maxFin neg
  else match r with
    | .rne | .rna | .rsr => f.inf neg
    | .rtz | .rto => f.maxFin neg
    | .rpi => if neg then f.maxFin neg else f.inf neg
    | .rmi => if neg then f.inf neg else f.maxFin neg

/-- RoundTo (01 R21 to R24, R29): the code of (-1)^neg × m × 2^e (a little more in magnitude where `sticky`) in a
format, with its overflow, underflow and inexact exceptions. -/
def Fmt.round (f : Fmt) (r : Rounding) (sat neg : Bool) (m : Nat) (e : Int) (sticky : Bool) (D : Nat) : FpRes :=
  if m = 0 then ⟨f.zero neg, flagIf sticky (flagUF ||| flagNX)⟩
  else
    let E : Int := (Nat.log2 m : Int) + e
    let q := max E f.emin - f.fb
    let (n, inexact) := roundAt r neg m e sticky q D
    let code := ((q + f.bias + f.fb - 1) * (2 ^ f.fb : Nat) + n).toNat
    if f.maxCode < code then
      if sat || f.kind = .finite then ⟨f.maxFin neg, flagNX⟩
      else ⟨f.overflow r sat neg, flagOF ||| flagNX⟩
    else
      let n' := (roundAt r neg m e sticky (E - f.fb) D).1
      let tiny := E < f.emin && !(E = f.emin - 1 && n' = 2 ^ (f.fb + 1))
      ⟨f.sgn neg + code, flagIf (tiny && inexact) flagUF ||| flagIf inexact flagNX⟩

/-- The canonical NaN with a flag (01 R28). -/
def Fmt.nanRes (f : Fmt) (invalid : Bool) : FpRes := ⟨f.nan, flagIf invalid flagNV⟩

/-- A signed integer times 2^e. -/
def signedOf (neg : Bool) (m : Nat) : Int := if neg then -(m : Int) else m

/-- The exact sum of two finite values as a signed integer times a power of two. -/
def exactAdd (a : Int) (ea : Int) (b : Int) (eb : Int) : Int × Int :=
  let e := min ea eb
  (a * (2 ^ (ea - e).toNat : Nat) + b * (2 ^ (eb - e).toNat : Nat), e)

/-- The sign of a sum that is exactly zero (01 R21): both operands' sign where they agree, else + but − under rmi
(DEDUCED: log entry 13). -/
def zeroSign (r : Rounding) (na nb : Bool) : Bool := if na = nb then na else r = .rmi

/-- Addition of decoded values with one rounding (01 R21, R28, R29) (DEDUCED: log entry 13). -/
def fpAddV (f : Fmt) (r : Rounding) (x y : FVal) (D : Nat) : FpRes :=
  match x, y with
  | .fin na ma ea, .fin nb mb eb =>
    let (s, e) := exactAdd (signedOf na ma) ea (signedOf nb mb) eb
    if s = 0 then ⟨f.zero (zeroSign r na nb), 0⟩
    else f.round r false (decide (s < 0)) s.natAbs e false D
  | .inf na, .inf nb => if na = nb then ⟨f.inf na, 0⟩ else f.nanRes true
  | .inf na, .fin .. => ⟨f.inf na, 0⟩
  | .fin .., .inf nb => ⟨f.inf nb, 0⟩
  | x, y => f.nanRes (x.isSnan || y.isSnan)

/-- Negation of a decoded value. -/
def FVal.negate : FVal → FVal
  | .nan s => .nan s
  | .inf n => .inf (!n)
  | .fin n m e => .fin (!n) m e

/-- The exact product of two values; `none` where it is 0 × ∞ (01 R29). -/
def exactMul : FVal → FVal → Option FVal
  | .fin na ma ea, .fin nb mb eb => some (.fin (na != nb) (ma * mb) (ea + eb))
  | .inf na, .inf nb => some (.inf (na != nb))
  | .inf na, .fin nb mb _ => if mb = 0 then none else some (.inf (na != nb))
  | .fin na ma _, .inf nb => if ma = 0 then none else some (.inf (na != nb))
  | x, y => some (.nan (x.isSnan || y.isSnan))

def fpAdd (f : Fmt) (r : Rounding) (a b D : Nat) : FpRes := fpAddV f r (f.decode a) (f.decode b) D
def fpSub (f : Fmt) (r : Rounding) (a b D : Nat) : FpRes := fpAddV f r (f.decode a) (f.decode b).negate D

/-- A decoded value rounded once into a format. -/
def fpOfVal (f : Fmt) (r : Rounding) (sat : Bool) (v : FVal) (D : Nat) : FpRes :=
  match v with
  | .nan s => f.nanRes s
  | .inf n => ⟨f.inf n, 0⟩
  | .fin n m e => f.round r sat n m e false D

def fpMul (f : Fmt) (r : Rounding) (a b D : Nat) : FpRes :=
  match exactMul (f.decode a) (f.decode b) with
  | none => f.nanRes true
  | some v => fpOfVal f r false v D

/-- Fused multiply-add a × b + c with one rounding (01 R42: IEEE 754 fusedMultiplyAdd). A product 0 × ∞ is invalid
whatever c holds. -/
def fpFma (f : Fmt) (r : Rounding) (a b c D : Nat) : FpRes :=
  let z := f.decode c
  match exactMul (f.decode a) (f.decode b) with
  | none => f.nanRes true
  | some v => fpAddV f r v z D

/-- Division x / y with one rounding (01 R29, R52). -/
def fpDiv (f : Fmt) (r : Rounding) (a b D : Nat) : FpRes :=
  match f.decode a, f.decode b with
  | .fin na ma ea, .fin nb mb eb =>
    if mb = 0 then (if ma = 0 then f.nanRes true else ⟨f.inf (na != nb), flagDZ⟩)
    else if ma = 0 then ⟨f.zero (na != nb), 0⟩
    else
      let k := f.fb + 40 + Nat.log2 mb
      let n := ma * 2 ^ k
      f.round r false (na != nb) (n / mb) (ea - eb - k) (n % mb ≠ 0) D
  | .inf _, .inf _ => f.nanRes true
  | .inf na, .fin nb _ _ => ⟨f.inf (na != nb), 0⟩
  | .fin na _ _, .inf nb => ⟨f.zero (na != nb), 0⟩
  | x, y => f.nanRes (x.isSnan || y.isSnan)

/-- The integer square root, one bit of the result per step from bit `k` down. -/
def isqrtFrom (n : Nat) : Nat → Nat → Nat
  | 0, acc => if (acc + 1) * (acc + 1) ≤ n then acc + 1 else acc
  | k + 1, acc =>
    let t := acc + 2 ^ (k + 1)
    isqrtFrom n k (if t * t ≤ n then t else acc)

def isqrt (n : Nat) : Nat := if n = 0 then 0 else isqrtFrom n (Nat.log2 n / 2) 0

/-- Square root with one rounding (01 R29, R52). -/
def fpSqrt (f : Fmt) (r : Rounding) (a D : Nat) : FpRes :=
  match f.decode a with
  | .nan s => f.nanRes s
  | .inf n => if n then f.nanRes true else ⟨f.inf false, 0⟩
  | .fin n m e =>
    if m = 0 then ⟨f.zero n, 0⟩
    else if n then f.nanRes true
    else
      let k := 2 * (f.fb + 40)
      let k' := if (e - k) % 2 = 0 then k else k + 1
      let x := m * 2 ^ k'
      let s := isqrt x
      f.round r false false s ((e - k') / 2) (decide (s * s ≠ x)) D

/-- The order of two values that are not NaN: the signed comparison, with −0 = +0. -/
def FVal.cmp : FVal → FVal → Ordering
  | .fin na ma ea, .fin nb mb eb =>
    let s := (exactAdd (signedOf na ma) ea (-(signedOf nb mb)) eb).1
    if s < 0 then .lt else if s = 0 then .eq else .gt
  | .inf na, .inf nb => if na = nb then .eq else if na then .lt else .gt
  | .inf na, _ => if na then .lt else .gt
  | _, .inf nb => if nb then .gt else .lt
  | _, _ => .eq

/-- Rounding a value to an integer (01 R21 with a gap of 1): its signed value and whether it was inexact. -/
def roundInt (r : Rounding) (neg : Bool) (m : Nat) (e : Int) (D : Nat) : Int × Bool :=
  let (n, x) := roundAt r neg m e false 0 D
  (signedOf neg n, x)

/-- One draw of a lane generator (01 R25): the new state, which is the draw. -/
def drawStep (g : Word) : Word :=
  let a := g ^^^ (g <<< 13)
  let b := a ^^^ (a >>> 17)
  b ^^^ (b <<< 5)

/-- The seed of a lane generator (01 R26). -/
def seedLane (seed : Word) (q : Nat) : Word :=
  let g := seed + BitVec.ofNat 32 ((q + 1) * 0x9E3779B9)
  if g = 0 then 0x9E3779B9#32 else g

end Sys2Proof.Machine
end

