-- ==== Sys2Proof/Machine/State.lean ====
section
/-!
DEFINITION. The state of the Creruth: plain data, one field for every piece of state of INVENTORY.md, and its value
right after reset.
-/
namespace Sys2Proof.Machine

/-- A 64-byte record of memory: a descriptor, a shape record, a kernel record. -/
abbrev Desc := BitVec 512

/-! ## The wave -/

/-- A register element (02 R69): one lane's part of one vector or scale register, or one scalar register. A vector or
scale element's key is 64 × (physical register number) + lane position. -/
inductive Elem
  | v (key : Nat)
  | e (key : Nat)
  | s (reg : Nat)
  deriving DecidableEq, Repr

/-- A CSR whose value a pending CSRR takes when it is performed (02 R66, R67); `countLo` is `CLOCK` in compulsory mode. -/
inductive Sample
  | none | clockLo | countLo (value : DWord) | clockHi | retiredLo (value : DWord) | retiredHi
  deriving DecidableEq, Repr

/-- A return-buffer entry (02 R68 to R72). -/
structure Entry where
  seq : Nat                     -- program order
  pc : DWord                    -- the issuing instruction
  bytes : Nat                   -- pending data (17 R368)
  dests : List Elem             -- the elements a commit still writes (02 R69)
  vals : List (Elem × Word)     -- delivered results
  waiting : Nat                 -- results outstanding
  flags : BitVec 6              -- exceptions set at the commit (01 R30)
  failed : Bool                 -- a deferred error: commits nothing (02 R81)
  sample : Sample
  deriving DecidableEq, Repr

/-- A deferred error not yet taken (02 R81): its cause, the address form's contents, the faulting instruction, and its
place among the accesses of that instruction, which rises with the lane's position (17 R356). -/
structure Deferred where
  cause : BitVec 8
  addr : Nat
  scratch : Bool
  pc : DWord
  place : Nat
  deriving DecidableEq, Repr

/-- A trap (17 R355): cause and information words. -/
structure Trap where
  cause : BitVec 8
  info0 : Word
  info1 : Word
  deriving DecidableEq, Repr

/-- What a wave waits for while it issues nothing (06 R168). The destination is a scalar register number; a deadline
of `none` is a wait without limit. -/
inductive Wait
  | none
  | sleep (until_ : Nat)
  | bars (k : Nat)
  | barw (k d : Nat) (deadline : Option Nat)
  | cbarw (d : Nat) (deadline : Option Nat)
  | bowait (block off d : Nat) (token : Bool) (deadline : Option Nat)
  | waita (block off d : Nat) (eq : Bool) (value : Word) (deadline : Option Nat)
  | lwait (block line d : Nat) (deadline : Option Nat)
  | wfuse (width : Nat)
  | mbr (sT mA n : Nat) (join : DWord) (targets : List Word)
  | bjoin
  | macq
  | dqpop
  | dqpush
  | fetch (token : Nat)         -- an instruction fetch parked on a translation fault (17 R364)
  | home (token : Nat)          -- an instruction that awaits a home's answer, parked on a translation fault (11 R277)
  deriving DecidableEq, Repr

/-- The registers of a wave (02 R59). -/
structure Regs where
  v : SMap Word                 -- 64 × physical register + position
  e : SMap Byte                 -- likewise
  s : SMap Word
  m : SMap DWord
  gen : SMap Word               -- lane generators, by position (01 R25)
  vPoison : List Nat            -- poisoned elements (17 R376), by key
  ePoison : List Nat
  sPoison : List Nat
  vBusy : List (Nat × Nat)      -- registers pending under a TCPYV: operation and physical register (10 R269)
  deriving DecidableEq, Repr

/-- The control and status registers of a wave that hold state (02 R65). -/
structure Csrs where
  wpart : Nat
  retired : DWord
  rhz : Nat
  clockHi : Word                -- high words latched by low reads (02 R66)
  retiredHi : Word
  rhzHi : Word
  fsticky : BitVec 6
  ftrapen : BitVec 6
  seed : Word
  cza : Byte
  czb : Byte
  zpair : Half
  winbase : Nat
  comm : Bool                   -- MODE.COMM
  hnd : Bool                    -- MODE.HND
  trapcause : BitVec 8
  trappc : DWord
  info0 : Word
  info1 : Word
  deriving DecidableEq, Repr

/-- Whether a wave may issue (17 R358; 19 R393). -/
inductive Run | running | stopped | halted
  deriving DecidableEq, Repr

/-- A wave, a compacted path wave or a forerunner context. -/
structure Wave where
  uid : Nat                     -- a name no other wave has
  kin : List Nat                -- names of the waves it was split from, fused from or compacted to
  block : Nat                   -- the block's name
  fore : Bool                   -- a forerunner context
  width : Nat
  cpt : Bool                    -- a compacted path wave (06 R180)
  lanes : List Nat              -- Q of each position (02 R54, 06 R180)
  first : Nat                   -- F of the meeting wave or the wave itself
  exited : DWord                -- exited positions (02 R75)
  pc : DWord
  regs : Regs
  csr : Csrs
  rb : List Entry               -- the return buffer, oldest first
  deferred : List Deferred
  run : Run
  wait : Wait
  word : Word                   -- the word of the instruction that waits
  parking : Bool                -- its next instruction parks and waits for results (02 R70)
  trapping : Bool               -- its next instruction raised a precise trap that waits for earlier results (02 R80; 06 R168)
  cancel : Option Word          -- a CANCEL control word to be taken at the next boundary (11 R287)
  dqPos : Nat                   -- decision-queue position (06 R175)
  tags : List (Option Bool)     -- phase of the last arrival at barriers 0 to 7 (06 R176)
  ctag : Option Bool            -- and at the cluster barrier (10 R257)
  faddoN : List (Nat × Nat × Nat)  -- FADDOs issued, by lane Q and location (12 R302)
  ordLoads : Nat                -- accesses issued from now on wait for loads named below this (07 R217)
  ordStores : Nat               -- and for stores and atomics named below this
  seen : Nat                    -- the largest write-completion time of the writes that its acquires have observed (21 R430)
  evtHeld : Bool                -- an EVT or a wave-fault record of this wave waits in its die (17 R387)
  denied : List Nat             -- pages whose fault its instruction parked on was answered FAIL (17 R364)
  fetchDenied : Bool            -- the fault its fetch parked on was answered FAIL
  deriving DecidableEq, Repr

/-! ## The block -/

/-- A scratch line's full/empty state (07 R185). -/
structure LineFE where
  full : Bool
  pend : Nat
  deriving DecidableEq, Repr

/-- The state of a scratch line at launch (07 R184). -/
def LineFE.launch : LineFE := ⟨true, 0⟩

/-- A named or cluster barrier (06 R176, 10 R257). -/
structure Barrier where
  expected : Nat
  arrivals : Nat
  phase : Bool
  deriving DecidableEq, Repr

def Barrier.launch : Barrier := ⟨0, 0, false⟩

/-- What the reconvergence stack keeps of a meeting wave (06 R178, R181). -/
structure SavedWave where
  slot : Nat
  wave : Wave
  deriving DecidableEq, Repr

/-- A reconvergence stack entry (06 R178). `paths` lists, for each path not yet started, the start address and the
lanes: slot and position in its meeting wave. -/
structure StackEntry where
  join : DWord
  paths : List (DWord × List (Nat × Nat))
  saved : List SavedWave
  deriving DecidableEq, Repr

/-- Compulsory scratch record of a line (06 R172): the unit of the last writer, the mask of words written, kept by the
unit that wrote them, and the readers. -/
structure ScrRecord where
  writer : Option Nat
  words : SMap Word
  readers : List Nat
  comm : Option Nat             -- every access so far is a commutative integer atomic of this kind
  deriving DecidableEq, Repr

def ScrRecord.empty : ScrRecord := ⟨none, [], [], none⟩

/-- A resident block (11 R273; 06 R164). -/
structure Block where
  uid : Nat
  ctx : Nat
  record : Nat                  -- KEY of its record
  index : Nat
  coord : Word × Word × Word
  core : Nat
  slot : Nat
  group : Nat                   -- name of its cluster launch (its own name where it is alone)
  rank : Nat
  groupSize : Nat
  vregs : Nat
  sregs : Nat
  scratch : Nat                 -- bytes allocated
  data : SMap Byte
  side : SMap Byte              -- 8 × line + i
  fe : SMap LineFE
  scrPoison : List Nat          -- poisoned 16-byte granules (17 R373)
  barriers : SMap Barrier
  dq : List Word                -- unfreed decisions
  dqBase : Nat                  -- position of the oldest
  stack : List StackEntry       -- top first
  scrRecords : SMap ScrRecord
  replay : Bool
  recAddr : DWord               -- RECORD (02 R65)
  nblocks : Word
  rsafe : Bool
  rdir : Bool
  lanes : Nat                   -- lanes at launch
  laneRegs : List Nat           -- lane-registers it holds of each slice (02 R60, R64)
  ended : Bool                  -- retired, its scratch held for its group (10 R255)
  horizon : Nat                 -- the largest write-completion time of the writes of its waves that have ended (21 R430)
  freed : Bool                  -- its scratch is free; what it held stays for copies that still read it
  deriving DecidableEq, Repr

/-! ## Memory -/

/-- An L1 line (07 R188, 12 R294). -/
structure L1Line where
  data : List Byte
  side : List Byte
  poison : List Nat
  expiry : Nat
  deriving DecidableEq, Repr

/-- A translation (17 R359): the physical address of the page and what the leaf says. -/
structure TlbEntry where
  asid : Nat
  va : Nat
  size : Nat
  pa : Nat
  write : Bool
  read : Bool
  mx : Bool
  lease : Nat
  shadow : Option Nat           -- region index
  expiry : Option Nat           -- of shadowed pages (12 R306)
  face : Nat
  deriving DecidableEq, Repr

/-- What an access names: global or scratch, its virtual address or scratch offset, size, and whether it is a
sideband byte. For scratch, `block` is the target block's name. -/
structure Access where
  glob : Bool
  block : Nat
  addr : Nat
  size : Nat
  side : Bool
  deriving DecidableEq, Repr

/-- Atomic operations (07 R198; SAADD and SACAS are ADD32 and CAS32). -/
inductive AtomOp
  | add32 | add64 | minS32 | maxS32 | and | or | xor | xch32 | xch64 | cas32 | cas64 | fadd32 | fadd64 | incw
  deriving DecidableEq, Repr

/-- A region descriptor (12 R305). -/
structure Region where
  edge : Bool
  valid : Bool
  foff : BitVec 40
  pct : DWord
  flips : Nat                   -- PUBLISHes pending until the conflict interval ends (12 R310)
  deriving DecidableEq, Repr

def Region.empty : Region := ⟨false, false, 0, 0, 0⟩

/-- A bulk tensor copy as issued (10 R262 to R264): the shape record, the scratch place of the image, the box. -/
structure CopyDesc where
  shape : Desc
  block : Nat
  off : Nat
  org : List Nat
  box : List Nat
  deriving DecidableEq, Repr

/-- What RPUT, RGET, RFLAG and the remote steps of gates ask of a peer (20 R417, R418). For a tagged RPUT `raddr` holds
TAG, TILE and OFFSET as R417 lays them out. -/
inductive NetOp
  | put (tagged : Bool) (laddr : Nat) (raddr : DWord) (len peer rvd rctr : Nat) (radd : Word)
  | get (laddr : Nat) (raddr : DWord) (len peer : Nat)
  | flag (peer rvd rctr : Nat) (radd : Word)
  deriving DecidableEq, Repr

/-- What an issued access or engine command still has to do. -/
inductive OpKind
  | load (a : Access) (dst : List Elem) (signed : Bool) (entry : Nat)
  | store (a : Access) (data : List Byte)
  | ldt (els : List (Option (Nat × Nat))) (esize per : Nat) (side : Option (Nat × Nat × Nat)) (dst sdst : List Elem)
      (entry : Nat)             -- block and bit address of each element, elements per register, sideband byte
  | atomic (a : Access) (op : AtomOp) (v w : Nat) (dst : List Elem) (entry : Option Nat) (use : AtomUse) (scope : Scope)
  | faddo (va : Nat) (pa : Option Nat) (wide : Bool) (value : Nat) (index q n : Nat)
  | acp (lanes : List (Nat × Nat × Nat)) (size : Nat)          -- global address, target block, scratch offset
  | acps (lanes : List (Nat × Nat × Nat)) (size : Nat) (objBlock objOff objAddr : Nat) (objOk : Bool)
      (read : Option (List (Nat × List Byte × Bool)))
  | tcpy (c : CopyDesc) (obj : Option (Nat × Nat × Nat)) (word : Option (Nat × Nat × Word))
  | tcpys (c : CopyDesc) (obj : Option (Nat × Nat × Nat)) (word : Option (Nat × Nat × Word)) (regions : SMap Region)
      (read : Option (List Byte × List Byte × List Nat))
  | tcpyv (c : CopyDesc) (obj : Nat × Nat × Nat) (base count : Nat)
  | teasel (d : Nat) (desc srcShape dstShape : Desc) (regions : SMap Region)
  | gate (vd gate : Nat) (desc : Desc) (block : Nat) (start : Option (SMap Region)) (acq : List Nat)
  | net (n : NetOp) (sent : Bool) (regions : SMap Region) (local_ : Option Nat)
  deriving DecidableEq, Repr

/-- An issued access or command that has not been performed (12 R291). Names rise with program order. -/
structure Op where
  id : Nat
  owner : Nat                   -- name of the issuing wave or forerunner context
  core : Nat
  unit : Nat                    -- issuing unit of 06 R172 and 12 R314: 9 × core + slice
  slot : Nat                    -- the wave or block slot that its events name (17 R383)
  replay : Bool                 -- its block is a replayed attempt (17 R383)
  ctx : Nat
  block : Nat
  key : Nat                     -- KEY of the issuing block's record, 0 where there is none
  pc : DWord
  waitLoads : Nat
  waitStores : Nat
  parked : Option Nat           -- token of a translation fault it waits on (17 R364)
  denied : List Nat             -- virtual pages whose fault was answered FAIL
  horizon : Option Nat          -- its writes are performed and it completes at this package time (12 R312)
  note : List Nat               -- what it has found so far
  waits : List (Nat × Nat)      -- requests of a copy that wait on a translation fault: number and token (07 R207; 10 R267)
  got : SMap (Word × Bool)      -- source words that a copy out of scratch has read, by number, and whether poisoned (07 R204)
  reached : Nat                 -- the largest write-completion time of the writes it has performed
  epend : List Nat              -- lines on which it holds EPEND (12 R315)
  kind : OpKind
  deriving DecidableEq, Repr

/-- An outstanding translation-fault record (17 R364). -/
structure FaultRecord where
  token : Nat
  ctx : Nat
  asid : Nat
  page : Nat
  write : Bool
  fetch : Bool
  engine : Bool
  merged : Nat
  deriving DecidableEq, Repr

/-- An event record (17 R383). -/
structure Event where
  cls : BitVec 8
  sub : BitVec 8
  ctx : Nat
  vd : Nat
  replay : Bool
  core : Nat
  slot : Nat
  srck : Nat
  count : Nat
  time : Nat
  a0 : DWord
  a1 : DWord
  deriving DecidableEq, Repr

/-- An event record held by a source that waits (17 R387), with the wave that waits, if any. -/
structure HeldEvent where
  records : List Event
  waiter : Option Nat
  deriving DecidableEq, Repr

/-- The summary a die keeps of a class it could not buffer (17 R387): the first record and a count of the rest. -/
structure EventSummary where
  first : Event
  rest : Nat
  deriving DecidableEq, Repr

/-- A die's event path (17 R387). -/
structure DieEvents where
  buffer : List Event
  sums : List EventSummary
  held : List HeldEvent
  deriving DecidableEq, Repr

def DieEvents.empty : DieEvents := ⟨[], [], []⟩

/-- What an IRQ frame to the host reports (19 R393). -/
inductive Irq
  | queueFull
  | completion (ctx : Nat) (level : Nat) (id : Nat) (cancelled faulted : Bool)
  | gate (ref : Nat) (ecode : Word)
  | bringup (code : Nat)
  | port (port : Nat)
  | thermal
  deriving DecidableEq, Repr

/-! ## The core -/

/-- Where the coroutine rotation of a slice or forerunner engine stands (06 R170, R171): the rotation key, block index
and F, of the wave that runs or ran last, and whether it has passed the slice on. `none` is the start of a barrier
interval. -/
structure Turn where
  key : Option (Nat × Nat)
  passed : Bool
  deriving DecidableEq, Repr

def Turn.start : Turn := ⟨none, true⟩

/-- An A operand as an MMA or MLOOP issues (08 R233): the vector and scale registers of the wave, by their keys, with
their poison marks, the first physical register of the run and the width. -/
structure AOperand where
  width : Nat
  base : Nat
  v : SMap Word
  e : SMap Byte
  vPoison : List Nat
  ePoison : List Nat
  deriving DecidableEq, Repr

/-- The mode in force (08 R229): the mode word and the captured extra values. -/
structure MatMode where
  word : Word
  cza : Byte
  czb : Byte
  deriving DecidableEq, Repr

/-- The work of a step-queue entry (08 R231, R242 to R244). -/
inductive MatOp
  | mma (mode : MatMode) (acc : Bool) (tile : Nat) (a : AOperand) (astep n k baddr bstride bgt agt step : Nat)
  | macc (tile : Nat) (col : Bool) (h g base seq : Nat)
  | maccw (tile : Nat) (col : Bool) (h g : Nat) (data : SMap Word) (poison : List Nat)
  | mzero (tile : Nat)
  deriving DecidableEq, Repr

/-- A step-queue entry (08 R222, R240). -/
structure MatEntry where
  id : Nat
  owner : Nat                   -- name of the issuing wave
  block : Nat
  key : Nat
  width : Nat
  pc : DWord
  waitLoads : Nat               -- its reads wait for the wave's loads named below this (12 R298)
  waitStores : Nat              -- and for its stores and atomics named below this
  op : MatOp
  deriving DecidableEq, Repr

/-- A matrix engine (08 R222). Tile words have keys 4096 × tile + 64 × row + word. A writer record names context, block
index and F (R247). -/
structure Matrix where
  tiles : SMap Word
  poison : List Nat
  writers : SMap (Nat × Nat × Nat)
  mode : Option MatMode
  latch : Option AOperand
  queue : List MatEntry
  owner : Option Nat
  waiters : List Nat
  lastCtx : Option Nat          -- context of the last wave that wrote a tile (R224)
  nanw : Bool
  infw : Bool
  deriving DecidableEq, Repr

def Matrix.reset : Matrix := ⟨[], [], [], none, none, [], none, [], none, false, false⟩

/-- A logical core (06 R163). `last`, `yielded` and `turn` are per slice, 8 standing for the forerunner engine: the
slot issued last (plus one), the name of a wave to be passed over after YIELD, and, with key 16 × context + slice, the
rotation of compulsory mode. -/
structure CoreSt where
  l1 : SMap L1Line              -- by physical line
  tlb : List TlbEntry
  last : SMap Nat
  yielded : SMap Nat
  turn : SMap Turn
  mat : Matrix
  deriving DecidableEq, Repr

def CoreSt.empty : CoreSt := ⟨[], [], [], [], [], Matrix.reset⟩

/-! ## The context -/

/-- A line's signature in the conflict interval (12 R314). Units are numbered 9 × core + slice, 8 being the forerunner
engine. `wmask` keeps WMASK by the unit that set each bit. -/
structure LineSig where
  writer : Option Nat
  wmask : SMap Word
  readers : List Nat            -- units of the home's own die
  dies : List Nat               -- other virtual dies that have read
  epend : Nat                   -- engine writes outstanding
  comm : Option (Nat × Nat)     -- every access so far is this commutative atomic (operation and operand of INCW)
  deriving DecidableEq, Repr

def LineSig.empty : LineSig := ⟨none, [], [], [], 0, none⟩

/-- Residency (17 R367, R371): `preempting` until the save is done; `broken` after an image that failed its check. -/
inductive Residency | resident | preempting | saved | broken
  deriving DecidableEq, Repr

/-- A shape-table slot (10 R259). -/
structure Shape where
  valid : Bool
  gen : BitVec 20
  img : Desc
  deriving DecidableEq, Repr

def Shape.empty : Shape := ⟨false, 0, 0⟩

/-- A completion entry of a graph, phase or job (11 R284). `word` is the control word of the strongest cancel. -/
structure Node where
  live : Bool
  out : Nat
  sealed : Bool
  action : BitVec 2
  cancel : Nat                  -- 0 none, 1 soft, 2 hard
  word : Word
  cancelled : Bool
  faulted : Bool
  parent : Nat
  deriving DecidableEq, Repr

def Node.idle : Node := ⟨false, 0, false, 0, 0, 0, false, false, 0⟩

/-- Where an accepted record stands (11 R289); `completing` is from the start of R283's steps. -/
inductive RecState | waiting | queued | running | completing
  deriving DecidableEq, Repr

/-- A held SPAWN (11 R276; 17 R380): block index, F, RETIRED, address, and the block that issued it. -/
structure HeldSpawn where
  index : Nat
  first : Nat
  retired : Nat
  addr : Nat
  block : Nat
  deriving DecidableEq, Repr

/-- A queued FADDO contribution (12 R302). -/
structure Contribution where
  pa : Nat
  wide : Bool
  value : Nat
  index : Nat
  lane : Nat
  n : Nat
  block : Nat
  deriving DecidableEq, Repr

/-- An accepted record that has not completed (11 R271 to R283). -/
structure Rec where
  key : Nat
  addr : Nat
  pa : Nat
  img : Desc              -- the fields read at acceptance
  state : RecState
  queued : Nat                  -- package time at which it became QUEUED
  header : Option (BitVec 128)  -- the kernel header, once read and checked
  next : Nat                    -- the next block to place
  live : Nat                    -- placed blocks not retired
  cancel : Nat                  -- 0 none, 1 soft, 2 hard
  word : Word                   -- control word of the strongest cancel
  faulted : Bool
  held : List HeldSpawn
  contribs : List Contribution
  rhz : Nat                     -- the largest RHZ of its waves and forerunner contexts
  succ : Nat                    -- successors handled so far
  parked : Option Nat           -- token a completion is parked on
  denied : List Nat
  replays : List (Nat × Nat)    -- first blocks of the groups to be launched again, with their rink cores (17 R380)
  deriving DecidableEq, Repr

/-- Gate states (20 R412). -/
inductive GateState | free | armed | draining
  deriving DecidableEq, Repr

/-- A gate (20 R407 to R412). `block` is the block whose wave posted it. -/
structure Gate where
  state : GateState
  desc : Desc
  thr : Word
  delivered : Nat
  block : Nat
  epend : List Nat
  deriving DecidableEq, Repr

def Gate.empty : Gate := ⟨.free, 0, 0, 0, 0, []⟩

/-- An unmatched tagged arrival (20 R422, R423). -/
structure Arrival where
  vd : Nat
  source : Nat
  tag : Nat
  tile : Nat
  offset : Nat
  radd : Word
  bytes : List Byte
  poison : List Nat
  deriving DecidableEq, Repr

/-- A gate action that started in the conflict interval (21 R429): its name, gate reference and destination, and apart the
word that a tile step writes only where an element is non-finite, and then with one value (R438). -/
structure StartedAct where
  id : Nat
  ref : Nat
  dst : List (Nat × Nat)
  flag : List (Nat × Nat)
  deriving DecidableEq, Repr

/-- The GSET that set a counter: its wave and address, and where its CONFLICT event comes from once the wave has ended (17
R383; 20 R424): core, source kind, slot and whether a replayed attempt issued it. -/
structure SetBy where
  wave : Nat
  pc : DWord
  core : Nat
  srck : Nat
  slot : Nat
  replay : Bool
  deriving DecidableEq, Repr

/-- A submission that waits for acceptance (11 R276): record addresses, one batch. `denied`: the fault its first record
parked on was answered FAIL. -/
structure Batch where
  addrs : List Nat
  parked : Option Nat
  denied : List Nat
  key : Nat                     -- the record whose completion waits for it, 0 where none does
  block : Nat                   -- the block whose retirement waits for it, 0 where none does
  cancel : Option (Word × Nat)  -- a cancel that waits for its turn: control word and address
  deriving DecidableEq, Repr

/-- A context (14 R320; 17 R357; 19 R393). Counters have keys 65536 × die + index, gates 16384 × die + index. -/
structure Context where
  compulsory : Bool
  nv : Nat
  table : List Nat              -- physical die of each virtual die
  weight : Nat
  credit : Int
  traph : DWord
  root : BitVec 40
  asid : BitVec 8
  save : BitVec 40
  linktag : Half
  queueArea : DWord × Nat
  faddoArea : DWord × Nat
  sigArea : DWord × Nat
  unexpArea : DWord × Nat
  residency : Residency
  debugClaim : Bool             -- breakpoints claimed (04 R124)
  destroying : Option (Nat × Nat)   -- session and SEQ of the CTXDESTROY that waits
  preemptFor : Option (Nat × Nat)   -- session and SEQ of the PREEMPT that waits
  regions : SMap Region
  sigs : SMap LineSig           -- by physical line
  faddoMax : Nat                -- entries of the FADDO overflow list (12 R304)
  faddoFull : Bool              -- its exhaustion has been reported
  unexpFull : Bool              -- the unexpected-arrival list's exhaustion has been reported (20 R423)
  arriving : List (RputMessage × List Nat)   -- arrivals presented and not yet performed, with the lines they hold EPEND on (12 R315)
  keys : Nat                    -- the last KEY given
  ptr : Nat                     -- the dispatch pointer c
  subs : List Batch
  recs : List Rec
  graphs : SMap Node
  phases : SMap Node
  jobs : SMap Node
  cancels : List (Word × Nat)   -- cancels to be applied at restore (17 R372)
  shapes : SMap Shape
  counters : SMap Word
  marks : List Nat              -- counters changed while descheduled (20 R420)
  gates : SMap Gate
  unexp : List Arrival
  changed : SMap (Option SetBy)   -- counters changed in the interval, with the GSET that set it (20 R424)
  started : List StartedAct
  known : SMap (List Nat)       -- completions released into each counter (21 R429)
  image : Option Nat            -- the save area holds the image of this name (17 R370)
  sess : Nat                    -- the Aqpen session it belongs to (19 R392)
  arrDenied : List Nat          -- pages of arrivals whose fault was answered FAIL (17 R364; 21 R431)
  deriving DecidableEq, Repr

/-- A cluster launch's group (10 R254, R257): the first core of its logical cluster, which of the four cluster barriers
it holds, and the barrier. -/
structure Group where
  base : Nat
  slot : Nat
  bar : Barrier
  deriving DecidableEq, Repr

/-! ## The host's side -/

/-- What a response carries after its status word (19 R392, R393). -/
inductive Payload
  | none
  | session (n : Nat)
  | status (step : Nat) (kind : Byte) (bytes : Nat) (fenced : Word) (accel : BitVec 10) (svn part serial : Word)
  | number (n : Nat)
  | events (l : List Event)
  | telem (r : BitVec 288)
  | word (w : DWord)
  | bytes (l : List Byte)
  | spdm (code : Byte) (data : List Byte)
  deriving DecidableEq, Repr

/-- Whom the firmware sends a frame to (19 R399): the peer of a session, the DHCP server, the image server, or another. -/
inductive FirmwarePeer
  | session (n : Nat) | dhcp | imageServer | other
  deriving DecidableEq, Repr
/-- What the firmware does that the hardware bounds (19 R399): a frame, with whether its source MAC and IP addresses are the
device's own; reads and writes of context memory at physical addresses; fencing of UALink ports. -/
inductive FirmwareAct
  | frame (ownMac ownAddress : Bool) (peer : FirmwarePeer) (bytes : List Byte)
  | read (ctx addr n : Nat)
  | write (ctx addr : Nat) (bytes : List Byte)
  | fence (ports : Word)
  deriving DecidableEq, Repr

/-- What the device has sent to the host: a response (with the frame's SESS, SEQ and ACK, 19 R392), an IRQ, RDMA READ data, a negative acknowledgement, a congestion
notification packet, a frame of the firmware. -/
inductive HostFrame
  | response (sess seq ack : Nat) (op : Byte) (status : Nat) (p : Payload)
  | irq (sess seq ack : Nat) (i : Irq)
  | rdma (bytes : List Byte)
  | rdmaAck (ok : Bool)
  | congestion (qp : Nat)
  | firmware (peer : FirmwarePeer) (bytes : List Byte)
  deriving DecidableEq, Repr

/-- A command frame that waits: its SEQ, the context it names if it names one, the frame once it is kept. -/
structure HeldCommand where
  seq : Nat
  ctx : Option Nat
  frame : Option Instr
  deriving DecidableEq, Repr

/-- An Aqpen session (19 R394): the highest SEQ started, the commands that wait for their context, the frames that came
before their turn, the stored responses, the last SEQ the device used, its unacknowledged frames with the package time
each was sent. -/
structure Session where
  done : Nat
  held : List HeldCommand
  early : List HeldCommand
  stored : List (Nat × HostFrame)
  seq : Nat
  unacked : List (Nat × Nat × HostFrame)
  deriving DecidableEq, Repr

/-- A registered RoCEv2 region (19 R391, R393). -/
structure MemReg where
  ctx : Nat
  va : Nat
  len : Nat
  access : Word
  deriving DecidableEq, Repr

/-- What the device has sent over UALink (21 R432). -/
inductive LinkMsg
  | put (link : Half) (peer : Nat) (tagged : Bool) (raddr : DWord) (rvd rctr : Nat) (radd : Word) (bytes : List Byte)
      (poison : List Nat) (op : Nat)
  | get (link : Half) (peer : Nat) (raddr : DWord) (len op : Nat)
  | flag (link : Half) (peer rvd rctr : Nat) (radd : Word) (op : Nat)
  | data (peer token : Nat) (bytes : List Byte) (poison : List Nat)
  | ack (peer : Nat)
  | refuse (peer : Nat)
  deriving DecidableEq, Repr

/-- Bring-up (19 R395 to R398; 14 R321, R322) and power (19 R401, R402) (DEDUCED: log entry 57). -/
structure Boot where
  step : Nat                    -- 1 to 7, 8 when ready
  halted : Option Nat           -- the code of a halted device
  retried : List Nat            -- the parts of the step that have had their one retry: stacks in step 3, else 0
  partner : Bool                -- a link partner's signal has been seen
  fused : Bool                  -- the fuses have been read and locked
  svn : Word                    -- fused security version
  vendorKey : BitVec 512        -- fused digest of the vendor's key
  identity : BitVec 4096        -- the fused identity key, never readable (R400)
  goodCores : SMap (BitVec 36)  -- fused good-core bits of each die
  image : Option (Word × BitVec 512)   -- SVN and digest of the verified image
  chain : List Byte             -- the certificate chain that the image holds (R400)
  harvest : SMap (BitVec 36)
  spare : SMap (BitVec 36)
  lct : SMap Nat                -- 32 × die + logical core
  lastCore : SMap Nat           -- the physical core that a logical core without one had last (17 R382, R384)
  kind : Byte                   -- second-tier kind
  fenced : Word                 -- fenced UALink ports
  accel : BitVec 10
  errors : SMap Word            -- 256 × die + structure
  thresholds : SMap Word
  plimit : Nat
  withheld : Bool               -- issue slots withheld for power
  thermal : Nat                 -- the highest threshold crossed: 0, 95, 105, 110
  telem : BitVec 272
  pfc : Byte                    -- Ethernet priorities with flow control enabled by the host (19 R390)
  paused : List Nat             -- Ethernet priorities paused
  firmwareRead : Option (List Byte)  -- what the firmware's last read of context memory gave it (R399)
  deriving DecidableEq, Repr

def Boot.reset : Boot :=
  { step := 1, halted := none, retried := [], partner := false, fused := false, svn := 0, vendorKey := 0, identity := 0, goodCores := [], image := none, chain := []
    harvest := [(0, 0xFFFFFFFFF), (1, 0xFFFFFFFFF), (2, 0xFFFFFFFFF), (3, 0xFFFFFFFFF)], spare := [], lct := [], lastCore := []
    kind := 0, fenced := 0, accel := 0, errors := [], thresholds := [], plimit := 2600, withheld := false, thermal := 0
    telem := 0, pfc := 0, paused := [], firmwareRead := none }

/-! ## The whole machine -/

/-- What the next step does (DESIGN CHOICE: notes/assumptions/1.md): an event of an agent, an issue of a slice or a forerunner
engine, package time moving on, the driver's write of a region descriptor (12 R305), the host's choice of the Ethernet
priorities with flow control (19 R390), what the firmware does (19 R399), or the read of one source word by a copy out of
scratch (07 R204). -/
inductive Happening
  | event (i : Instr)
  | region (ctx index : Nat) (valid : Bool) (foff : BitVec 40)
  | flowControl (priorities : Byte)
  | firmware (act : FirmwareAct)
  | sourceRead (op word : Nat)
  | slice (core slice : Nat)
  | fore (core : Nat)
  | tick (n : Nat)
  deriving DecidableEq, Repr

structure State where
  pt : Nat
  waves : SMap Wave             -- by unit: 64 × core + slot; slots 32 to 39 are forerunner contexts
  blocks : SMap Block           -- by name
  cores : SMap CoreSt           -- by core: 32 × physical die + logical core; 128 + 128 × context + rink-wide core
                                -- holds what that core of a descheduled context holds (17 R369)
  ctxs : SMap Context
  groups : SMap Group
  tlb2 : SMap (List TlbEntry)   -- the slice of the second-level TLB on each physical die (17 R363)
  mem : List Host.Cell
  side : SMap Byte              -- MX sideband bytes: 8 × line + i
  poison : SMap Bool            -- poisoned 32-byte granules (17 R373), by granule
  lx : SMap Nat                 -- LX of each line (12 R294)
  tier2 : Nat                   -- installed second-tier bytes (14 R329)
  ops : List Op                 -- oldest first
  faults : List FaultRecord
  eventQ : List Event           -- the I/O die's queue (17 R383)
  dieEv : SMap DieEvents
  irqs : List Irq               -- IRQ frames not yet sent, the next first
  sessions : SMap Session
  regs : SMap MemReg
  host : List HostFrame         -- frames sent to the host, the newest last
  link : List LinkMsg           -- messages sent over UALink, the newest last
  boot : Boot
  agenda : List Happening
  cur : Option Nat              -- the unit whose instruction exec runs
  ir : Word                     -- the word it fetched
  blocked : List Nat            -- units that could not issue since the last change
  cursor : Nat                  -- where the default order looks next
  draw : Nat                    -- draws of free values taken
  fresh : Nat                   -- the next unused name
  deriving DecidableEq, Repr

/-- Why a step stops with a fault (DESIGN CHOICE: log entry 9). -/
inductive Fault
  /-- Raised by a meaning of a wave's instruction where no unit issues it: an agenda that names one as an event; safe. -/
  | noIssuer
  deriving DecidableEq, Repr

/-- Why an instruction has no meaning. -/
inductive Refusal
  /-- Raised by exec's arm of an instruction that has no meaning yet; safe. -/
  | notModelled (mnemonic : String)
  deriving DecidableEq, Repr

/-- The memory's canonical form: addresses strictly rising below 2^52, no byte equal to 0x00, which an unlisted
address reads as (DESIGN CHOICE: log entry 2). -/
def Memory.wf (m : List Host.Cell) : Bool := SMap.wf 0#8 m && m.all (fun c => decide (c.1 < 2 ^ 52))

/-- The machine right after reset (19 R395) (DESIGN CHOICE: log entry 3). -/
def State.reset : State :=
  { pt := 0, waves := [], blocks := [], cores := [], ctxs := [], groups := [], tlb2 := [], mem := [], side := [], poison := [], lx := [], tier2 := 0,
    ops := [], faults := [], eventQ := [], dieEv := [], irqs := [], sessions := [], regs := [], host := [], link := [], boot := Boot.reset, agenda := [], cur := none, ir := 0, blocked := [], cursor := 0, draw := 0, fresh := 1 }

end Sys2Proof.Machine
end

