-- ==== Sys2Proof/Machine/Ops.lean ====
section
/-!
DEFINITION. The named operations over the registers of a wave and over units, blocks and cores; the commit of the return
buffer; posting events; taking a trap and returning from one; and the issue of one instruction, which every meaning of
a wave's instruction goes through.
-/
namespace Sys2Proof.Machine

abbrev Result := Host.Outcome State Fault Refusal

/-! ## Registers of a wave -/

/-- The low `n` bits set (02 R57). -/
def lowMask (n : Nat) : DWord := BitVec.ofNat 64 (2 ^ n - 1)

def Wave.count (w : Wave) : Nat := w.lanes.length
def Wave.m0 (w : Wave) : DWord := w.regs.m.get 0 0

/-- The active lane positions in increasing order (02 R57). -/
def Wave.active (w : Wave) : List Nat := (List.range w.count).filter (fun p => w.m0.getLsbD p)

/-- The physical number of a vector or scale register field, and of the k-th register after it (02 R60). -/
def Wave.phys (w : Wave) (n : BitVec 7) (k : Nat) : Nat := w.csr.winbase + n.toNat + k

/-- The key of one lane's part of a physical register. -/
def laneKey (reg pos : Nat) : Nat := 64 * reg + pos

/-- Reads of one lane's part of a vector or scale register (the value 02 R69 makes visible). -/
def Wave.getV (w : Wave) (reg pos : Nat) : Word := w.regs.v.get 0 (laneKey reg pos)
def Wave.getE (w : Wave) (reg pos : Nat) : Byte := w.regs.e.get 0 (laneKey reg pos)
def Wave.rdV (w : Wave) (n : BitVec 7) (pos : Nat) : Word := w.getV (w.phys n 0) pos
def Wave.rdVk (w : Wave) (n : BitVec 7) (k pos : Nat) : Word := w.getV (w.phys n k) pos
def Wave.rdE (w : Wave) (n : BitVec 7) (pos : Nat) : Byte := w.getE (w.phys n 0) pos
/-- A 64-bit pair, low word in the even register (02 R62). -/
def Wave.rdV64 (w : Wave) (n : BitVec 7) (pos : Nat) : DWord := w.rdVk n 1 pos ++ w.rdVk n 0 pos

/-- Scalar registers: s0 reads 0 (04 R102). -/
def Wave.getS (w : Wave) (n : Nat) : Word := if n = 0 then 0 else w.regs.s.get 0 n
def Wave.rdS (w : Wave) (n : BitVec 7) : Word := w.getS n.toNat
def Wave.rdSk (w : Wave) (n : BitVec 7) (k : Nat) : Word := w.getS (n.toNat + k)
def Wave.rdS64 (w : Wave) (n : BitVec 7) : DWord := w.rdSk n 1 ++ w.rdSk n 0
def Wave.getM (w : Wave) (n : Nat) : DWord := w.regs.m.get 0 n

/-- An earlier pending entry no longer writes an element that a later write has made visible (02 R69). -/
def Entry.kill (x : Elem) (en : Entry) : Entry := { en with dests := en.dests.filter (fun y => y ≠ x) }
def Wave.kill (w : Wave) (x : Elem) : Wave := { w with rb := w.rb.map (Entry.kill x) }

/-- Writes of one element, clearing its poison mark (17 R376); they leave the return buffer alone. -/
def Wave.storeV (w : Wave) (key : Nat) (x : Word) : Wave :=
  { w with regs := { w.regs with v := w.regs.v.put 0 key x, vPoison := w.regs.vPoison.filter (· ≠ key) } }
def Wave.storeE (w : Wave) (key : Nat) (x : Byte) : Wave :=
  { w with regs := { w.regs with e := w.regs.e.put 0 key x, ePoison := w.regs.ePoison.filter (· ≠ key) } }
def Wave.storeS (w : Wave) (n : Nat) (x : Word) : Wave :=
  if n = 0 then w
  else { w with regs := { w.regs with s := w.regs.s.put 0 n x, sPoison := w.regs.sPoison.filter (· ≠ n) } }

/-- Writes by fixed-latency instructions, visible to the next instruction (02 R69). -/
def Wave.putV (w : Wave) (reg pos : Nat) (x : Word) : Wave :=
  (w.kill (.v (laneKey reg pos))).storeV (laneKey reg pos) x
def Wave.putE (w : Wave) (reg pos : Nat) (x : Byte) : Wave :=
  (w.kill (.e (laneKey reg pos))).storeE (laneKey reg pos) x
def Wave.putS (w : Wave) (n : Nat) (x : Word) : Wave := (w.kill (.s n)).storeS n x
def Wave.wrV (w : Wave) (n : BitVec 7) (pos : Nat) (x : Word) : Wave := w.putV (w.phys n 0) pos x
def Wave.wrVk (w : Wave) (n : BitVec 7) (k pos : Nat) (x : Word) : Wave := w.putV (w.phys n k) pos x
def Wave.wrE (w : Wave) (n : BitVec 7) (pos : Nat) (x : Byte) : Wave := w.putE (w.phys n 0) pos x
def Wave.wrV64 (w : Wave) (n : BitVec 7) (pos : Nat) (x : DWord) : Wave :=
  (w.wrVk n 0 pos (x.extractLsb' 0 32)).wrVk n 1 pos (x.extractLsb' 32 32)
def Wave.wrS (w : Wave) (n : BitVec 7) (x : Word) : Wave := w.putS n.toNat x
def Wave.wrSk (w : Wave) (n : BitVec 7) (k : Nat) (x : Word) : Wave := w.putS (n.toNat + k) x
def Wave.wrS64 (w : Wave) (n : BitVec 7) (x : DWord) : Wave :=
  (w.wrSk n 0 (x.extractLsb' 0 32)).wrSk n 1 (x.extractLsb' 32 32)

/-- A write of a mask register: reserved bits and, for m0, exited lanes stay 0 (02 R57, R75). -/
def Wave.wrM (w : Wave) (n : Nat) (x : DWord) : Wave :=
  let y := x &&& lowMask w.count
  let z := if n = 0 then y &&& ~~~w.exited else y
  { w with regs := { w.regs with m := w.regs.m.put 0 n z } }

/-- The generator of a lane (01 R25). -/
def Wave.genOf (w : Wave) (pos : Nat) : Word := w.regs.gen.get 0 pos
def Wave.setGen (w : Wave) (pos : Nat) (g : Word) : Wave :=
  { w with regs := { w.regs with gen := w.regs.gen.put 0 pos g } }

/-- Writes a result into every lane of a list, from values computed before any write (00 R9). -/
def Wave.writeLanes {α : Type} (wr : Wave → Nat → α → Wave) (vals : List (Nat × α)) (w : Wave) : Wave :=
  vals.foldl (fun w' pv => wr w' pv.1 pv.2) w

/-- The value of `f` at every active position. -/
def Wave.perLane {α : Type} (w : Wave) (f : Nat → α) : List (Nat × α) := w.active.map (fun p => (p, f p))

/-- The MODE register (02 R65); CMP and RSAFE and RDIR come from the record. -/
def modeWord (cmp rsafe rdir : Bool) (w : Wave) : Word :=
  0#25 ++ bit w.cpt ++ bit w.csr.hnd ++ bit w.fore ++ bit (w.csr.comm && !w.fore)
    ++ bit rdir ++ bit rsafe ++ bit cmp

/-- The program counter after an instruction that does not branch, which is also counted (04 R108, 02 R67). -/
def Wave.retire (w : Wave) : Wave := { w with csr := { w.csr with retired := w.csr.retired + 1 } }
def Wave.next (w : Wave) : Wave := { w.retire with pc := w.pc + 4 }
def Wave.jump (w : Wave) (target : DWord) : Wave := { w.retire with pc := target }

/-! ## The return buffer -/

/-- Every outstanding result has been delivered (02 R70). -/
def Wave.arrived (w : Wave) : Bool := w.rb.all (fun en => en.waiting = 0)

/-- Writes one delivered element. -/
def Wave.commitElem (w : Wave) (x : Elem) (v : Word) : Wave :=
  match x with
  | .v k => w.storeV k v
  | .e k => w.storeE k (v.extractLsb' 0 8)
  | .s n => w.storeS n v

/-- Commits one entry: the elements it still writes, and its flags (02 R69, R72; 01 R30). -/
def Wave.commitEntry (w : Wave) (en : Entry) : Wave :=
  if en.failed then w
  else
    let w' := en.vals.foldl (fun w' ev => if en.dests.contains ev.1 then w'.commitElem ev.1 ev.2 else w') w
    { w' with csr := { w'.csr with fsticky := w'.csr.fsticky ||| en.flags } }

/-- Commits every entry in program order and empties the return buffer (02 R70). -/
def Wave.commit (w : Wave) : Wave :=
  { w.rb.foldl Wave.commitEntry w with rb := [], parking := false }

/-- Pending result bytes (17 R368). -/
def Wave.pendingBytes (w : Wave) : Nat := w.rb.foldl (fun n en => n + en.bytes) 0

/-- A new entry takes the destinations from earlier entries only at the commit; here it is only appended. -/
def Wave.pushEntry (w : Wave) (en : Entry) : Wave := { w with rb := w.rb ++ [en] }

/-! ## Units, blocks and cores -/

def unitCore (u : Nat) : Nat := u / 64
def unitSlot (u : Nat) : Nat := u % 64
def coreDie (c : Nat) : Nat := c / 32

/-- A core of a compute die, not the place of a descheduled context's core (17 R369). -/
def onDie (core : Nat) : Bool := core < 128

/-- A core of a compute die that has not been stopped for its temperature (19 R401). -/
def State.runs (s : State) (core : Nat) : Bool := onDie core && decide (s.boot.thermal ≠ 110)

def State.wave (s : State) (u : Nat) : Option Wave := s.waves.find u
def State.setWave (s : State) (u : Nat) (w : Wave) : State := { s with waves := s.waves.ins u w }
def State.dropWave (s : State) (u : Nat) : State := { s with waves := s.waves.del u }
def State.block (s : State) (b : Nat) : Option Block := s.blocks.find b
def State.setBlock (s : State) (b : Block) : State := { s with blocks := s.blocks.ins b.uid b }
def State.ctx (s : State) (c : Nat) : Option Context := s.ctxs.find c
def State.setCtx (s : State) (c : Nat) (x : Context) : State := { s with ctxs := s.ctxs.ins c x }
def State.core (s : State) (c : Nat) : CoreSt := s.cores.get CoreSt.empty c
def State.setCore (s : State) (c : Nat) (x : CoreSt) : State := { s with cores := s.cores.put CoreSt.empty c x }

/-- The unit that holds a wave, by the wave's name. -/
def State.unitOf (s : State) (uid : Nat) : Option Nat :=
  (s.waves.find? (fun uw => uw.2.uid = uid)).map (·.1)

/-- Changes a wave, by its name, running or saved by a multi-way branch. -/
def StackEntry.onWave (uid : Nat) (f : Wave → Wave) (e : StackEntry) : StackEntry :=
  { e with saved := e.saved.map fun sw => if sw.wave.uid = uid then { sw with wave := f sw.wave } else sw }
def State.onWave (s : State) (uid : Nat) (f : Wave → Wave) : State :=
  { s with
    waves := s.waves.map fun uw => if uw.2.uid = uid then (uw.1, f uw.2) else uw
    blocks := s.blocks.map fun kb => (kb.1, { kb.2 with stack := kb.2.stack.map (StackEntry.onWave uid f) }) }

/-- The wave of a name, running or saved by a multi-way branch. -/
def State.findWave (s : State) (uid : Nat) : Option Wave :=
  match s.waves.find? fun uw => uw.2.uid = uid with
  | some uw => some uw.2
  | none => (s.blocks.flatMap fun kb => kb.2.stack.flatMap fun e => e.saved.map SavedWave.wave).find? fun w => w.uid = uid

/-- Whether operations of a name are this wave's own (DEDUCED: log entry 33). -/
def Wave.owns (w : Wave) (uid : Nat) : Bool := w.uid = uid || w.kin.contains uid
/-- Changes every wave that owns the operations of a name. -/
def StackEntry.onOwner (uid : Nat) (f : Wave → Wave) (e : StackEntry) : StackEntry :=
  { e with saved := e.saved.map fun sw => if sw.wave.owns uid then { sw with wave := f sw.wave } else sw }
def State.onOwner (s : State) (uid : Nat) (f : Wave → Wave) : State :=
  { s with
    waves := s.waves.map fun uw => if uw.2.owns uid then (uw.1, f uw.2) else uw
    blocks := s.blocks.map fun kb => (kb.1, { kb.2 with stack := kb.2.stack.map (StackEntry.onOwner uid f) }) }
def State.findOwner (s : State) (uid : Nat) : Option Wave :=
  match s.waves.find? fun uw => uw.2.owns uid with
  | some uw => some uw.2
  | none => (s.blocks.flatMap fun kb => kb.2.stack.flatMap fun e => e.saved.map SavedWave.wave).find? fun w => w.owns uid

/-- Changes a context, and a record of one. -/
def State.onCtx (s : State) (c : Nat) (f : Context → Context) : State := { s with ctxs := s.ctxs.upd c f }
def Context.onRec (x : Context) (key : Nat) (f : Rec → Rec) : Context :=
  { x with recs := x.recs.map fun r => if r.key = key then f r else r }
def Context.rec? (x : Context) (key : Nat) : Option Rec := x.recs.find? fun r => r.key = key

/-- The waves of a block (not its forerunner context), with their units. -/
def State.blockWaves (s : State) (b : Nat) : List (Nat × Wave) :=
  s.waves.filter (fun uw => uw.2.block = b && !uw.2.fore)

/-- The slice of a unit; 8 is the forerunner engine. -/
def unitSlice (u : Nat) : Nat := if unitSlot u < 32 then unitSlot u / 4 else 8

/-- The context of a block. -/
def State.ctxOf (s : State) (b : Block) : Option Context := s.ctx b.ctx

/-- Whether a block runs in compulsory mode. -/
def State.cmp (s : State) (b : Block) : Bool :=
  match s.ctx b.ctx with
  | some x => x.compulsory
  | none => false

/-- The rotation key of 06 R170: block index and the Q of position 0. -/
def rotKey (b : Block) (w : Wave) : Nat × Nat := (b.index, w.lanes.headD 0)

/-- The key of a slice's rotation for the waves of a context. -/
def turnKey (c slice : Nat) : Nat := 16 * c + slice

/-- A pass point (06 R170, R171) in compulsory mode, where the wave holds the slice; YIELD's passing over in default mode
(04 R120) when `yield`. -/
def State.passTurn (s : State) (u : Nat) (w : Wave) (yield : Bool) : State :=
  match s.block w.block with
  | none => s
  | some b =>
    let c := s.core (unitCore u)
    if s.cmp b then
      let k := turnKey b.ctx (unitSlice u)
      if c.turn.get Turn.start k = ⟨some (rotKey b w), false⟩ then
        s.setCore (unitCore u) { c with turn := c.turn.put Turn.start k ⟨some (rotKey b w), true⟩ }
      else s
    else if yield then s.setCore (unitCore u) { c with yielded := c.yielded.put 0 (unitSlice u) w.uid }
    else s

/-- Waits that are pass points (06 R170, R171) (DEDUCED: log entry 18). -/
def Wait.passes (fore : Bool) (x : Wait) : Bool :=
  match x with
  | .none | .sleep _ | .lwait .. | .fetch _ | .home _ => false
  | .waita .. => fore
  | _ => true

/-- A wave starts to wait, which passes the slice on where the wait is a pass point (DEDUCED: log entry 15). -/
def State.startWait (s : State) (u : Nat) (w : Wave) (x : Wait) : State :=
  let s1 := s.setWave u { w with wait := x, word := s.ir }
  if x.passes w.fore then s1.passTurn u w false else s1
/-- The end of a wait at an instruction: it is counted and the wave goes on after it (DEDUCED: log entry 15). -/
def Wave.resume (w : Wave) : Wave := { w.next with wait := .none }

/-- A fresh name. -/
def State.next (s : State) : State := { s with fresh := s.fresh + 1 }

/-- The virtual die of a physical die in a context. -/
def Context.vdOf (x : Context) (die : Nat) : Nat := x.table.findIdx (· = die)

/-- The rink-wide logical core number (02 R65, LCORE). -/
def rinkCore (x : Context) (core : Nat) : Nat := 32 * x.vdOf (coreDie core) + core % 32

/-! ## Events -/

/-- The most records the I/O die's queue and a die's buffer hold (17 R383, R387). -/
def eventQMax : Nat := 4096
def dieBufMax : Nat := 256

/-- Appends records to the I/O die's queue; reaching the limit raises the queue-full interrupt, ahead of every other
(17 R387, 19 R394). -/
def State.enqueue (s : State) (es : List Event) : State :=
  let q := s.eventQ ++ es
  { s with
    eventQ := q
    irqs := if s.eventQ.length < eventQMax && eventQMax ≤ q.length then .queueFull :: s.irqs else s.irqs }

/-- A summary for each class that could not be buffered (17 R387). -/
def addSummary (sums : List EventSummary) (e : Event) : List EventSummary :=
  if sums.any (fun x => x.first.cls = e.cls) then
    sums.map (fun x => if x.first.cls = e.cls then { x with rest := x.rest + 1 } else x)
  else sums ++ [⟨e, 0⟩]

/-- Nothing is kept back at a die. -/
def DieEvents.clear (d : DieEvents) : Bool := d.sums.isEmpty && d.held.isEmpty
/-- Whether the event path takes n records from a die at once. -/
def State.eventRoom (s : State) (die n : Nat) : Bool :=
  let d := s.dieEv.get DieEvents.empty die
  d.clear && ((d.buffer.isEmpty && decide (s.eventQ.length + n ≤ eventQMax)) || decide (d.buffer.length + n ≤ dieBufMax))

/-- Posts records from a die as one unit (17 R383 to R387). A source that can wait holds them; others are
summarised. -/
def State.post (s : State) (die : Nat) (canWait : Bool) (waiter : Option Nat) (es : List Event) : State :=
  let d := s.dieEv.get DieEvents.empty die
  if s.eventRoom die es.length then
    if d.buffer.isEmpty && s.eventQ.length + es.length ≤ eventQMax then s.enqueue es
    else { s with dieEv := s.dieEv.put DieEvents.empty die { d with buffer := d.buffer ++ es } }
  else if canWait then
    { s with dieEv := s.dieEv.put DieEvents.empty die { d with held := d.held ++ [⟨es, waiter⟩] } }
  else { s with dieEv := s.dieEv.put DieEvents.empty die { d with sums := es.foldl addSummary d.sums } }

/-- An event record of a source (17 R383) (DEDUCED: log entry 55). -/
def mkEvent (s : State) (cls sub ctx vd core slot srck : Nat) (replay : Bool) (a0 a1 : DWord) : Event :=
  { cls := BitVec.ofNat 8 cls, sub := BitVec.ofNat 8 sub, ctx := ctx, vd := vd, replay := replay, core := core,
    slot := slot, srck := srck, count := 1, time := s.pt, a0 := a0, a1 := a1 }

/-- The slot that events of a wave or forerunner context name (17 R383). -/
def eventSlot (u : Nat) (w : Wave) : Nat := if w.fore then unitSlot u - 32 else unitSlot u

/-- An event record of a wave or forerunner context in unit `u` (17 R383: SRCK 0 with the wave slot, SRCK 1 with the
block slot) (DEDUCED: log entry 55). -/
def waveEvent (s : State) (u : Nat) (w : Wave) (cls sub : Nat) (a0 a1 : DWord) : Event :=
  match s.block w.block with
  | none => mkEvent s cls sub 0 0 0 (unitSlot u) 0 false a0 a1
  | some b =>
    match s.ctx b.ctx with
    | none => mkEvent s cls sub b.ctx 0 0 (unitSlot u) 0 b.replay a0 a1
    | some x =>
      mkEvent s cls sub b.ctx (x.vdOf (coreDie (unitCore u))) (rinkCore x (unitCore u))
        (eventSlot u w) (if w.fore then 1 else 0) b.replay a0 a1

/-! ## Traps (02 R80, R81; 17 R355 to R358) -/

def causeIllegal : BitVec 8 := 0x01
def causeWindow : BitVec 8 := 0x02
def causeMisalign : BitVec 8 := 0x03
def causeScratchRange : BitVec 8 := 0x04
def causePage : BitVec 8 := 0x05
def causePoison : BitVec 8 := 0x06
def causeScaleCount : BitVec 8 := 0x07
def causeModeInvalid : BitVec 8 := 0x08
def causeHandleStale : BitVec 8 := 0x0F
def causeMatrixOwner : BitVec 8 := 0x10
def causeCommOnly : BitVec 8 := 0x11
def causeGateMisuse : BitVec 8 := 0x12
def causeBarrierMisuse : BitVec 8 := 0x13
def causeStashCorrupt : BitVec 8 := 0x14
def causeStackDepth : BitVec 8 := 0x15
def causeJoinUnderflow : BitVec 8 := 0x16
def causeConflict : BitVec 8 := 0x17
def causeCancel : BitVec 8 := 0x18
def causeBkpt : BitVec 8 := 0x19
def causeTrap : BitVec 8 := 0x1A

/-- The address form (17 R356); `low` is bits [5:0]. -/
def addrTrap (cause : BitVec 8) (addr : Nat) (scratch : Bool) (low : Nat) : Trap :=
  { cause := cause
    info0 := BitVec.ofNat 32 addr
    info1 := (BitVec.ofNat 25 (if scratch then 0 else addr / 2 ^ 32)) ++ bit scratch ++ BitVec.ofNat 6 low }

/-- ILLEGAL with the failing check (17 R355). -/
def illegal (s : State) (check : Nat) : Trap := ⟨causeIllegal, s.ir, BitVec.ofNat 32 check⟩
/-- A cause whose TRAPINFO0 is the word (17 R355). -/
def wordTrap (s : State) (cause : BitVec 8) (info1 : Word) : Trap := ⟨cause, s.ir, info1⟩

/-- The trap of a deferred error: the distance from the faulting instruction to TRAPPC in words, 0 where it is 64 or
more (17 R356) (DEDUCED: log entry 21). -/
def Deferred.trap (d : Deferred) (pc : DWord) : Trap :=
  let dist := (pc - d.pc).toNat / 4
  addrTrap d.cause d.addr d.scratch (if dist < 64 then dist else 0)

/-- Of a wave's deferred errors, the one it takes: of the instruction that was reported first, the one of the
lowest-position lane (17 R356) (DEDUCED: log entry 19). -/
def Deferred.lowest (d : Deferred) (more : List Deferred) : Deferred :=
  more.foldl (fun m e => if e.pc = m.pc && e.place < m.place then e else m) d

/-- Trap entry: records the cause, the information and the resume address; enters the handler, or stops the wave where
the handler runs already or the context has none, posting a wave-fault event (17 R357, R358; 04 R126). -/
def State.enterTrap (s : State) (u : Nat) (w : Wave) (t : Trap) : State :=
  let w1 := { w with
    wait := .none, denied := [], fetchDenied := false, parking := false, trapping := false
    csr := { w.csr with trapcause := t.cause, trappc := w.pc, info0 := t.info0, info1 := t.info1 } }
  let traph := match (s.block w.block).bind (fun b => s.ctx b.ctx) with
    | some x => x.traph
    | none => 0
  if w.csr.hnd || traph = 0 then
    let die := coreDie (unitCore u)
    let s1 := (s.setWave u { w1 with run := .stopped, evtHeld := !s.eventRoom die 1 }).passTurn u w1 false
    s1.post die true (some w.uid) [waveEvent s u w 2 t.cause.toNat w.pc (t.info1 ++ t.info0)]
  else s.setWave u { w1 with pc := traph, csr := { w1.csr with hnd := true } }

/-- A unit could not issue: nothing changes but the note that the step keeps (06 R168). -/
def State.stall (s : State) (u : Nat) : State := { s with blocked := u :: s.blocked }
/-- Something changed: a unit that could not issue may issue now. -/
def State.changed (s : State) : State := { s with blocked := [] }

/-- A trap of unit `u`: the wave parks, committing every earlier result; a deferred error that is pending is taken
instead (02 R80, R81) (DEDUCED: log entry 19). -/
def State.trap (s : State) (u : Nat) (w : Wave) (t : Trap) : State :=
  if !w.arrived || !w.regs.vBusy.isEmpty then (s.setWave u { w with trapping := true }).stall u
  else
    let w' := w.commit
    match w'.deferred with
    | [] => (s.enterTrap u w' t).changed
    | d :: more => (s.enterTrap u { w' with deferred := [] } ((d.lowest more).trap w.pc)).changed

/-- Return from a trap (04 R125): the handler bit clears and the program counter is TRAPPC, plus one instruction where
the trapping one is skipped. -/
def Wave.eret (w : Wave) (skip : Nat) : Wave :=
  { w.retire with csr := { w.retire.csr with hnd := false }, pc := w.csr.trappc + BitVec.ofNat 64 (4 * skip) }

/-! ## Issue of one instruction -/

/-- A register operand of an instruction: `src` and `dst` of vector, scale and scalar registers, `k` registers from
the field; `vall` is a source of which every lane is read, `vx` and `ex` sources whose lanes the instruction picks and
checks itself, `sl` a scalar source of a lane instruction, which reads it only where a lane is active (02 R74). -/
inductive Opnd
  | vs (n : BitVec 7) (k : Nat)
  | vall (n : BitVec 7) (k : Nat)
  | vd (n : BitVec 7) (k : Nat)
  | es (n : BitVec 7) (k : Nat)
  | vx (n : BitVec 7) (k : Nat)
  | ex (n : BitVec 7) (k : Nat)
  | ed (n : BitVec 7) (k : Nat)
  | ss (n : BitVec 7) (k : Nat)
  | sl (n : BitVec 7) (k : Nat)
  | sd (n : BitVec 7) (k : Nat)
  deriving DecidableEq, Repr

/-- WINDOW (02 R60, R61; 17 R355): the failing register and its class (DEDUCED: log entry 11). -/
def windowTrap (s : State) (reg : Nat) (scalar : Bool) : Trap :=
  wordTrap s causeWindow (BitVec.ofNat 32 (reg + if scalar then 512 else 0))

/-- The allocation check of one operand: the lowest-numbered register at or beyond the allocation
(DEDUCED: log entry 11). -/
def Opnd.window (w : Wave) (b : Block) : Opnd → Option (Nat × Bool)
  | .vs n k | .vall n k | .vx n k | .vd n k | .es n k | .ex n k | .ed n k =>
    if w.phys n 0 + k ≤ b.vregs then none else some (max (w.phys n 0) b.vregs, false)
  | .ss n k | .sl n k | .sd n k =>
    if n.toNat + k ≤ b.sregs then none else some (max n.toNat b.sregs, true)

/-- Whether a source holds a poisoned element that the instruction reads (17 R376) (DEDUCED: log entry 12). -/
def Opnd.poisoned (w : Wave) : Opnd → Bool
  | .vs n k => w.regs.vPoison.any (fun key =>
      decide (w.phys n 0 ≤ key / 64) && decide (key / 64 < w.phys n 0 + k) && w.m0.getLsbD (key % 64))
  | .vall n k => w.regs.vPoison.any (fun key =>
      decide (w.phys n 0 ≤ key / 64) && decide (key / 64 < w.phys n 0 + k))
  | .es n k => w.regs.ePoison.any (fun key =>
      decide (w.phys n 0 ≤ key / 64) && decide (key / 64 < w.phys n 0 + k) && w.m0.getLsbD (key % 64))
  | .ss n k => w.regs.sPoison.any (fun r => decide (n.toNat ≤ r) && decide (r < n.toNat + k))
  | .sl n k => !w.active.isEmpty && w.regs.sPoison.any (fun r => decide (n.toNat ≤ r) && decide (r < n.toNat + k))
  | .vx .. | .ex .. | .vd .. | .ed .. | .sd .. => false

/-- Whether an operand touches a register that a TCPYV still writes (10 R269). -/
def Opnd.busy (w : Wave) : Opnd → Bool
  | .vs n k | .vall n k | .vx n k | .vd n k | .es n k | .ex n k | .ed n k =>
    w.regs.vBusy.any (fun r => decide (w.phys n 0 ≤ r.2) && decide (r.2 < w.phys n 0 + k))
  | .ss .. | .sl .. | .sd .. => false

/-- Checks 5 of 03 R91 over the operands in field order (DEDUCED: log entry 11). -/
def checkWindow (s : State) (w : Wave) (b : Block) (ops : List Opnd) : Option Trap :=
  (ops.findSome? (Opnd.window w b)).map (fun rs => windowTrap s rs.1 rs.2)

/-- What the execution of an instruction comes to, once it may issue. -/
inductive Eff
  | done (s : State)
  | trap (t : Trap)
  | stall
  deriving DecidableEq, Repr

/-- How an instruction issues: whether it always parks (02 R71), the bytes of the return-buffer entry it takes
(`none`: it takes none), whether it may run where it is (03 R91 check 4), and its register operands. -/
structure Issue where
  park : Bool
  entry : Wave → Option Nat
  allowed : State → Wave → Option Trap
  opnds : List Opnd

/-- Whether the instruction parks (02 R70, R71; 17 R368). -/
def Issue.parks (i : Issue) (p : Bool) (w : Wave) : Bool :=
  p || i.park || match i.entry w with
    | none => false
    | some n => decide (16 ≤ w.rb.length) || decide (16384 < w.pendingBytes + n)

/-- The issue of one instruction of the current unit: the park and its commit, the checks of 03 R91 in their order, and
the instruction's own effect `body`, which gets the unit and its wave as the park left it
(DEDUCED: log entries 12 and 19). -/
def issue (s : State) (p : Bool) (i : Issue) (body : Nat → Wave → Block → Eff) : Result :=
  match s.cur.bind (fun u => (s.wave u).map (fun w => (u, w))) with
  | none => .fault .noIssuer
  | some (u, w) =>
    match s.block w.block with
    | none => .fault .noIssuer
    | some b =>
      if i.parks p w && !w.arrived then .next ((s.setWave u { w with parking := true }).stall u)
      else
        let w1 := if i.parks p w then w.commit else w
        match (if i.parks p w then w1.deferred else []) with
        | d :: more =>
          if w1.regs.vBusy.isEmpty then .next (s.enterTrap u { w1 with deferred := [] } ((d.lowest more).trap w.pc)).changed
          else .next ((s.setWave u { w with parking := true }).stall u)
        | [] =>
          match i.allowed s w1 with
          | some t => .next (s.trap u w1 t)
          | none =>
            match checkWindow s w1 b i.opnds with
            | some t => .next (s.trap u w1 t)
            | none =>
              if i.opnds.any (Opnd.busy w1) then .next (s.stall u)
              else if i.opnds.any (Opnd.poisoned w1) then .next (s.trap u w1 (wordTrap s causePoison 0))
              else
                match body u w1 b with
                | .done s' => .next s'.changed
                | .trap t => .next (s.trap u w1 t)
                | .stall => .next ((s.setWave u w1).stall u)

/-- Legal everywhere (04 R116). -/
def anywhere (_ : State) (_ : Wave) : Option Trap := none
/-- Illegal in the forerunner (06 R173). -/
def notFore (s : State) (w : Wave) : Option Trap := if w.fore then some (illegal s 4) else none

def noEntry (_ : Wave) : Option Nat := none

/-- A body that changes only the wave. -/
def onWave (s : State) (u : Nat) (r : Except Trap Wave) : Eff :=
  match r with
  | .ok w => .done (s.setWave u w)
  | .error t => .trap t

end Sys2Proof.Machine
end

