-- ==== Sys2Proof/Machine/Scalar.lean ====
section
/-!
DEFINITION. Scalar arithmetic, logic and immediates: SALU, SALUI, SLI and SHI (04 R102 to R107).
-/
namespace Sys2Proof.Machine

/-- A scalar instruction: d from the wave's registers, fixed latency, no exception (04 R102). -/
def scalar (s : State) (p : Bool) (ops : List Opnd) (f : Wave → Wave) : Result :=
  issue s p ⟨false, noEntry, anywhere, ops⟩ fun u w _ => .done (s.setWave u (f w).next)

/-- SALU with two word operands (04 R104). -/
def salu (s : State) (p : Bool) (d a b : BitVec 7) (f : Word → Word → Word) : Result :=
  scalar s p [.sd d 1, .ss a 1, .ss b 1] fun w => w.wrS d (f (w.rdS a) (w.rdS b))

/-- SALU with one word operand. -/
def salu1 (s : State) (p : Bool) (d a : BitVec 7) (f : Word → Word) : Result :=
  scalar s p [.sd d 1, .ss a 1] fun w => w.wrS d (f (w.rdS a))

/-- SALU over 64-bit pairs. -/
def salu64 (s : State) (p : Bool) (d a b : BitVec 7) (f : DWord → DWord → DWord) : Result :=
  scalar s p [.sd d 2, .ss a 2, .ss b 2] fun w => w.wrS64 d (f (w.rdS64 a) (w.rdS64 b))

/-- SALU that also reads d (04 R105). -/
def salu3 (s : State) (p : Bool) (d a b : BitVec 7) (f : Word → Word → Word → Word) : Result :=
  scalar s p [.ss d 1, .ss a 1, .ss b 1] fun w => w.wrS d (f (w.rdS d) (w.rdS a) (w.rdS b))

/-- A condition as the word 1 or 0. -/
def boolWord (c : Bool) : Word := if c then 1 else 0

/-- The number of leading zero bits and of one bits (04 R104). -/
def clz32 (x : Word) : Word := BitVec.ofNat 32 (if x = 0 then 32 else 31 - Nat.log2 x.toNat)
def popc (n : Nat) (x : Nat) : Nat := (List.range n).foldl (fun k i => k + x / 2 ^ i % 2) 0
def popc32 (x : Word) : Word := BitVec.ofNat 32 (popc 32 x.toNat)

/-- High words of products (04 R104). -/
def mulHiS (x y : Word) : Word := ((x.signExtend 64) * (y.signExtend 64)).extractLsb' 32 32
def mulHiN (x y : Word) : Word := ((x.setWidth 64) * (y.setWidth 64)).extractLsb' 32 32

/-- The field of a control word (04 R105): offset, the length that exists, and sign extension. -/
def fieldOff (y : Word) : Nat := (y.extractLsb' 0 5).toNat
def fieldLen (y : Word) : Nat := min (min (y.extractLsb' 8 6).toNat 32) (32 - fieldOff y)
def fieldSx (y : Word) : Bool := y.getLsbD 16

/-- Field extract and insert (04 R105; 05 R135). -/
def bfe32 (x y : Word) : Word :=
  let k := fieldLen y
  if k = 0 then 0
  else
    let f := (x >>> fieldOff y) &&& BitVec.ofNat 32 (2 ^ k - 1)
    if fieldSx y && f.getLsbD (k - 1) then f ||| ~~~(BitVec.ofNat 32 (2 ^ k - 1)) else f
def bins32 (d x y : Word) : Word :=
  let k := fieldLen y
  let mask := BitVec.ofNat 32 (2 ^ k - 1) <<< fieldOff y
  if k = 0 then d else (d &&& ~~~mask) ||| ((x <<< fieldOff y) &&& mask)

/-- The shift amount of a word operand (04 R104): its low five bits. -/
def shamt (y : Word) : Nat := (y.extractLsb' 0 5).toNat

def execSadd (p : Bool) (d a b : BitVec 7) (s : State) : Result := salu s p d a b (· + ·)
def execSsub (p : Bool) (d a b : BitVec 7) (s : State) : Result := salu s p d a b (· - ·)
def execSmul (p : Bool) (d a b : BitVec 7) (s : State) : Result := salu s p d a b (· * ·)
def execSmulhs (p : Bool) (d a b : BitVec 7) (s : State) : Result := salu s p d a b mulHiS
def execSmulhn (p : Bool) (d a b : BitVec 7) (s : State) : Result := salu s p d a b mulHiN
def execSadd64 (p : Bool) (d a b : BitVec 7) (s : State) : Result := salu64 s p d a b (· + ·)
def execSsub64 (p : Bool) (d a b : BitVec 7) (s : State) : Result := salu64 s p d a b (· - ·)
def execSand (p : Bool) (d a b : BitVec 7) (s : State) : Result := salu s p d a b (· &&& ·)
def execSor (p : Bool) (d a b : BitVec 7) (s : State) : Result := salu s p d a b (· ||| ·)
def execSxor (p : Bool) (d a b : BitVec 7) (s : State) : Result := salu s p d a b (· ^^^ ·)
def execSshl (p : Bool) (d a b : BitVec 7) (s : State) : Result := salu s p d a b fun x y => x <<< shamt y
def execSshr (p : Bool) (d a b : BitVec 7) (s : State) : Result := salu s p d a b fun x y => x >>> shamt y
def execSsra (p : Bool) (d a b : BitVec 7) (s : State) : Result := salu s p d a b fun x y => x.sshiftRight (shamt y)
def execSmins (p : Bool) (d a b : BitVec 7) (s : State) : Result :=
  salu s p d a b fun x y => if x.toInt ≤ y.toInt then x else y
def execSmaxs (p : Bool) (d a b : BitVec 7) (s : State) : Result :=
  salu s p d a b fun x y => if y.toInt ≤ x.toInt then x else y
def execSslts (p : Bool) (d a b : BitVec 7) (s : State) : Result :=
  salu s p d a b fun x y => boolWord (decide (x.toInt < y.toInt))
def execSsltn (p : Bool) (d a b : BitVec 7) (s : State) : Result :=
  salu s p d a b fun x y => boolWord (decide (x.toNat < y.toNat))
def execSseq (p : Bool) (d a b : BitVec 7) (s : State) : Result := salu s p d a b fun x y => boolWord (decide (x = y))
def execSsne (p : Bool) (d a b : BitVec 7) (s : State) : Result := salu s p d a b fun x y => boolWord (decide (x ≠ y))
def execSclz (p : Bool) (d a : BitVec 7) (s : State) : Result := salu1 s p d a clz32
def execSpopc (p : Bool) (d a : BitVec 7) (s : State) : Result := salu1 s p d a popc32
def execSbfe (p : Bool) (d a b : BitVec 7) (s : State) : Result := salu s p d a b bfe32
def execSbins (p : Bool) (d a b : BitVec 7) (s : State) : Result := salu3 s p d a b bins32
def execSdivn (p : Bool) (d a b : BitVec 7) (s : State) : Result :=
  salu s p d a b fun x y => if y = 0 then 0xFFFFFFFF else BitVec.ofNat 32 (x.toNat / y.toNat)
def execSremn (p : Bool) (d a b : BitVec 7) (s : State) : Result :=
  salu s p d a b fun x y => if y = 0 then x else BitVec.ofNat 32 (x.toNat % y.toNat)
def execSsel (p : Bool) (d a b : BitVec 7) (s : State) : Result :=
  salu3 s p d a b fun z x y => if z ≠ 0 then x else y

/-- SALUI (04 R106; 03 R86). -/
def execSaddi (p : Bool) (d a : BitVec 7) (i : BitVec 9) (s : State) : Result :=
  salu1 s p d a fun x => x + i.signExtend 32
def execSandi (p : Bool) (d a : BitVec 7) (i : BitVec 9) (s : State) : Result :=
  salu1 s p d a fun x => x &&& i.setWidth 32
def execSori (p : Bool) (d a : BitVec 7) (i : BitVec 9) (s : State) : Result :=
  salu1 s p d a fun x => x ||| i.setWidth 32
def execSxori (p : Bool) (d a : BitVec 7) (i : BitVec 9) (s : State) : Result :=
  salu1 s p d a fun x => x ^^^ i.setWidth 32
def execSshli (p : Bool) (d a : BitVec 7) (i : BitVec 5) (s : State) : Result :=
  salu1 s p d a fun x => x <<< i.toNat
def execSshri (p : Bool) (d a : BitVec 7) (i : BitVec 5) (s : State) : Result :=
  salu1 s p d a fun x => x >>> i.toNat
def execSsrai (p : Bool) (d a : BitVec 7) (i : BitVec 5) (s : State) : Result :=
  salu1 s p d a fun x => x.sshiftRight i.toNat
def execSslti (p : Bool) (d a : BitVec 7) (i : BitVec 9) (s : State) : Result :=
  salu1 s p d a fun x => boolWord (decide (x.toInt < (i.signExtend 32).toInt))

/-- SLI and SHI (04 R107). -/
def execSli (p : Bool) (d : BitVec 7) (i : BitVec 19) (s : State) : Result :=
  scalar s p [.sd d 1] fun w => w.wrS d (i.signExtend 32)
def execShi (p : Bool) (d : BitVec 7) (i : BitVec 19) (s : State) : Result :=
  scalar s p [.ss d 1] fun w => w.wrS d ((w.rdS d &&& 0x1FFF) ||| (i.setWidth 32 <<< 13))

end Sys2Proof.Machine
end

