-- ==== Sys2Proof/Machine/Control.lean ====
section
/-!
DEFINITION. Branches and jumps (04 R108 to R113).
-/
namespace Sys2Proof.Machine

/-- The target of a branch whose signed offset counts words from the branch (03 R87). -/
def branchTarget {n : Nat} (pc : DWord) (off : BitVec n) : DWord := pc + (off.signExtend 64) * 4

/-- A branch: taken to its target or on to the next instruction (04 R108). -/
def branch (s : State) (p : Bool) (allowed : State → Wave → Option Trap) (ops : List Opnd) (taken : Wave → Bool)
    (target : Wave → DWord) (link : Wave → Wave) : Result :=
  issue s p ⟨false, noEntry, allowed, ops⟩ fun u w _ =>
    .done (s.setWave u (if taken w then (link w).jump (target w) else w.next))

/-- The bits a uniform branch tests (04 R110). -/
def maskUnder (w : Wave) (k : BitVec 4) : DWord := w.getM k.toNat &&& w.m0

def execBra (p : Bool) (o : BitVec 18) (s : State) : Result :=
  branch s p anywhere [] (fun _ => true) (fun w => branchTarget w.pc o) id
def execBrany (p : Bool) (k : BitVec 4) (o : BitVec 18) (s : State) : Result :=
  branch s p notFore [] (fun w => maskUnder w k != 0) (fun w => branchTarget w.pc o) id
def execBrall (p : Bool) (k : BitVec 4) (o : BitVec 18) (s : State) : Result :=
  branch s p notFore [] (fun w => w.m0 != 0 && maskUnder w k == w.m0) (fun w => branchTarget w.pc o) id
def execBrnone (p : Bool) (k : BitVec 4) (o : BitVec 18) (s : State) : Result :=
  branch s p notFore [] (fun w => maskUnder w k == 0) (fun w => branchTarget w.pc o) id
def execCall (p : Bool) (o : BitVec 18) (s : State) : Result :=
  branch s p anywhere [] (fun _ => true) (fun w => branchTarget w.pc o) (fun w => w.wrS64 2#7 (w.pc + 4))

/-- BRS (04 R111). -/
def brs (s : State) (p : Bool) (r : BitVec 7) (o : BitVec 16) (c : Int → Bool) : Result :=
  branch s p anywhere [.ss r 1] (fun w => c (w.rdS r).toInt) (fun w => branchTarget w.pc o) id

def execBeqz (p : Bool) (r : BitVec 7) (o : BitVec 16) (s : State) : Result := brs s p r o fun v => decide (v = 0)
def execBnez (p : Bool) (r : BitVec 7) (o : BitVec 16) (s : State) : Result := brs s p r o fun v => decide (v ≠ 0)
def execBltz (p : Bool) (r : BitVec 7) (o : BitVec 16) (s : State) : Result := brs s p r o fun v => decide (v < 0)
def execBgez (p : Bool) (r : BitVec 7) (o : BitVec 16) (s : State) : Result := brs s p r o fun v => decide (0 ≤ v)
def execBgtz (p : Bool) (r : BitVec 7) (o : BitVec 16) (s : State) : Result := brs s p r o fun v => decide (0 < v)
def execBlez (p : Bool) (r : BitVec 7) (o : BitVec 16) (s : State) : Result := brs s p r o fun v => decide (v ≤ 0)

/-- A jump to a register pair, misaligned targets trapping with nothing written (04 R112). The link of JALR is written
after the target is read. -/
def jumpTo (s : State) (p : Bool) (ops : List Opnd) (a : BitVec 7) (link : Wave → Wave) : Result :=
  issue s p ⟨false, noEntry, anywhere, ops⟩ fun u w _ =>
    let t := w.rdS64 a
    if t.extractLsb' 0 2 ≠ 0#2 then .trap (addrTrap causeMisalign (t.toNat % 2 ^ 57) false 0)
    else .done (s.setWave u ((link w).jump t))

def execJr (p : Bool) (a : BitVec 7) (s : State) : Result := jumpTo s p [.ss a 2] a id
def execJalr (p : Bool) (d a : BitVec 7) (s : State) : Result :=
  jumpTo s p [.sd d 2, .ss a 2] a fun w => w.wrS64 d (w.pc + 4)

end Sys2Proof.Machine
end

