-- ==== Sys2Proof/Machine/System.lean ====
section
/-!
DEFINITION. System instructions: NOP, TRAP, ERET, BKPT, the CSR instructions, SLEEP and YIELD (04 R120, R122 to R130;
02 R65 to R67).
-/
namespace Sys2Proof.Machine

def execNop (p : Bool) (s : State) : Result :=
  issue s p ⟨false, noEntry, anywhere, []⟩ fun u w _ => .done (s.setWave u w.next)

/-- TRAP raises its cause precisely (04 R123). -/
def execTrap (p : Bool) (c : BitVec 14) (s : State) : Result :=
  issue s p ⟨true, noEntry, anywhere, []⟩ fun _ _ _ => .trap ⟨causeTrap, c.setWidth 32, 0⟩

/-- BKPT: halts for the debugger where breakpoints are claimed, else traps (04 R124) (DEDUCED: log entry 30). -/
def execBkpt (p : Bool) (s : State) : Result :=
  issue s p ⟨true, noEntry, anywhere, []⟩ fun u w b =>
    match s.ctx b.ctx with
    | some x =>
      if x.debugClaim then
        .done ((s.setWave u { w with
          run := .halted
          csr := { w.csr with trapcause := causeBkpt, trappc := w.pc, info0 := 0, info1 := 0 } }).passTurn u w false)
      else .trap ⟨causeBkpt, 0, 0⟩
    | none => .trap ⟨causeBkpt, 0, 0⟩

/-- ERET is legal only in the handler (04 R116, R125). -/
def onlyHandler (s : State) (w : Wave) : Option Trap := if w.csr.hnd then none else some (illegal s 4)

def execEret (p : Bool) (a : BitVec 7) (s : State) : Result :=
  issue s p ⟨true, noEntry, onlyHandler, []⟩ fun u w _ => .done (s.setWave u (w.eret a.toNat))

/-- YIELD changes no architectural state (04 R120). -/
def execYield (p : Bool) (s : State) : Result :=
  issue s p ⟨false, noEntry, anywhere, []⟩ fun u w _ => .done ((s.setWave u w.next).passTurn u w true)

/-- SLEEP: acts as YIELD in compulsory mode; otherwise the wave waits until PT ≥ T (04 R127) (DEDUCED: log entry 15). -/
def execSleep (p : Bool) (a : BitVec 7) (s : State) : Result :=
  issue s p ⟨false, noEntry, anywhere, [.ss a 1]⟩ fun u w b =>
    if s.cmp b then .done ((s.setWave u w.next).passTurn u w true)
    else if w.rdS a = 0 then .done (s.setWave u w.next)
    else .done (s.setWave u { w.next with wait := .sleep (s.pt + (w.rdS a).toNat) })

/-! ## Control and status registers (02 R65) -/

/-- The value a CSRR returns with fixed latency; `none` for an index that is not in the table. `CLOCK` and `RETIRED`
are read through `csrSample`. -/
def csrRead (u : Nat) (w : Wave) (b : Block) (x : Context) (i : Nat) : Option Word :=
  let c := unitCore u
  match i with
  | 0x000 => some (if w.fore then 0 else BitVec.ofNat 32 (w.first / w.width))
  | 0x001 => some (if w.fore then 0 else BitVec.ofNat 32 w.csr.wpart)
  | 0x002 => some (if w.fore then 0 else BitVec.ofNat 32 w.width)
  | 0x003 => some (match w.active with
      | p :: _ => BitVec.ofNat 32 (w.lanes.getD p 0)
      | [] => 0xFFFFFFFF)
  | 0x004 => some b.coord.1
  | 0x005 => some b.coord.2.1
  | 0x006 => some b.coord.2.2
  | 0x007 => some b.nblocks
  | 0x008 => some (b.recAddr.extractLsb' 0 32)
  | 0x009 => some (b.recAddr.extractLsb' 32 32)
  | 0x00A => some (BitVec.ofNat 32 (rinkCore x c))
  | 0x00B => some (BitVec.ofNat 32 (c % 32 / 4))
  | 0x00C => some (BitVec.ofNat 32 (x.vdOf (coreDie c)))
  | 0x00D => some (BitVec.ofNat 32 x.nv)
  | 0x014 => some (BitVec.ofNat 32 w.csr.rhz)
  | 0x015 => some w.csr.rhzHi
  | 0x020 => some (w.csr.fsticky.setWidth 32)
  | 0x021 => some (w.csr.ftrapen.setWidth 32)
  | 0x022 => some w.csr.seed
  | 0x023 => some (w.csr.cza.setWidth 32)
  | 0x024 => some (w.csr.czb.setWidth 32)
  | 0x025 => some (w.csr.zpair.setWidth 32)
  | 0x026 => some (if w.fore then 0 else BitVec.ofNat 32 w.csr.winbase)
  | 0x027 => some (modeWord x.compulsory b.rsafe b.rdir w)
  | 0x030 => some (w.csr.trapcause.setWidth 32)
  | 0x031 => some (w.csr.trappc.extractLsb' 0 32)
  | 0x032 => some (w.csr.trappc.extractLsb' 32 32)
  | 0x033 => some w.csr.info0
  | 0x034 => some w.csr.info1
  | _ => none

/-- What a CSRR of `CLOCK` or `RETIRED` samples when it is performed (02 R66, R67): in compulsory mode `CLOCK` is the
count that `RETIRED` would return (DEDUCED: log entry 15). -/
def csrSample (cmp : Bool) (w : Wave) (i : Nat) : Sample :=
  match i with
  | 0x010 => if cmp then .countLo w.csr.retired else .clockLo
  | 0x011 => .clockHi
  | 0x012 => .retiredLo w.csr.retired
  | 0x013 => .retiredHi
  | _ => .none

/-- The latch of a low read (02 R66): here `RHZ`, whose read has fixed latency (DEDUCED: log entry 15). -/
def csrLatch (w : Wave) (i : Nat) : Wave :=
  if i = 0x014 then { w with csr := { w.csr with rhzHi := BitVec.ofNat 32 (w.csr.rhz / 2 ^ 32) } } else w

def execCsrr (p : Bool) (d : BitVec 7) (i : BitVec 14) (s : State) : Result :=
  let n := i.toNat
  issue s p ⟨false, fun _ => if 0x010 ≤ n ∧ n ≤ 0x013 then some 4 else none, anywhere, [.sd d 1]⟩ fun u w b =>
    match s.ctx b.ctx with
    | none => .trap (illegal s 6)
    | some x =>
      if 0x010 ≤ n ∧ n ≤ 0x013 then
        .done ((s.setWave u (w.pushEntry
          { seq := s.fresh, pc := w.pc, bytes := 4, dests := [.s d.toNat], vals := [], waiting := 1, flags := 0,
            failed := false, sample := csrSample x.compulsory w n }).next).next)
      else match csrRead u w b x n with
        | some v => .done (s.setWave u ((csrLatch w n).wrS d v).next)
        | none => .trap (illegal s 6)

/-- The generators of every lane, active or not, reseeded (01 R26). -/
def Wave.reseed (w : Wave) (seed : Word) : Wave :=
  let w' := { w with csr := { w.csr with seed := seed } }
  (List.range w.count).foldl (fun x p => x.setGen p (seedLane seed (w.lanes.getD p 0))) w'

/-- A write of a writable CSR; `none` for a read-only index or one not in the table (02 R65). -/
def csrWrite (w : Wave) (i : Nat) (x : Word) : Option Wave :=
  match i with
  | 0x020 => some { w with csr := { w.csr with fsticky := x.extractLsb' 0 6 } }
  | 0x021 => some { w with csr := { w.csr with ftrapen := x.extractLsb' 0 6 } }
  | 0x022 => some (w.reseed x)
  | 0x023 => some { w with csr := { w.csr with cza := x.extractLsb' 0 8 } }
  | 0x024 => some { w with csr := { w.csr with czb := x.extractLsb' 0 8 } }
  | 0x025 => some { w with csr := { w.csr with zpair := x.extractLsb' 0 16 } }
  | _ => none

/-- The present value of a writable CSR. -/
def csrOld (w : Wave) (i : Nat) : Word :=
  match i with
  | 0x020 => w.csr.fsticky.setWidth 32
  | 0x021 => w.csr.ftrapen.setWidth 32
  | 0x022 => w.csr.seed
  | 0x023 => w.csr.cza.setWidth 32
  | 0x024 => w.csr.czb.setWidth 32
  | 0x025 => w.csr.zpair.setWidth 32
  | _ => 0

/-- CSRW, CSRS and CSRC: the new value from the old one and S[d] (04 R128). -/
def csrChange (s : State) (p : Bool) (d : BitVec 7) (i : BitVec 14) (f : Word → Word → Word) : Result :=
  issue s p ⟨false, noEntry, anywhere, [.ss d 1]⟩ fun u w _ =>
    match csrWrite w i.toNat (f (csrOld w i.toNat) (w.rdS d)) with
    | some w' => .done (s.setWave u w'.next)
    | none => .trap (illegal s 6)

def execCsrw (p : Bool) (d : BitVec 7) (i : BitVec 14) (s : State) : Result := csrChange s p d i fun _ x => x
def execCsrs (p : Bool) (d : BitVec 7) (i : BitVec 14) (s : State) : Result := csrChange s p d i fun o x => o ||| x
def execCsrc (p : Bool) (d : BitVec 7) (i : BitVec 14) (s : State) : Result := csrChange s p d i fun o x => o &&& ~~~x

end Sys2Proof.Machine
end

