-- ==== Sys2Proof/Machine/Operands.lean ====
section
/-!
DEFINITION. Operand forms of memory: lane addresses (07 R190), scratch addresses (07 R183), the counter window (20
R405), alignment, and the checks made at issue.
-/
namespace Sys2Proof.Machine

/-- The lane address of VLD and VST (07 R190): global addresses are 64 bits, scratch addresses 32. -/
def laneAddr (m : AddrMode) (w : Wave) (a b : BitVec 7) (q : Nat) : Nat :=
  match m with
  | .base => (w.rdS64 a + (w.rdV b q).setWidth 64).toNat
  | .pair => (w.rdV64 a q).toNat
  | .scratch => (w.rdV a q).toNat
  | .scratchBase => (w.rdS a + w.rdV b q).toNat

def isGlobalMode : AddrMode → Bool
  | .base | .pair => true
  | .scratch | .scratchBase => false

/-- The register operands of an address. -/
def addrOpnds (m : AddrMode) (a b : BitVec 7) : List Opnd :=
  match m with
  | .base => [.sl a 2, .vs b 1]
  | .pair => [.vs a 2]
  | .scratch => [.vs a 1]
  | .scratchBase => [.sl a 1, .vs b 1]

/-- Canonical: bits [63:57] all equal bit 56 (07 R190). -/
def canonical (va : Nat) : Bool := va / 2 ^ 56 = 0 || va / 2 ^ 56 = 2 ^ 8 - 1

/-- The blocks of a cluster launch (10 R253); a block that is alone is its own group. -/
def State.groupBlocks (s : State) (b : Block) : List Block :=
  (s.blocks.filter fun kb => kb.2.group = b.group).map (·.2)

/-- The target block and offset of a scratch address, where every byte exists (07 R183). -/
def scratchTarget (s : State) (b : Block) (addr size : Nat) : Option (Nat × Nat) :=
  if addr / 2 ^ 22 ≠ 0 then none
  else
    let rank := addr / 2 ^ 20
    let off := addr % 2 ^ 20
    match (s.groupBlocks b).find? fun t => t.rank = rank with
    | some t => if off + size ≤ t.scratch then some (t.uid, off) else none
    | none => none

/-- The first byte address of a wide scratch access that fails is not named; A is the access's address. -/
def scratchTrap (addr pos : Nat) : Trap := addrTrap causeScratchRange addr true pos
def misalignTrap (addr : Nat) (scratch : Bool) (pos : Nat) : Trap := addrTrap causeMisalign addr scratch pos

/-! ## The counter window (20 R405) -/

def windowBase : Nat := 0x00F0000000000000
def inWindow (va : Nat) : Bool := windowBase ≤ va && va < windowBase + 0x100000
def windowVd (va : Nat) : Nat := (va - windowBase) / 0x40000
def windowCtr (va : Nat) : Nat := (va - windowBase) % 0x40000 / 4

def gateMisuse (s : State) (reason : Nat) : Trap := wordTrap s causeGateMisuse (BitVec.ofNat 32 reason)

/-- A wave access whose address lies in the window: its kind is judged before its alignment.
Reads of it conflict in compulsory mode (20 R424) (DEDUCED: log entry 22). -/
def windowCheck (s : State) (x : Context) (va : Nat) (permitted read : Bool) : Option Trap :=
  if !inWindow va then none
  else if x.nv ≤ windowVd va then some (gateMisuse s 2)
  else if !permitted then some (gateMisuse s 1)
  else if x.compulsory && read then some (wordTrap s causeConflict 0)
  else none

/-- The checks of one address of an access at issue (07 R183, R191, R192; 20 R405): scratch range, then alignment
(DEDUCED: log entry 22). -/
def checkAddr (s : State) (x : Context) (b : Block) (glob permitted read side : Bool) (size addr pos : Nat) : Option Trap :=
  let misaligned := if side then addr / 8 % 16 ≠ 0 else addr % size ≠ 0
  if glob then
    match windowCheck s x addr permitted read with
    | some t => some t
    | none => if misaligned then some (misalignTrap addr false pos) else none
  else
    match scratchTarget s b addr 1, scratchTarget s b addr (if side then 1 else size) with
    | some _, some _ => if misaligned then some (misalignTrap addr true pos) else none
    | _, _ => some (scratchTrap addr pos)

/-- The access an address names, once checked. -/
def mkAccess (s : State) (b : Block) (glob side : Bool) (size addr : Nat) : Access :=
  if glob then ⟨true, 0, addr, size, side⟩
  else match scratchTarget s b addr 1 with
    | some (t, off) => ⟨false, t, off, size, side⟩
    | none => ⟨false, 0, addr, size, side⟩

/-- The first trap in lane order (DEDUCED: log entry 22). -/
def firstTrap (l : List (Nat × Nat)) (f : Nat → Nat → Option Trap) : Option Trap := l.findSome? fun pa => f pa.1 pa.2

/-- A wait's deadline from a timeout in ticks (06 R176): all ones is without limit (DEDUCED: log entry 31). -/
def deadline (s : State) (t : Word) : Option Nat := if t = 0xFFFFFFFF then none else some (s.pt + t.toNat)
/-- A bounded wait whose deadline has passed: the tick of the deadline is over, so a condition that became true in it
has released the wave, and one that becomes true later releases it no more (06 R176; 07 R215) (DEDUCED: log entry 31). -/
def expired (s : State) (dl : Option Nat) : Bool :=
  match dl with
  | some t => decide (t < s.pt)
  | none => false

end Sys2Proof.Machine
end

