-- ==== Sys2Proof/Machine/Memory.lean ====
section
/-!
DEFINITION. Physical memory and scratch: bytes, sidebands, poison, full/empty lines; page-table walks and translation
(17 R359 to R363; 12 R305, R306); the conflict records of compulsory mode (06 R172; 12 R314).
-/
namespace Sys2Proof.Machine

/-! ## Bytes -/

/-- A little-endian number from bytes, lowest address first (00 R5), and back. -/
def leNat (l : List Byte) : Nat := l.foldr (fun b acc => acc * 256 + b.toNat) 0
def leBytes (n x : Nat) : List Byte := (List.range n).map fun i => BitVec.ofNat 8 (x / 256 ^ i)

/-- What a byte of physical memory that nothing has written reads as (DESIGN CHOICE: notes/assumptions/2.md). -/
def Memory.default : Byte := 0#8

/-- One byte; physical addresses are 52 bits (14 R329) (DESIGN CHOICE: log entry 2). -/
def Memory.byte (m : List Host.Cell) (a : Nat) : Byte := SMap.get Memory.default m (a % 2 ^ 52)
def Memory.setByte (m : List Host.Cell) (a : Nat) (x : Byte) : List Host.Cell :=
  SMap.put Memory.default m (a % 2 ^ 52) x
def Memory.read (m : List Host.Cell) (a n : Nat) : List Byte := (List.range n).map fun i => Memory.byte m (a + i)
def Memory.write (m : List Host.Cell) (a : Nat) (l : List Byte) : List Host.Cell :=
  match l with
  | [] => m
  | x :: t => Memory.write (Memory.setByte m a x) (a + 1) t

/-- Reads of physical memory. -/
def State.read (s : State) (a n : Nat) : List Byte := Memory.read s.mem a n
def State.readNat (s : State) (a n : Nat) : Nat := leNat (s.read a n)
/-- Sideband byte i of the 128-byte line that holds a: the access's low three bits select i (07 R192)
(DEDUCED: log entry 43). -/
def sideKey (a : Nat) : Nat := a / 128 * 8 + a % 8
/-- Whether any byte of a range is poisoned (17 R373: granules of 32 bytes). -/
def State.poisoned (s : State) (a n : Nat) : Bool :=
  (List.range n).any fun i => s.poison.get false ((a + i) / 32)

/-- A write of physical bytes: a granule that the write covers wholly loses its poison mark (17 R374); one that it
covers in part and that is poisoned stays so, which an error event records (17 R375). `mark` poisons every granule the
write touches (17 R374: bytes computed from poisoned bytes) (DEDUCED: log entry 77). -/
def State.writeBytes (s : State) (die a : Nat) (l : List Byte) (mark : Bool) : State :=
  let n := l.length
  let grans := (List.range ((a + n + 31) / 32 - a / 32)).map fun k => a / 32 + k
  let s1 := { s with mem := Memory.write s.mem a l }
  grans.foldl (fun st g =>
    if mark then { st with poison := st.poison.put false g true }
    else if a ≤ 32 * g && 32 * g + 32 ≤ a + n then { st with poison := st.poison.put false g false }
    else if st.poison.get false g then
      st.post die false none [mkEvent st 7 1 0 0 0 0 7 false (BitVec.ofNat 64 a) (Config.structureCode 1)]
    else st) s1

/-! ## Scratch -/

def Block.read (b : Block) (off n : Nat) : List Byte := (List.range n).map fun i => b.data.get 0 (off + i)
def Block.lineFE (b : Block) (line : Nat) : LineFE := b.fe.get LineFE.launch line
def Block.setFE (b : Block) (line : Nat) (x : LineFE) : Block := { b with fe := b.fe.put LineFE.launch line x }
/-- Every line of a range is full (07 R185). -/
def Block.full (b : Block) (off n : Nat) : Bool := (List.range n).all fun i => (b.lineFE ((off + i) / 128)).full
def Block.poisoned (b : Block) (off n : Nat) : Bool :=
  (List.range n).any fun i => b.scrPoison.contains ((off + i) / 16)
/-- The mark of a line's first granule stands for its sideband (DEDUCED: log entry 43). -/
def Block.sidePoisoned (b : Block) (line : Nat) : Bool := b.scrPoison.contains (8 * line)
def Block.writeData (b : Block) (off : Nat) (l : List Byte) : SMap Byte :=
  ((l.zip (List.range l.length)).foldl (fun m xi => SMap.put 0#8 m (off + xi.2) xi.1) b.data)
/-- A scratch write; poison marks as in physical memory, with granules of 16 bytes (17 R373 to R375). -/
def Block.write (b : Block) (off : Nat) (l : List Byte) (mark : Bool) : Block :=
  let n := l.length
  let covered (g : Nat) : Bool := decide (off ≤ 16 * g) && decide (16 * g + 16 ≤ off + n)
  let touched := (List.range ((off + n + 15) / 16 - off / 16)).map fun k => off / 16 + k
  { b with
    data := b.writeData off l
    scrPoison := if mark then (touched ++ b.scrPoison).eraseDups else b.scrPoison.filter fun g => !covered g }
def State.onBlock (s : State) (uid : Nat) (f : Block → Block) : State :=
  match s.block uid with
  | some b => s.setBlock (f b)
  | none => s

/-! ## Translation (17 R359 to R361) -/

/-- A page-table entry's fields. -/
structure Pte where
  raw : Nat
def Pte.bit (p : Pte) (i : Nat) : Bool := p.raw / 2 ^ i % 2 = 1
def Pte.field (p : Pte) (lo n : Nat) : Nat := p.raw / 2 ^ lo % 2 ^ n
def Pte.pa (p : Pte) : Nat := p.field 12 40 * 4096

/-- Whether a physical range is memory that the context may map (14 R320, R329). -/
def populated (s : State) (x : Context) (pa n : Nat) : Bool :=
  (pa / 2 ^ 40 < 4 && (pa + n - 1) / 2 ^ 40 = pa / 2 ^ 40 && pa % 2 ^ 40 + n ≤ 192 * 2 ^ 30 && x.table.contains (pa / 2 ^ 40))
    || (2 ^ 42 ≤ pa && pa + n ≤ 2 ^ 42 + s.tier2)

/-- The home of a physical address: a compute die, or 4 for the I/O die (12 R291). -/
def homeDie (pa : Nat) : Nat := if pa < 2 ^ 42 then pa / 2 ^ 40 else 4

/-- The size of a leaf at a level (17 R359). -/
def leafSize (level : Nat) : Nat := 2 ^ (12 + 9 * level)

/-- A contiguous group of 16 entries of one table agrees (17 R360). -/
def groupOk (s : State) (table idx level : Nat) : Bool :=
  let base := idx / 16 * 16
  let e (k : Nat) : Pte := ⟨s.readNat (table + 8 * (base + k)) 8⟩
  let flags (p : Pte) : Nat := p.raw % 2 ^ 12 + p.field 52 12 * 2 ^ 12
  (e 0).pa % (16 * leafSize level) = 0 &&
    (List.range 16).all fun k => (e k).bit 4 && (e k).pa = (e 0).pa + k * leafSize level && flags (e k) = flags (e 0)

/-- The outcome of a walk (17 R361). -/
inductive Xlate
  | ok (t : TlbEntry)
  | notPresent
  | permission
  | malformed
  deriving DecidableEq, Repr

/-- A leaf entry's checks and its translation. -/
def leafEntry (s : State) (x : Context) (va table idx level : Nat) (p : Pte) : Xlate :=
  let size := leafSize level
  let sh := p.bit 9
  let region := p.field 52 12
  let rg := x.regions.get Region.empty region
  if p.field 10 2 ≠ 0 || (!sh && region ≠ 0) || (p.bit 3 && !p.bit 2) || p.pa % size ≠ 0
      || (p.bit 4 && (level = 2 || !groupOk s table idx level))
      || !populated s x p.pa size || p.bit 8 != decide (2 ^ 42 ≤ p.pa) || (sh && !rg.valid) then .malformed
  else
    let big := if p.bit 4 then 16 * size else size
    let pa0 := if p.bit 4 then p.pa / big * big else p.pa
    let face := if sh && rg.edge then (pa0 + rg.foff.toNat * 4096) % 2 ^ 52 else pa0
    .ok { asid := x.asid.toNat, va := va / big * big, size := big, pa := face, write := p.bit 3, read := p.bit 2,
          mx := p.bit 5, lease := p.field 6 2, shadow := if sh then some region else none,
          expiry := if sh then some (s.pt + 256) else none, face := if sh && rg.edge then 1 else 0 }

/-- The walk from a level's table (17 R359). Entries in a poisoned granule count by their bytes (DEDUCED: log entry 12). -/
def walkFrom (s : State) (x : Context) (va : Nat) : Nat → Nat → Xlate
  | 0, table =>
    let idx := va / 2 ^ 12 % 512
    let p : Pte := ⟨s.readNat (table + 8 * idx) 8⟩
    if !p.bit 0 then .notPresent else if p.bit 1 then .malformed else leafEntry s x va table idx 0 p
  | level + 1, table =>
    let idx := va / 2 ^ (12 + 9 * (level + 1)) % 512
    let p : Pte := ⟨s.readNat (table + 8 * idx) 8⟩
    if !p.bit 0 then .notPresent
    else if p.bit 1 then
      if p.field 2 10 ≠ 0 || p.field 52 12 ≠ 0 || !populated s x p.pa 4096 then .malformed
      else walkFrom s x va level p.pa
    else if level + 1 ≤ 2 then leafEntry s x va table idx (level + 1) p
    else .malformed

/-- Permission of a translated access (17 R361): a read needs RD, a write WR, an atomic both. -/
def Xlate.permit (t : Xlate) (read write : Bool) : Xlate :=
  match t with
  | .ok e => if (read && !e.read) || (write && !e.write) then .permission else .ok e
  | r => r

/-- A full walk of an address. A non-canonical address is an error without a walk (07 R190), and so is a window address
met by an engine (20 R405). -/
def walk (s : State) (x : Context) (va : Nat) (read write : Bool) : Xlate :=
  if !canonical va || inWindow va then .malformed
  else (walkFrom s x (va % 2 ^ 57) 4 (x.root.toNat * 4096)).permit read write

/-- Whether a TLB entry covers an address, and may still be used (17 R362; 12 R306). -/
def TlbEntry.covers (e : TlbEntry) (x : Context) (va : Nat) : Bool :=
  e.asid = x.asid.toNat && decide (e.va ≤ va % 2 ^ 57) && decide (va % 2 ^ 57 < e.va + e.size)
def TlbEntry.usable (e : TlbEntry) (pt : Nat) : Bool :=
  match e.expiry with
  | some t => decide (pt < t)
  | none => true

/-- The physical die whose slice of the second-level TLB serves an address: by the exclusive or of bits of its 2 MiB
granule (17 R363). -/
def foldBits (va from_ : Nat) : Nat := ((List.range 18).map fun i => va / 2 ^ (from_ + 2 * i) % 2).foldl (· ^^^ ·) 0
def sliceDie (x : Context) (va : Nat) : Nat :=
  let h0 := foldBits va 21
  let h1 := foldBits va 22
  x.table.getD (if x.nv = 1 then 0 else if x.nv = 2 then h0 else 2 * h1 + h0) 0

/-- The part of an entry that a slice holds: a page larger than 2 MiB is filled granule by granule (17 R363). -/
def TlbEntry.granule (e : TlbEntry) (va : Nat) : TlbEntry :=
  if e.size ≤ 2 ^ 21 then e
  else
    let g := va % 2 ^ 57 / 2 ^ 21 * 2 ^ 21
    { e with va := g, size := 2 ^ 21, pa := (e.pa + (g - e.va)) % 2 ^ 52 }

/-- A list of entries takes one in place of the page's older one (12 R309). -/
def fillList (l : List TlbEntry) (e : TlbEntry) : List TlbEntry :=
  e :: l.filter fun o => !(o.asid = e.asid && o.va = e.va && o.size = e.size)

/-- A core's TLB takes a translation (17 R363: 512 entries). -/
def State.fillTlb (s : State) (core : Nat) (e : TlbEntry) : State :=
  let c := s.core core
  s.setCore core { c with tlb := (fillList c.tlb e).take 512 }
/-- A slice of the second-level TLB takes one too (DESIGN CHOICE: log entry 83). -/
def State.fillTlb2 (s : State) (x : Context) (va : Nat) (e : TlbEntry) : State :=
  { s with tlb2 := s.tlb2.put [] (sliceDie x va) (fillList (s.tlb2.get [] (sliceDie x va)) (e.granule va)) }

/-- A TLB entry that a core may use, and one of the second level. -/
def tlbHit (s : State) (core : Nat) (x : Context) (va : Nat) : Option TlbEntry :=
  (s.core core).tlb.find? fun e => e.covers x va && e.usable s.pt
def tlb2Hit (s : State) (x : Context) (va : Nat) : Option TlbEntry :=
  (s.tlb2.get [] (sliceDie x va)).find? fun e => e.covers x va && e.usable s.pt

/-- Entries that a test picks leave every TLB. -/
def State.dropTlb (s : State) (old : TlbEntry → Bool) : State :=
  { s with
    cores := s.cores.map fun kc => (kc.1, { kc.2 with tlb := kc.2.tlb.filter fun e => !old e })
    tlb2 := (s.tlb2.map fun kl => (kl.1, kl.2.filter fun e => !old e)).filter fun kl => !kl.2.isEmpty }

/-- The translation of a shadowed page that an access has reached is kept: no later access of the core reaches an older
face (12 R309). -/
def State.keepTlb (s : State) (core : Nat) (x : Context) (va : Nat) (e : TlbEntry) : State :=
  if e.shadow.isSome then (s.fillTlb core e).fillTlb2 x va e else s

/-- A translation for a core's access: where `useTlb`, from its TLB, then from the second level's; else by a walk. What
it finds it fills (DESIGN CHOICE: log entry 83). -/
def translate (s : State) (core : Nat) (x : Context) (va : Nat) (read write useTlb : Bool) : State × Xlate :=
  match (if useTlb && canonical va then tlbHit s core x va else none) with
  | some e => (s, (Xlate.ok e).permit read write)
  | none =>
    match (if useTlb && canonical va then tlb2Hit s x va else none) with
    | some e => (s.fillTlb core e, (Xlate.ok e).permit read write)
    | none =>
      match walk s x va read write with
      | .ok e => ((s.fillTlb core e).fillTlb2 x va e, .ok e)
      | r => (s, r)

/-- The physical address of a virtual one under a translation. -/
def TlbEntry.phys (e : TlbEntry) (va : Nat) : Nat := (e.pa + (va % 2 ^ 57 - e.va)) % 2 ^ 52

/-- The physical address of an engine write's destination: the hidden face of a shadowed page unless the command names
a face (12 R306) (DEDUCED: log entry 44). -/
def enginePhys (x : Context) (e : TlbEntry) (va : Nat) (face : Option Nat) : Nat :=
  match e.shadow with
  | none => e.phys va
  | some r =>
    let rg := x.regions.get Region.empty r
    let off := rg.foff.toNat * 4096
    let pa0 := if e.face = 1 then (e.phys va + 2 ^ 52 - off) % 2 ^ 52 else e.phys va
    let want := face.getD (if rg.edge then 0 else 1)
    if want = 1 then (pa0 + off) % 2 ^ 52 else pa0

/-! ## Conflict records of compulsory mode -/

/-- The words of a line that a range touches, as a mask (DEDUCED: log entry 24). -/
def wordMask (off n : Nat) : Word :=
  (List.range ((off % 128 + n + 3) / 4 - off % 128 / 4)).foldl
    (fun m k => m ||| (1#32 <<< (off % 128 / 4 + k))) 0

/-- Whether a word of a mask was written by another unit, and the masks after a unit's write (06 R172; 12 R314). -/
def writtenByOther (words : SMap Word) (unit : Nat) (mask : Word) : Bool :=
  words.any fun e => e.1 ≠ unit && e.2 &&& mask ≠ 0
def addWords (words : SMap Word) (unit : Nat) (mask : Word) : SMap Word := words.put 0 unit (words.get 0 unit ||| mask)

/-- A scratch access in compulsory mode (06 R172): the line's new record, or `none` where it conflicts. `comm` names a
commutative integer atomic (DEDUCED: log entry 24). -/
def ScrRecord.access (r : ScrRecord) (slice : Nat) (mask : Word) (read write : Bool) (comm : Option Nat) :
    Option ScrRecord :=
  let fresh := r.writer = none && r.readers.isEmpty
  let sameComm := comm ≠ none && r.comm = comm
  let ww := write && writtenByOther r.words slice mask
  let rw := read && r.writer ≠ none && r.writer ≠ some slice
  let wr := write && r.readers.any (· ≠ slice)
  if !sameComm && (ww || rw || wr) then none
  else some
    { writer := if write then some slice else r.writer
      words := if write then addWords r.words slice mask else r.words
      readers := if read && !r.readers.contains slice then slice :: r.readers else r.readers
      comm := if fresh then comm else if sameComm then r.comm else none }

/-- A global access in compulsory mode (12 R314): the line's new signature, or `none` where it conflicts. `home` says
whether the unit is on the home's own die, `vd` its virtual die (DEDUCED: log entry 24). -/
def LineSig.access (g : LineSig) (unit vd : Nat) (home : Bool) (mask : Word) (read write : Bool)
    (comm : Option (Nat × Nat)) : Option LineSig :=
  let fresh := g.writer = none && g.readers.isEmpty && g.dies.isEmpty
  let sameComm := comm ≠ none && g.comm = comm
  let ww := write && writtenByOther g.wmask unit mask
  let rw := read && g.writer ≠ none && g.writer ≠ some unit
  let wr := write && (g.readers.any (· ≠ unit) || !g.dies.isEmpty)
  if g.epend ≠ 0 || (!sameComm && (ww || rw || wr)) then none
  else some
    { g with
      writer := if write then some unit else g.writer
      wmask := if write then addWords g.wmask unit mask else g.wmask
      readers := if read && home && !g.readers.contains unit then unit :: g.readers else g.readers
      dies := if read && !home && !g.dies.contains vd then vd :: g.dies else g.dies
      comm := if fresh then comm else if sameComm then g.comm else none }

end Sys2Proof.Machine
end

