-- ==== Sys2Proof/Machine/Vint.lean ====
section
/-!
DEFINITION. Vector integer instructions: VINT and VINTS (05 R131 to R137).
-/
namespace Sys2Proof.Machine

/-- A lane instruction with a word result: `f` gives the result of a lane from the wave as it was (05 R132). -/
def vlanes (s : State) (p : Bool) (ops : List Opnd) (d : BitVec 7) (f : Wave → Nat → Word) : Result :=
  issue s p ⟨false, noEntry, notFore, ops⟩ fun u w _ =>
    .done (s.setWave u ((Wave.writeLanes (fun w' q x => w'.wrV d q x) (w.perLane (f w)) w)).next)

/-- A lane instruction with a result in a pair. -/
def vlanes64 (s : State) (p : Bool) (ops : List Opnd) (d : BitVec 7) (f : Wave → Nat → DWord) : Result :=
  issue s p ⟨false, noEntry, notFore, ops⟩ fun u w _ =>
    .done (s.setWave u ((Wave.writeLanes (fun w' q x => w'.wrV64 d q x) (w.perLane (f w)) w)).next)

/-- VINT: both operands vector registers; VINTS: the second a scalar register (05 R137). -/
def vint (s : State) (p : Bool) (d a b : BitVec 7) (f : Word → Word → Word) : Result :=
  vlanes s p [.vd d 1, .vs a 1, .vs b 1] d fun w q => f (w.rdV a q) (w.rdV b q)
def vints (s : State) (p : Bool) (d a b : BitVec 7) (f : Word → Word → Word) : Result :=
  vlanes s p [.vd d 1, .vs a 1, .sl b 1] d fun w q => f (w.rdV a q) (w.rdS b)

/-- The forms that also read d: the third argument. -/
def vint3 (s : State) (p : Bool) (d a b : BitVec 7) (f : Word → Word → Word → Word) : Result :=
  vlanes s p [.vs d 1, .vs a 1, .vs b 1] d fun w q => f (w.rdV a q) (w.rdV b q) (w.rdV d q)
def vints3 (s : State) (p : Bool) (d a b : BitVec 7) (f : Word → Word → Word → Word) : Result :=
  vlanes s p [.vs d 1, .vs a 1, .sl b 1] d fun w q => f (w.rdV a q) (w.rdS b) (w.rdV d q)

/-- The 64-bit forms over pairs. -/
def vint64 (s : State) (p : Bool) (d a b : BitVec 7) (f : DWord → DWord → DWord) : Result :=
  vlanes64 s p [.vd d 2, .vs a 2, .vs b 2] d fun w q => f (w.rdV64 a q) (w.rdV64 b q)
def vints64 (s : State) (p : Bool) (d a b : BitVec 7) (f : DWord → DWord → DWord) : Result :=
  vlanes64 s p [.vd d 2, .vs a 2, .sl b 2] d fun w q => f (w.rdV64 a q) (w.rdS64 b)

/-- The functions of VINT and VINTS (05 R137): x, y and, where d is read, z. -/
def opShl (x y : Word) : Word := x <<< shamt y
def opShr (x y : Word) : Word := x >>> shamt y
def opSra (x y : Word) : Word := x.sshiftRight (shamt y)
def opMinS (x y : Word) : Word := if x.toInt ≤ y.toInt then x else y
def opMaxS (x y : Word) : Word := if y.toInt ≤ x.toInt then x else y
def opMinN (x y : Word) : Word := if x.toNat ≤ y.toNat then x else y
def opMaxN (x y : Word) : Word := if y.toNat ≤ x.toNat then x else y
def clampS32 (i : Int) : Word := BitVec.ofInt 32 (max (-(2 ^ 31 : Int)) (min i (2 ^ 31 - 1)))
def opAddSS (x y : Word) : Word := clampS32 (x.toInt + y.toInt)
def opSubSS (x y : Word) : Word := clampS32 (x.toInt - y.toInt)
def opMad (x y z : Word) : Word := x * y + z
def opBins (x y z : Word) : Word := bins32 z x y

def execVadd (p : Bool) (d a b : BitVec 7) (s : State) : Result := vint s p d a b (· + ·)
def execVsub (p : Bool) (d a b : BitVec 7) (s : State) : Result := vint s p d a b (· - ·)
def execVmul (p : Bool) (d a b : BitVec 7) (s : State) : Result := vint s p d a b (· * ·)
def execVmulhs (p : Bool) (d a b : BitVec 7) (s : State) : Result := vint s p d a b mulHiS
def execVmad (p : Bool) (d a b : BitVec 7) (s : State) : Result := vint3 s p d a b opMad
def execVadd64 (p : Bool) (d a b : BitVec 7) (s : State) : Result := vint64 s p d a b (· + ·)
def execVsub64 (p : Bool) (d a b : BitVec 7) (s : State) : Result := vint64 s p d a b (· - ·)
def execVand (p : Bool) (d a b : BitVec 7) (s : State) : Result := vint s p d a b (· &&& ·)
def execVor (p : Bool) (d a b : BitVec 7) (s : State) : Result := vint s p d a b (· ||| ·)
def execVxor (p : Bool) (d a b : BitVec 7) (s : State) : Result := vint s p d a b (· ^^^ ·)
def execVandn (p : Bool) (d a b : BitVec 7) (s : State) : Result := vint s p d a b fun x y => x &&& ~~~y
def execVshl (p : Bool) (d a b : BitVec 7) (s : State) : Result := vint s p d a b opShl
def execVshr (p : Bool) (d a b : BitVec 7) (s : State) : Result := vint s p d a b opShr
def execVsra (p : Bool) (d a b : BitVec 7) (s : State) : Result := vint s p d a b opSra
def execVmins (p : Bool) (d a b : BitVec 7) (s : State) : Result := vint s p d a b opMinS
def execVmaxs (p : Bool) (d a b : BitVec 7) (s : State) : Result := vint s p d a b opMaxS
def execVminn (p : Bool) (d a b : BitVec 7) (s : State) : Result := vint s p d a b opMinN
def execVmaxn (p : Bool) (d a b : BitVec 7) (s : State) : Result := vint s p d a b opMaxN
def execVaddss (p : Bool) (d a b : BitVec 7) (s : State) : Result := vint s p d a b opAddSS
def execVsubss (p : Bool) (d a b : BitVec 7) (s : State) : Result := vint s p d a b opSubSS
def execVclz (p : Bool) (d a : BitVec 7) (s : State) : Result :=
  vlanes s p [.vd d 1, .vs a 1] d fun w q => clz32 (w.rdV a q)
def execVpopc (p : Bool) (d a : BitVec 7) (s : State) : Result :=
  vlanes s p [.vd d 1, .vs a 1] d fun w q => popc32 (w.rdV a q)
def execVbfe (p : Bool) (d a b : BitVec 7) (s : State) : Result := vint s p d a b bfe32
def execVbins (p : Bool) (d a b : BitVec 7) (s : State) : Result := vint3 s p d a b opBins

/-- VMOV moves the scale with the data (05 R134, R137). -/
def execVmov (p : Bool) (d a : BitVec 7) (s : State) : Result :=
  issue s p ⟨false, noEntry, notFore, [.vd d 1, .vs a 1, .es a 1]⟩ fun u w _ =>
    .done (s.setWave u ((Wave.writeLanes (fun w' q (x : Word × Byte) => (w'.wrV d q x.1).wrE d q x.2)
      (w.perLane fun q => (w.rdV a q, w.rdE a q)) w)).next)
def execVlaneid (p : Bool) (d : BitVec 7) (s : State) : Result :=
  vlanes s p [.vd d 1] d fun w q => BitVec.ofNat 32 (w.lanes.getD q 0)

def execVaddScalar (p : Bool) (d a b : BitVec 7) (s : State) : Result := vints s p d a b (· + ·)
def execVsubScalar (p : Bool) (d a b : BitVec 7) (s : State) : Result := vints s p d a b (· - ·)
def execVmulScalar (p : Bool) (d a b : BitVec 7) (s : State) : Result := vints s p d a b (· * ·)
def execVmulhsScalar (p : Bool) (d a b : BitVec 7) (s : State) : Result := vints s p d a b mulHiS
def execVmadScalar (p : Bool) (d a b : BitVec 7) (s : State) : Result := vints3 s p d a b opMad
def execVadd64Scalar (p : Bool) (d a b : BitVec 7) (s : State) : Result := vints64 s p d a b (· + ·)
def execVsub64Scalar (p : Bool) (d a b : BitVec 7) (s : State) : Result := vints64 s p d a b (· - ·)
def execVandScalar (p : Bool) (d a b : BitVec 7) (s : State) : Result := vints s p d a b (· &&& ·)
def execVorScalar (p : Bool) (d a b : BitVec 7) (s : State) : Result := vints s p d a b (· ||| ·)
def execVxorScalar (p : Bool) (d a b : BitVec 7) (s : State) : Result := vints s p d a b (· ^^^ ·)
def execVandnScalar (p : Bool) (d a b : BitVec 7) (s : State) : Result := vints s p d a b fun x y => x &&& ~~~y
def execVshlScalar (p : Bool) (d a b : BitVec 7) (s : State) : Result := vints s p d a b opShl
def execVshrScalar (p : Bool) (d a b : BitVec 7) (s : State) : Result := vints s p d a b opShr
def execVsraScalar (p : Bool) (d a b : BitVec 7) (s : State) : Result := vints s p d a b opSra
def execVminsScalar (p : Bool) (d a b : BitVec 7) (s : State) : Result := vints s p d a b opMinS
def execVmaxsScalar (p : Bool) (d a b : BitVec 7) (s : State) : Result := vints s p d a b opMaxS
def execVminnScalar (p : Bool) (d a b : BitVec 7) (s : State) : Result := vints s p d a b opMinN
def execVmaxnScalar (p : Bool) (d a b : BitVec 7) (s : State) : Result := vints s p d a b opMaxN
def execVaddssScalar (p : Bool) (d a b : BitVec 7) (s : State) : Result := vints s p d a b opAddSS
def execVsubssScalar (p : Bool) (d a b : BitVec 7) (s : State) : Result := vints s p d a b opSubSS
def execVbfeScalar (p : Bool) (d a b : BitVec 7) (s : State) : Result := vints s p d a b bfe32
def execVbinsScalar (p : Bool) (d a b : BitVec 7) (s : State) : Result := vints3 s p d a b opBins
def execVmovScalar (p : Bool) (d b : BitVec 7) (s : State) : Result :=
  vlanes s p [.vd d 1, .sl b 1] d fun w _ => w.rdS b

end Sys2Proof.Machine
end

