-- ==== Sys2Proof/Machine/Vfloat.lean ====
section
/-!
DEFINITION. Vector floating point: VF32, VF64, VF16, VBF16, VFMISC and VCMP (05 R136, R138 to R142, R149).
-/
namespace Sys2Proof.Machine

/-- What one lane of a floating-point instruction delivers: its value, its exceptions, and its generator. -/
structure LaneOut (α : Type) where
  val : α
  flags : FpFlags
  gen : Word

/-- The trap of the first enabled exception (01 R31; 17 R355), if any lane raised one. -/
def fpTrap (w : Wave) (raised : List (Nat × FpFlags)) : Option Trap :=
  match firstEnabled (flagUnion raised) w.csr.ftrapen with
  | none => none
  | some k =>
    let m := flagLanes k raised
    some ⟨flagCause k, m.extractLsb' 0 32, m.extractLsb' 32 32⟩

/-- Flags that do not trap are set (01 R30). -/
def Wave.raise (w : Wave) (f : FpFlags) : Wave := { w with csr := { w.csr with fsticky := w.csr.fsticky ||| f } }

/-- Delivers the lanes' results: a trap and nothing else where an enabled exception was raised, else the values, the
generators and the flags (01 R27, R30, R31). -/
def fpDeliver {α : Type} (w : Wave) (wr : Wave → Nat → α → Wave) (outs : List (Nat × LaneOut α)) : Except Trap Wave :=
  let raised := outs.map fun o => (o.1, o.2.flags)
  match fpTrap w raised with
  | some t => .error t
  | none =>
    .ok (((Wave.writeLanes (fun w' q (o : LaneOut α) => (wr w' q o.val).setGen q o.gen) outs w)).raise
      (flagUnion raised))

/-- A fixed-latency floating-point lane instruction. -/
def fpLanes {α : Type} (s : State) (p : Bool) (ops : List Opnd) (wr : Wave → Nat → α → Wave)
    (f : Wave → Nat → LaneOut α) : Result :=
  issue s p ⟨false, noEntry, notFore, ops⟩ fun u w _ =>
    onWave s u ((fpDeliver w wr (w.perLane (f w))).map Wave.next)

/-- The draw a rounding takes (01 R27): the generator after it and the draw. -/
def drawFor (r : Rounding) (g : Word) : Word × Nat :=
  if r = .rsr then (drawStep g, (drawStep g).toNat) else (g, 0)

/-- An operation on codes with a draw: x, y, z. -/
abbrev FpOp := Rounding → Nat → Nat → Nat → Nat → FpRes

def opFadd (f : Fmt) : FpOp := fun r x y _ D => fpAdd f r x y D
def opFsub (f : Fmt) : FpOp := fun r x y _ D => fpSub f r x y D
def opFmul (f : Fmt) : FpOp := fun r x y _ D => fpMul f r x y D
def opFfma (f : Fmt) : FpOp := fun r x y z D => fpFma f r x y z D

/-- The destination as an operand: VFFMA reads it too (05 R138). -/
def fdst (acc : Bool) (d : BitVec 7) (k : Nat) : Opnd := if acc then .vs d k else .vd d k

/-- VF32 (05 R138); `acc` where the old destination is an operand. -/
def vf32 (s : State) (p : Bool) (d a b : BitVec 7) (r : Rounding) (acc : Bool) (op : FpOp) : Result :=
  fpLanes s p [fdst acc d 1, .vs a 1, .vs b 1] (fun w q x => w.wrV d q x) fun w q =>
    let (g, D) := drawFor r (w.genOf q)
    let o := op r (w.rdV a q).toNat (w.rdV b q).toNat (w.rdV d q).toNat D
    ⟨BitVec.ofNat 32 o.code, o.flags, g⟩

/-- VF64 over pairs (05 R138). -/
def vf64 (s : State) (p : Bool) (d a b : BitVec 7) (r : Rounding) (acc : Bool) (op : FpOp) : Result :=
  fpLanes s p [fdst acc d 2, .vs a 2, .vs b 2] (fun w q x => w.wrV64 d q x) fun w q =>
    let (g, D) := drawFor r (w.genOf q)
    let o := op r (w.rdV64 a q).toNat (w.rdV64 b q).toNat (w.rdV64 d q).toNat D
    ⟨BitVec.ofNat 64 o.code, o.flags, g⟩

/-- Element 0 and element 1 of a packed word (01 R14). -/
def half (x : Word) (k : Nat) : Nat := (x.extractLsb' (16 * k) 16).toNat

/-- VF16 and VBF16: two elements per lane, element 0 first (01 R14, R27). -/
def vfPacked (s : State) (p : Bool) (d a b : BitVec 7) (r : Rounding) (acc : Bool) (op : FpOp) : Result :=
  fpLanes s p [fdst acc d 1, .vs a 1, .vs b 1] (fun w q x => w.wrV d q x) fun w q =>
    let (g0, D0) := drawFor r (w.genOf q)
    let (g1, D1) := drawFor r g0
    let x := w.rdV a q
    let y := w.rdV b q
    let z := w.rdV d q
    let o0 := op r (half x 0) (half y 0) (half z 0) D0
    let o1 := op r (half x 1) (half y 1) (half z 1) D1
    ⟨BitVec.ofNat 16 o1.code ++ BitVec.ofNat 16 o0.code, o0.flags ||| o1.flags, g1⟩

def execVfaddF32 (p : Bool) (d a b : BitVec 7) (r : Rounding) (s : State) : Result := vf32 s p d a b r false (opFadd f32)
def execVfsubF32 (p : Bool) (d a b : BitVec 7) (r : Rounding) (s : State) : Result := vf32 s p d a b r false (opFsub f32)
def execVfmulF32 (p : Bool) (d a b : BitVec 7) (r : Rounding) (s : State) : Result := vf32 s p d a b r false (opFmul f32)
def execVffmaF32 (p : Bool) (d a b : BitVec 7) (r : Rounding) (s : State) : Result := vf32 s p d a b r true (opFfma f32)
def execVfaddF64 (p : Bool) (d a b : BitVec 7) (r : Rounding) (s : State) : Result := vf64 s p d a b r false (opFadd f64)
def execVfsubF64 (p : Bool) (d a b : BitVec 7) (r : Rounding) (s : State) : Result := vf64 s p d a b r false (opFsub f64)
def execVfmulF64 (p : Bool) (d a b : BitVec 7) (r : Rounding) (s : State) : Result := vf64 s p d a b r false (opFmul f64)
def execVffmaF64 (p : Bool) (d a b : BitVec 7) (r : Rounding) (s : State) : Result := vf64 s p d a b r true (opFfma f64)
def execVfaddF16 (p : Bool) (d a b : BitVec 7) (r : Rounding) (s : State) : Result := vfPacked s p d a b r false (opFadd f16)
def execVfsubF16 (p : Bool) (d a b : BitVec 7) (r : Rounding) (s : State) : Result := vfPacked s p d a b r false (opFsub f16)
def execVfmulF16 (p : Bool) (d a b : BitVec 7) (r : Rounding) (s : State) : Result := vfPacked s p d a b r false (opFmul f16)
def execVffmaF16 (p : Bool) (d a b : BitVec 7) (r : Rounding) (s : State) : Result := vfPacked s p d a b r true (opFfma f16)
def execVfaddBf16 (p : Bool) (d a b : BitVec 7) (r : Rounding) (s : State) : Result := vfPacked s p d a b r false (opFadd bf16)
def execVfsubBf16 (p : Bool) (d a b : BitVec 7) (r : Rounding) (s : State) : Result := vfPacked s p d a b r false (opFsub bf16)
def execVfmulBf16 (p : Bool) (d a b : BitVec 7) (r : Rounding) (s : State) : Result := vfPacked s p d a b r false (opFmul bf16)
def execVffmaBf16 (p : Bool) (d a b : BitVec 7) (r : Rounding) (s : State) : Result := vfPacked s p d a b r true (opFfma bf16)

/-! ## VFMISC (05 R139 to R142) -/

/-- minimumNumber and maximumNumber: the number where exactly one operand is NaN, −0 below +0 (05 R139). -/
def fpMinMax (f : Fmt) (isMax : Bool) (a b : Nat) : FpRes :=
  let x := f.decode a
  let y := f.decode b
  let fl := flagIf (x.isSnan || y.isSnan) flagNV
  if x.isNan && y.isNan then ⟨f.nan, fl⟩
  else if x.isNan then ⟨b, fl⟩
  else if y.isNan then ⟨a, fl⟩
  else
    let le := match FVal.cmp x y with
      | .lt => true
      | .gt => false
      | .eq => x.isNeg || !y.isNeg
    ⟨if le != isMax then a else b, fl⟩

/-- The class mask of 05 R140. -/
def fpClass (f : Fmt) (a : Nat) : Word :=
  let bitNo : Nat := match f.decode a with
    | .nan true => 8
    | .nan false => 9
    | .inf n => if n then 0 else 7
    | .fin n m _ =>
      if m = 0 then (if n then 3 else 4)
      else if m < 2 ^ f.fb then (if n then 2 else 5)
      else (if n then 1 else 6)
  1#32 <<< bitNo

/-- x × 2^n (05 R141). Every n beyond ±8,192 gives the same result as ±8,192, in either format (DEDUCED: log entry 14). -/
def fpScale (f : Fmt) (a : Nat) (n : Int) : FpRes :=
  match f.decode a with
  | .nan sg => f.nanRes sg
  | .inf g => ⟨f.inf g, 0⟩
  | .fin g m e => f.round .rne false g m (e + max (-8192) (min n 8192)) false 0

/-- ⌊log2 |x|⌋ as s32 (05 R142). -/
def fpGex (f : Fmt) (a : Nat) : FpRes :=
  match f.decode a with
  | .nan sg => ⟨0x7FFFFFFF, flagIf sg flagNV⟩
  | .inf _ => ⟨0x7FFFFFFF, 0⟩
  | .fin _ m e => if m = 0 then ⟨0x80000000, 0⟩ else ⟨(BitVec.ofInt 32 ((Nat.log2 m : Int) + e)).toNat, 0⟩

/-- Lane instructions from one or two operands, each 32 or 64 bits wide, without draws. -/
def vfUn (s : State) (p : Bool) (d a : BitVec 7) (f : Nat → FpRes) : Result :=
  fpLanes s p [.vd d 1, .vs a 1] (fun w q x => w.wrV d q x) fun w q =>
    let o := f (w.rdV a q).toNat
    ⟨BitVec.ofNat 32 o.code, o.flags, w.genOf q⟩
def vfUn64 (s : State) (p : Bool) (d a : BitVec 7) (f : Nat → FpRes) : Result :=
  fpLanes s p [.vd d 2, .vs a 2] (fun w q x => w.wrV64 d q x) fun w q =>
    let o := f (w.rdV64 a q).toNat
    ⟨BitVec.ofNat 64 o.code, o.flags, w.genOf q⟩
def vfUn64to32 (s : State) (p : Bool) (d a : BitVec 7) (f : Nat → FpRes) : Result :=
  fpLanes s p [.vd d 1, .vs a 2] (fun w q x => w.wrV d q x) fun w q =>
    let o := f (w.rdV64 a q).toNat
    ⟨BitVec.ofNat 32 o.code, o.flags, w.genOf q⟩
def vfBin (s : State) (p : Bool) (d a b : BitVec 7) (f : Nat → Nat → FpRes) : Result :=
  fpLanes s p [.vd d 1, .vs a 1, .vs b 1] (fun w q x => w.wrV d q x) fun w q =>
    let o := f (w.rdV a q).toNat (w.rdV b q).toNat
    ⟨BitVec.ofNat 32 o.code, o.flags, w.genOf q⟩
def vfBin64 (s : State) (p : Bool) (d a b : BitVec 7) (f : Nat → Nat → FpRes) : Result :=
  fpLanes s p [.vd d 2, .vs a 2, .vs b 2] (fun w q x => w.wrV64 d q x) fun w q =>
    let o := f (w.rdV64 a q).toNat (w.rdV64 b q).toNat
    ⟨BitVec.ofNat 64 o.code, o.flags, w.genOf q⟩

def execVfminF32 (p : Bool) (d a b : BitVec 7) (s : State) : Result := vfBin s p d a b (fpMinMax f32 false)
def execVfmaxF32 (p : Bool) (d a b : BitVec 7) (s : State) : Result := vfBin s p d a b (fpMinMax f32 true)
def execVfminF64 (p : Bool) (d a b : BitVec 7) (s : State) : Result := vfBin64 s p d a b (fpMinMax f64 false)
def execVfmaxF64 (p : Bool) (d a b : BitVec 7) (s : State) : Result := vfBin64 s p d a b (fpMinMax f64 true)
def execVfabsF32 (p : Bool) (d a : BitVec 7) (s : State) : Result := vfUn s p d a fun x => ⟨x % 2 ^ 31, 0⟩
def execVfnegF32 (p : Bool) (d a : BitVec 7) (s : State) : Result := vfUn s p d a fun x => ⟨x ^^^ 2 ^ 31, 0⟩
def execVfabsF64 (p : Bool) (d a : BitVec 7) (s : State) : Result := vfUn64 s p d a fun x => ⟨x % 2 ^ 63, 0⟩
def execVfnegF64 (p : Bool) (d a : BitVec 7) (s : State) : Result := vfUn64 s p d a fun x => ⟨x ^^^ 2 ^ 63, 0⟩
def execVfclassF32 (p : Bool) (d a : BitVec 7) (s : State) : Result :=
  vfUn s p d a fun x => ⟨(fpClass f32 x).toNat, 0⟩
def execVfclassF64 (p : Bool) (d a : BitVec 7) (s : State) : Result :=
  vfUn64to32 s p d a fun x => ⟨(fpClass f64 x).toNat, 0⟩
def execVfsclF32 (p : Bool) (d a b : BitVec 7) (s : State) : Result :=
  vfBin s p d a b fun x n => fpScale f32 x (BitVec.ofNat 32 n).toInt
def execVfsclF64 (p : Bool) (d a b : BitVec 7) (s : State) : Result :=
  fpLanes s p [.vd d 2, .vs a 2, .vs b 1] (fun w q x => w.wrV64 d q x) fun w q =>
    let o := fpScale f64 (w.rdV64 a q).toNat (w.rdV b q).toInt
    ⟨BitVec.ofNat 64 o.code, o.flags, w.genOf q⟩
def execVfgexF32 (p : Bool) (d a : BitVec 7) (s : State) : Result := vfUn s p d a (fpGex f32)
def execVfgexF64 (p : Bool) (d a : BitVec 7) (s : State) : Result := vfUn64to32 s p d a (fpGex f64)

/-! ## VCMP (05 R149) -/

/-- A condition on an order; `none` is unordered. -/
def condHolds (c : Cond) (o : Option Ordering) : Bool :=
  match o, c with
  | none, .ne => true
  | none, .un => true
  | none, _ => false
  | some .eq, .eq => true
  | some .eq, .le => true
  | some .eq, .ge => true
  | some .lt, .lt => true
  | some .lt, .le => true
  | some .lt, .ne => true
  | some .gt, .gt => true
  | some .gt, .ge => true
  | some .gt, .ne => true
  | some _, .or => true
  | some _, _ => false

/-- Whether a condition raises invalid for any NaN, not only for a signalling one. -/
def condSignals (c : Cond) : Bool :=
  match c with
  | .lt | .le | .gt | .ge => true
  | .eq | .ne | .un | .or => false

def fpCompare (f : Fmt) (c : Cond) (a b : Nat) : Bool × FpFlags :=
  let x := f.decode a
  let y := f.decode b
  let nan := x.isNan || y.isNan
  (condHolds c (if nan then none else some (x.cmp y)),
    flagIf (x.isSnan || y.isSnan || (nan && condSignals c)) flagNV)

def intCompare (c : Cond) (x y : Int) : Bool × FpFlags :=
  (condHolds c (some (compare x y)), 0)

/-- The mask with the bits of the lanes for which the comparison holds. -/
def maskOf (l : List (Nat × Bool)) : DWord :=
  l.foldl (fun m pb => if pb.2 then m ||| (1#64 <<< pb.1) else m) 0

/-- VCMP: nothing with m0 zero; otherwise every bit of the mask is written (05 R149). -/
def vcmp (s : State) (p : Bool) (ops : List Opnd) (d : BitVec 7) (f : Wave → Nat → Bool × FpFlags) : Result :=
  issue s p ⟨false, noEntry, notFore, ops⟩ fun u w _ =>
    let outs := w.perLane (f w)
    match fpTrap w (outs.map fun o => (o.1, o.2.2)) with
    | some t => .trap t
    | none =>
      let w' := if w.active.isEmpty then w else w.wrM d.toNat (maskOf (outs.map fun o => (o.1, o.2.1)))
      .done (s.setWave u (w'.raise (flagUnion (outs.map fun o => (o.1, o.2.2)))).next)

def execVcmpF32 (p : Bool) (d a b : BitVec 7) (c : Cond) (s : State) : Result :=
  vcmp s p [.vs a 1, .vs b 1] d fun w q => fpCompare f32 c (w.rdV a q).toNat (w.rdV b q).toNat
def execVcmpF64 (p : Bool) (d a b : BitVec 7) (c : Cond) (s : State) : Result :=
  vcmp s p [.vs a 2, .vs b 2] d fun w q => fpCompare f64 c (w.rdV64 a q).toNat (w.rdV64 b q).toNat
def execVcmpS32 (p : Bool) (d a b : BitVec 7) (c : Cond) (s : State) : Result :=
  vcmp s p [.vs a 1, .vs b 1] d fun w q => intCompare c (w.rdV a q).toInt (w.rdV b q).toInt
def execVcmpN32 (p : Bool) (d a b : BitVec 7) (c : Cond) (s : State) : Result :=
  vcmp s p [.vs a 1, .vs b 1] d fun w q => intCompare c (w.rdV a q).toNat (w.rdV b q).toNat

end Sys2Proof.Machine
end

