-- ==== Sys2Proof/Machine/Vcvt.lean ====
section
/-!
DEFINITION. Conversions: VCVT (05 R143 to R146).
-/
namespace Sys2Proof.Machine

/-- An exact conversion between floating formats (05 R144). -/
def cvtExact (src dst : Fmt) (x : Nat) : FpRes := fpOfVal dst .rne false (src.decode x) 0

/-- A rounding conversion between floating formats, with saturation where `sat` (05 R145). -/
def cvtRound (src dst : Fmt) (r : Rounding) (sat : Bool) (x D : Nat) : FpRes :=
  match src.decode x with
  | .nan sg => dst.nanRes sg
  | .inf n =>
    if dst.kind = .e4m3 then (if sat then ⟨dst.maxFin n, flagNX⟩ else ⟨dst.nan, flagNV⟩)
    else ⟨dst.inf n, 0⟩
  | .fin n m e => dst.round r sat n m e false D

/-- A conversion to an integer range (05 R146). -/
def cvtInt (src : Fmt) (lo hi : Int) (r : Rounding) (sat : Bool) (x D : Nat) : Int × FpFlags :=
  match src.decode x with
  | .nan _ => (0, flagNV)
  | .inf n => (if n then lo else hi, if sat then flagNX else flagNV)
  | .fin n m e =>
    let (i, inexact) := roundInt r n m e D
    if i < lo then (lo, if sat then flagNX else flagNV)
    else if hi < i then (hi, if sat then flagNX else flagNV)
    else (i, flagIf inexact flagNX)

/-- A conversion from an integer: only inexact (05 R145). A zero is +0. -/
def cvtFromInt (dst : Fmt) (r : Rounding) (i : Int) (D : Nat) : FpRes :=
  dst.round r false (decide (i < 0)) i.natAbs 0 false D

/-- E2M1 with code 8 read as the value of `CZA` (05 R144; 01 R16, R17). -/
def e2m1Val (cz : Byte) (c : Nat) : FVal := if c = 8 then e4m3.decode cz.toNat else e2m1.decode c

/-- A conversion whose source and destination are single registers. -/
def vcvt32 (s : State) (p : Bool) (d a : BitVec 7) (r : Rounding) (f : Wave → Nat → Nat → FpRes) : Result :=
  fpLanes s p [.vd d 1, .vs a 1] (fun w q x => w.wrV d q x) fun w q =>
    let (g, D) := drawFor r (w.genOf q)
    let o := f w (w.rdV a q).toNat D
    ⟨BitVec.ofNat 32 o.code, o.flags, g⟩
/-- From a single register to a pair. -/
def vcvt64of32 (s : State) (p : Bool) (d a : BitVec 7) (f : Nat → FpRes) : Result :=
  fpLanes s p [.vd d 2, .vs a 1] (fun w q x => w.wrV64 d q x) fun w q =>
    let o := f (w.rdV a q).toNat
    ⟨BitVec.ofNat 64 o.code, o.flags, w.genOf q⟩
/-- From a pair to a single register. -/
def vcvt32of64 (s : State) (p : Bool) (d a : BitVec 7) (r : Rounding) (f : Nat → Nat → FpRes) : Result :=
  fpLanes s p [.vd d 1, .vs a 2] (fun w q x => w.wrV d q x) fun w q =>
    let (g, D) := drawFor r (w.genOf q)
    let o := f (w.rdV64 a q).toNat D
    ⟨BitVec.ofNat 32 o.code, o.flags, g⟩
/-- From a pair to a pair. -/
def vcvt64 (s : State) (p : Bool) (d a : BitVec 7) (r : Rounding) (f : Nat → Nat → FpRes) : Result :=
  fpLanes s p [.vd d 2, .vs a 2] (fun w q x => w.wrV64 d q x) fun w q =>
    let (g, D) := drawFor r (w.genOf q)
    let o := f (w.rdV64 a q).toNat D
    ⟨BitVec.ofNat 64 o.code, o.flags, g⟩

/-- An integer result as a code of its width. -/
def intRes (width : Nat) (o : Int × FpFlags) : FpRes := ⟨(BitVec.ofInt width o.1).toNat, o.2⟩

def execVcvtF64F32 (p : Bool) (d a : BitVec 7) (s : State) : Result := vcvt64of32 s p d a (cvtExact f32 f64)
def execVcvtF32F64 (p : Bool) (d a : BitVec 7) (sat : Bool) (r : Rounding) (s : State) : Result :=
  vcvt32of64 s p d a r (cvtRound f64 f32 r sat)
def execVcvtF16F32 (p : Bool) (d a : BitVec 7) (sat : Bool) (r : Rounding) (s : State) : Result :=
  vcvt32 s p d a r fun _ => cvtRound f32 f16 r sat
def execVcvtF32F16 (p : Bool) (d a : BitVec 7) (s : State) : Result :=
  vcvt32 s p d a .rne fun _ x _ => cvtExact f16 f32 (x % 2 ^ 16)
def execVcvtBf16F32 (p : Bool) (d a : BitVec 7) (sat : Bool) (r : Rounding) (s : State) : Result :=
  vcvt32 s p d a r fun _ => cvtRound f32 bf16 r sat
def execVcvtF32Bf16 (p : Bool) (d a : BitVec 7) (s : State) : Result :=
  vcvt32 s p d a .rne fun _ x _ => cvtExact bf16 f32 (x % 2 ^ 16)
def execVcvtS32F32 (p : Bool) (d a : BitVec 7) (sat : Bool) (r : Rounding) (s : State) : Result :=
  vcvt32 s p d a r fun _ x D => intRes 32 (cvtInt f32 (-(2 ^ 31)) (2 ^ 31 - 1) r sat x D)
def execVcvtF32S32 (p : Bool) (d a : BitVec 7) (_sat : Bool) (r : Rounding) (s : State) : Result :=
  vcvt32 s p d a r fun _ x D => cvtFromInt f32 r (BitVec.ofNat 32 x).toInt D
def execVcvtN32F32 (p : Bool) (d a : BitVec 7) (sat : Bool) (r : Rounding) (s : State) : Result :=
  vcvt32 s p d a r fun _ x D => intRes 32 (cvtInt f32 0 (2 ^ 32 - 1) r sat x D)
def execVcvtF32N32 (p : Bool) (d a : BitVec 7) (_sat : Bool) (r : Rounding) (s : State) : Result :=
  vcvt32 s p d a r fun _ x D => cvtFromInt f32 r x D
def execVcvtS32F64 (p : Bool) (d a : BitVec 7) (sat : Bool) (r : Rounding) (s : State) : Result :=
  vcvt32of64 s p d a r fun x D => intRes 32 (cvtInt f64 (-(2 ^ 31)) (2 ^ 31 - 1) r sat x D)
def execVcvtF64S32 (p : Bool) (d a : BitVec 7) (s : State) : Result :=
  vcvt64of32 s p d a fun x => cvtFromInt f64 .rne (BitVec.ofNat 32 x).toInt 0
def execVcvtS64F64 (p : Bool) (d a : BitVec 7) (sat : Bool) (r : Rounding) (s : State) : Result :=
  vcvt64 s p d a r fun x D => intRes 64 (cvtInt f64 (-(2 ^ 63)) (2 ^ 63 - 1) r sat x D)
def execVcvtF64S64 (p : Bool) (d a : BitVec 7) (_sat : Bool) (r : Rounding) (s : State) : Result :=
  vcvt64 s p d a r fun x D => cvtFromInt f64 r (BitVec.ofNat 64 x).toInt D
def execVcvtE4m3F32 (p : Bool) (d a : BitVec 7) (sat : Bool) (r : Rounding) (s : State) : Result :=
  vcvt32 s p d a r fun _ => cvtRound f32 e4m3 r sat
def execVcvtF32E4m3 (p : Bool) (d a : BitVec 7) (s : State) : Result :=
  vcvt32 s p d a .rne fun _ x _ => cvtExact e4m3 f32 (x % 2 ^ 8)
def execVcvtE5m2F32 (p : Bool) (d a : BitVec 7) (sat : Bool) (r : Rounding) (s : State) : Result :=
  vcvt32 s p d a r fun _ => cvtRound f32 e5m2 r sat
def execVcvtF32E5m2 (p : Bool) (d a : BitVec 7) (s : State) : Result :=
  vcvt32 s p d a .rne fun _ x _ => cvtExact e5m2 f32 (x % 2 ^ 8)
def execVcvtF32E2m1 (p : Bool) (d a : BitVec 7) (s : State) : Result :=
  vcvt32 s p d a .rne fun w x _ => fpOfVal f32 .rne false (e2m1Val w.csr.cza (x % 16)) 0
def execVcvtF32E2m3 (p : Bool) (d a : BitVec 7) (s : State) : Result :=
  vcvt32 s p d a .rne fun _ x _ => cvtExact e2m3 f32 (x % 64)
def execVcvtF32E3m2 (p : Bool) (d a : BitVec 7) (s : State) : Result :=
  vcvt32 s p d a .rne fun _ x _ => cvtExact e3m2 f32 (x % 64)

end Sys2Proof.Machine
end

