-- ==== Sys2Proof/Machine/Mx.lean ====
section
/-!
DEFINITION. Microscaled blocks: packing (01 R35), the Hadamard transform (01 R47, R48), the requantise rule (01 R49 to
R51), grouped-integer requantisation (05 R160), and exact sums of products (01 R40; 05 R155).
-/
namespace Sys2Proof.Machine

/-- Packs codes of `width` bits, element 0 lowest, into words (01 R35). -/
def packBits (width : Nat) (codes : List Nat) (words : Nat) : List Word :=
  let stream := codes.foldr (fun c acc => acc * 2 ^ width + c % 2 ^ width) 0
  (List.range words).map fun k => BitVec.ofNat 32 (stream / 2 ^ (32 * k))

/-- Element j of a stream of `width`-bit elements. -/
def unpackBits (width : Nat) (stream j : Nat) : Nat := stream / 2 ^ (width * j) % 2 ^ width

/-- The words of a run as one stream, the first lowest. -/
def wordsStream (ws : List Word) : Nat := ws.foldr (fun w acc => acc * 2 ^ 32 + w.toNat) 0

/-- One stage of span 2^s of the Hadamard transform (01 R47). -/
def hadStage (x : List Nat) (st : Nat) : List Nat × FpFlags :=
  let h := 2 ^ st
  let outs := (List.range x.length).map fun i =>
    if i / h % 2 = 0 then fpAdd f32 .rne (x.getD i 0) (x.getD (i + h) 0) 0
    else fpSub f32 .rne (x.getD (i - h) 0) (x.getD i 0) 0
  (outs.map FpRes.code, outs.foldl (fun f o => f ||| o.flags) 0)

/-- The unnormalised transform of 2^n values (01 R47). -/
def hadamard (n : Nat) (x : List Nat) : List Nat × FpFlags :=
  (List.range n).foldl (fun acc st =>
    let (y, f) := hadStage acc.1 st
    (y, acc.2 ||| f)) (x, 0)

/-- The Hadamard option over a block of 32 (01 R48). -/
def hadOption (h : HadOpt) (x : List Nat) : List Nat × FpFlags :=
  match h with
  | .none => (x, 0)
  | .h16 =>
    let (a, fa) := hadamard 4 (x.take 16)
    let (b, fb) := hadamard 4 (x.drop 16)
    (a ++ b, fa ||| fb)
  | .h32 => hadamard 5 x

/-- The magnitude of a finite value compared with another's. -/
def FVal.absLe (x y : FVal) : Bool :=
  match x, y with
  | .fin _ m e, .fin _ m' e' => decide ((exactAdd m e (-(m' : Int)) e').1 ≤ 0)
  | _, _ => false

/-- The finite value of largest magnitude in a list. -/
def maxAbs (l : List FVal) : FVal :=
  l.foldl (fun acc v => match v with
    | .fin _ m e => if acc.absLe (.fin false m e) then .fin false m e else acc
    | _ => acc) (.fin false 0 0)

/-- |x − y| as an exact magnitude. -/
def absDiff (x y : FVal) : FVal :=
  match x, y with
  | .fin n m e, .fin n' m' e' =>
    let (s, k) := exactAdd (signedOf n m) e (-(signedOf n' m')) e'
    .fin false s.natAbs k
  | _, _ => .nan false

/-- CodeEight (01 R50): the extra value is strictly nearer than every other E2M1 value. `cz` is `none` where code 8 is
not enabled. -/
def codeEight (cz : Option Byte) (y : FVal) : Bool :=
  match cz with
  | none => false
  | some c =>
    let v := e4m3.decode c.toNat
    !v.isNan && ((List.range 16).filter (· ≠ 8)).all fun k =>
      let dv := absDiff y v
      let dw := absDiff y (e2m1.decode k)
      dv.absLe dw && !dw.absLe dv

/-- `n` draws (01 R27): the generator after them, and the draws in order. -/
def draws : Nat → Word → Word × List Nat
  | 0, g => (g, [])
  | n + 1, g =>
    let g' := drawStep g
    let (ge, l) := draws n g'
    (ge, g'.toNat :: l)

/-- A requantised block. -/
structure MxBlock where
  scale : Nat
  codes : List Nat
  flags : FpFlags
  gen : Word

def rqMode : RqRound → Rounding
  | .rne => .rne
  | .rsr => .rsr

/-- One element of 01 R49 with its flags (01 R51): y is the scaled input. -/
def encodeElem (f : Fmt) (isE2m1 : Bool) (r : Rounding) (cz : Option Byte) (y : FVal) (D : Nat) : Nat × FpFlags :=
  match y with
  | .inf n => (f.inf n, 0)
  | .nan _ => (0, 0)
  | .fin n m e =>
    if isE2m1 && codeEight cz y then
      let v := e4m3.decode ((cz.getD 0).toNat)
      let inexact := !(absDiff y v).isZero
      let tiny := match v with
        | .fin _ vm ve => vm ≠ 0 && (Nat.log2 vm : Int) + ve < 0
        | _ => false
      (8, flagIf inexact flagNX ||| flagIf (inexact && tiny) flagUF)
    else
      let o := f.round r true n m e false D
      (if isE2m1 && o.code = 8 then 0 else o.code, o.flags)

/-- RequantiseBlock (01 R49 to R51): 32 binary32 codes to a scale and 32 element codes. `cz` enables code 8. -/
def requantise (f : Fmt) (isE2m1 isE5m2 : Bool) (x : List Nat) (rm : RqRound) (had : HadOpt) (cz : Option Byte)
    (gen : Word) : MxBlock :=
  let snan := x.any fun c => (f32.decode c).isSnan
  let (h, hf) := hadOption had x
  let vals := h.map f32.decode
  let (gen', ds) := if rm = .rsr then draws 32 gen else (gen, List.replicate 32 0)
  let base := hf ||| flagIf snan flagNV
  if vals.any FVal.isNan then ⟨0xFF, List.replicate 32 0, base, gen'⟩
  else if vals.any FVal.isInf && !isE5m2 then ⟨0xFF, List.replicate 32 0, base ||| flagBL, gen'⟩
  else
    let c : Int := match maxAbs vals with
      | .fin _ m e => if m = 0 then 0x7F else max (-127) (min ((Nat.log2 m : Int) + e - f.emax) 127) + 127
      | _ => 0x7F
    let scaled := vals.map fun v => match v with
      | .fin n m e => FVal.fin n m (e - (c - 127))
      | v => v
    let outs := (scaled.zip ds).map fun yd => encodeElem f isE2m1 (rqMode rm) cz yd.1 yd.2
    ⟨c.toNat, outs.map (·.1), outs.foldl (fun a o => a ||| o.2) base, gen'⟩

/-- A grouped-integer block (05 R160): the parameter word, and the elements as two's complement. -/
structure GiBlock where
  param : Word
  codes : List Int
  flags : FpFlags
  gen : Word

/-- x / S rounded to an integer, both exact (05 R160). -/
def quotientInt (r : Rounding) (x y : FVal) (D : Nat) : Int :=
  match x, y with
  | .fin n m e, .fin _ m' e' =>
    if m' = 0 then 0
    else
      let k := 64 + (e - e').toNat
      let q := m * 2 ^ k
      signedOf n (roundAt r n (q / m') (e - e' - k) (decide (q % m' ≠ 0)) 0 D).1
  | _, _ => 0

/-- M / qmax rounded to bfloat16 towards +∞ (05 R160). -/
def groupScale (M : FVal) (qmax : Nat) : Nat :=
  match M with
  | .fin _ m e => (bf16.round .rpi false false (m * 2 ^ 64 / qmax) (e - 64) (decide (m * 2 ^ 64 % qmax ≠ 0)) 0).code
  | _ => 0

def requantiseGroup (qmax : Nat) (x : List Nat) (rm : RqRound) (had : HadOpt) (gen : Word) : GiBlock :=
  let snan := x.any fun c => (f32.decode c).isSnan
  let (h, hf) := hadOption had x
  let vals := h.map f32.decode
  let (gen', ds) := if rm = .rsr then draws 32 gen else (gen, List.replicate 32 0)
  let base := hf ||| flagIf snan flagNV
  let word (sc : Nat) : Word := BitVec.ofNat 32 (sc + 2 ^ 24)
  if vals.any FVal.isNan then ⟨word 0x7FC0, List.replicate 32 0, base, gen'⟩
  else if vals.any FVal.isInf then ⟨word 0x7FC0, List.replicate 32 0, base ||| flagBL, gen'⟩
  else
    let M := maxAbs vals
    if M.isZero then ⟨word 0, List.replicate 32 0, base, gen'⟩
    else
      let S := groupScale M qmax
      let sv := bf16.decode S
      let qs := (vals.zip ds).map fun vd =>
        max (-(qmax : Int)) (min (quotientInt (rqMode rm) vd.1 sv vd.2) qmax)
      let inexact := (vals.zip qs).any fun vq =>
        match sv with
        | .fin _ m e => !(absDiff vq.1 (.fin (decide (vq.2 < 0)) (vq.2.natAbs * m) e)).isZero
        | _ => false
      ⟨word S, qs, base ||| flagIf inexact flagNX, gen'⟩

/-- The largest magnitude as binary32 (05 R161). -/
def blockMax (x : List Nat) : FpRes :=
  let vals := x.map f32.decode
  let fl := flagIf (vals.any FVal.isSnan) flagNV
  if vals.any FVal.isNan then ⟨f32.nan, fl⟩
  else if vals.any FVal.isInf then ⟨f32.inf false, fl⟩
  else ⟨(fpOfVal f32 .rne false (maxAbs vals) 0).code, fl⟩

/-! ## Exact sums of products (01 R40; 05 R155) -/

/-- An exact sum: NaN from a NaN element, invalid from 0 × ∞ or +∞ with −∞, an infinity, or an exact value. `nz`: every
term so far is −0 (08 R238). -/
inductive ExSum
  | nan
  | invalid
  | inf (neg : Bool)
  | fin (s : Int) (e : Int) (nz : Bool)
  deriving DecidableEq, Repr

def ExSum.add : ExSum → ExSum → ExSum
  | .nan, _ => .nan
  | _, .nan => .nan
  | .invalid, _ => .invalid
  | _, .invalid => .invalid
  | .inf a, .inf b => if a = b then .inf a else .invalid
  | .inf a, .fin .. => .inf a
  | .fin .., .inf b => .inf b
  | .fin s e nz, .fin s' e' nz' =>
    let (t, k) := exactAdd s e s' e'
    .fin t k (nz && nz')

/-- One product as a term: a NaN factor makes it NaN whatever the other holds. -/
def ExSum.term (x y : FVal) : ExSum :=
  if x.isNan || y.isNan then .nan
  else match exactMul x y with
    | none => .invalid
    | some (.inf n) => .inf n
    | some (.fin n m e) => .fin (signedOf n m) e (n && m = 0)
    | some (.nan _) => .nan

def ExSum.sum (l : List (FVal × FVal)) : ExSum :=
  l.foldl (fun acc xy => acc.add (ExSum.term xy.1 xy.2)) (.fin 0 0 true)

/-- The accumulator plus an exact sum with one rne rounding (05 R155; 01 R40). A sum that is exactly zero is −0 where
every term is −0, else +0 (08 R238) (DEDUCED: log entry 13). -/
def accumulate (f : Fmt) (acc : Nat) (p : ExSum) : FpRes :=
  let a := f.decode acc
  match p with
  | .nan => f.nanRes a.isSnan
  | .invalid => f.nanRes true
  | .inf n => fpAddV f .rne a (.inf n) 0
  | .fin s e nz => fpAddV f .rne a (.fin (decide (s < 0) || nz) s.natAbs e) 0

end Sys2Proof.Machine
end

