-- ==== Sys2Proof/Machine/Mem.lean ====
section
/-!
DEFINITION. Loads, stores and atomics of a wave at issue: VLD, VST, SMEM and VATOM (07 R190 to R201). Each lane becomes
an operation that is performed later, in any order 12 R298 leaves free.
-/
namespace Sys2Proof.Machine

/-! ## Issued operations -/

/-- The slice unit of 06 R172 and 12 R314: 9 × core + slice. -/
def unitNo (u : Nat) : Nat := 9 * unitCore u + unitSlice u

/-- Adds an operation of a wave to those not yet performed. -/
def State.addOp (s : State) (u : Nat) (w : Wave) (b : Block) (k : OpKind) : State :=
  { s with
    ops := s.ops ++ [{ id := s.fresh, owner := w.uid, core := unitCore u, unit := unitNo u, slot := eventSlot u w, replay := b.replay,
                       ctx := b.ctx, block := b.uid, key := b.record, pc := w.pc, waitLoads := w.ordLoads, waitStores := w.ordStores,
                       parked := none, denied := [], horizon := none, note := [], waits := [], got := [], reached := 0, epend := [], kind := k }]
    fresh := s.fresh + 1 }

/-- A context as it is created, but for what CTXCREATE names (10 R259; 11 R276, R282; 17 R357; 20 R403, R412). -/
def Context.none : Context :=
  { compulsory := false, nv := 1, table := [], weight := 1, credit := 0, traph := 0, root := 0, asid := 0, save := 0
    linktag := 0, queueArea := (0, 0), faddoArea := (0, 0), sigArea := (0, 0), unexpArea := (0, 0)
    residency := .resident, debugClaim := false, destroying := .none, preemptFor := .none, regions := [], sigs := []
    faddoMax := 0, faddoFull := false, unexpFull := false, arriving := [], keys := 0, ptr := 0, subs := [], recs := [], graphs := []
    phases := [], jobs := [], cancels := [], shapes := [], counters := [], marks := [], gates := [], unexp := []
    changed := [], started := [], known := [], image := .none, sess := 0, arrDenied := [] }
/-- The context of a block. -/
def State.ctxD (s : State) (b : Block) : Context := (s.ctx b.ctx).getD Context.none

/-- The words of its line that an access touches: a sideband byte stands for the 16 bytes it scales (01 R38). -/
def Access.mask (a : Access) : Word := if a.side then 0xF#32 <<< (4 * (a.addr % 8)) else wordMask a.addr a.size

/-- The scratch checks of compulsory mode over an instruction's accesses (06 R172): the records after them, or `none`
where one conflicts (DEDUCED: log entry 24). -/
def scratchConflict (s : State) (u : Nat) (b : Block) (accs : List Access) (read write : Bool) (comm : Option Nat) :
    Option State :=
  if !s.cmp b then some s
  else accs.foldl (fun acc a => acc.bind fun st =>
    if a.glob then some st
    else match st.block a.block with
      | none => some st
      | some t =>
        let line := a.addr / 128
        match (t.scrRecords.get ScrRecord.empty line).access (unitNo u) a.mask read write comm with
        | none => none
        | some r => some (st.setBlock { t with scrRecords := t.scrRecords.put ScrRecord.empty line r })) (some s)

def conflictTrap (s : State) : Trap := wordTrap s causeConflict 0

/-- ILLEGAL at check 4 in a replay-safe record (17 R380) (DEDUCED: log entry 45). -/
def notReplaySafe (s : State) (w : Wave) : Option Trap :=
  match s.block w.block with
  | some b => if b.rsafe then some (illegal s 4) else none
  | none => none

/-- Both checks. -/
def bothAllowed (f g : State → Wave → Option Trap) (s : State) (w : Wave) : Option Trap :=
  match f s w with
  | some t => some t
  | none => g s w

/-! ## VLD and VST -/

/-- A width of VLD and VST (07 R191). -/
structure Width where
  size : Nat
  regs : Nat
  signed : Bool
  side : Bool

def wB8 : Width := ⟨1, 1, false, false⟩
def wS8 : Width := ⟨1, 1, true, false⟩
def wB16 : Width := ⟨2, 1, false, false⟩
def wS16 : Width := ⟨2, 1, true, false⟩
def wW32 : Width := ⟨4, 1, false, false⟩
def wW64 : Width := ⟨8, 2, false, false⟩
def wW128 : Width := ⟨16, 4, false, false⟩
def wE : Width := ⟨1, 1, false, true⟩

/-- The destination elements of one lane. -/
def laneDests (w : Wave) (k : Width) (d : BitVec 7) (q : Nat) : List Elem :=
  if k.side then [.e (laneKey (w.phys d 0) q)]
  else (List.range k.regs).map fun i => .v (laneKey (w.phys d i) q)

/-- VLD (07 R193): checks at issue, one entry for all active lanes, one operation per lane
(DESIGN CHOICE: log entry 76). -/
def vld (s : State) (p : Bool) (k : Width) (d a b : BitVec 7) (m : AddrMode) : Result :=
  issue s p
    ⟨false, fun w => if w.active.isEmpty then none else some (4 * k.regs * w.active.length), notFore,
      (if k.side then .ed d 1 else .vd d k.regs) :: addrOpnds m a b⟩
    fun u w blk =>
      let x := s.ctxD blk
      let lanes := w.perLane (laneAddr m w a b)
      match firstTrap lanes fun q addr =>
          checkAddr s x blk (isGlobalMode m) (k.size = 4 && !k.side) true k.side k.size addr q with
      | some t => .trap t
      | none =>
        let accs := lanes.map fun qa => (qa.1, mkAccess s blk (isGlobalMode m) k.side k.size qa.2)
        match scratchConflict s u blk (accs.map (·.2)) true false none with
        | none => .trap (conflictTrap s)
        | some s1 =>
          if lanes.isEmpty then .done (s1.setWave u w.next)
          else
            let en : Entry :=
              { seq := s.fresh, pc := w.pc, bytes := 4 * k.regs * lanes.length
                dests := lanes.flatMap fun qa => laneDests w k d qa.1
                vals := [], waiting := lanes.length, flags := 0, failed := false, sample := .none }
            .done (accs.foldl (fun st qa => st.addOp u w blk (.load qa.2 (laneDests w k d qa.1) k.signed en.seq))
              ((s1.setWave u (w.pushEntry en).next).next))

/-- The bytes a lane stores. -/
def laneData (w : Wave) (k : Width) (d : BitVec 7) (q : Nat) : List Byte :=
  if k.side then [w.rdE d q]
  else leBytes k.size (wordsStream ((List.range k.regs).map fun i => w.rdVk d i q))

/-- Only the lane at the highest position stores to an address that several lanes write (07 R194). -/
def highestLanes (lanes : List (Nat × Nat)) : List (Nat × Nat) :=
  lanes.filter fun qa => !lanes.any fun rb => decide (qa.1 < rb.1) && rb.2 == qa.2

/-- VST (07 R194) (DESIGN CHOICE: log entry 76). -/
def vst (s : State) (p : Bool) (k : Width) (d a b : BitVec 7) (m : AddrMode) : Result :=
  issue s p
    ⟨false, noEntry, notFore, (if k.side then .es d 1 else .vs d k.regs) :: addrOpnds m a b⟩
    fun u w blk =>
      let x := s.ctxD blk
      let lanes := w.perLane (laneAddr m w a b)
      match firstTrap lanes fun q addr => checkAddr s x blk (isGlobalMode m) false false k.side k.size addr q with
      | some t => .trap t
      | none =>
        let accs := (highestLanes lanes).map fun qa => (qa.1, mkAccess s blk (isGlobalMode m) k.side k.size qa.2)
        match scratchConflict s u blk (accs.map (·.2)) false true none with
        | none => .trap (conflictTrap s)
        | some s1 =>
          .done (accs.foldl (fun st qa => st.addOp u w blk (.store qa.2 (laneData w k d qa.1)))
            (s1.setWave u w.next))

def execVldB8 (p : Bool) (d a b : BitVec 7) (m : AddrMode) (s : State) : Result := vld s p wB8 d a b m
def execVldS8 (p : Bool) (d a b : BitVec 7) (m : AddrMode) (s : State) : Result := vld s p wS8 d a b m
def execVldB16 (p : Bool) (d a b : BitVec 7) (m : AddrMode) (s : State) : Result := vld s p wB16 d a b m
def execVldS16 (p : Bool) (d a b : BitVec 7) (m : AddrMode) (s : State) : Result := vld s p wS16 d a b m
def execVldW32 (p : Bool) (d a b : BitVec 7) (m : AddrMode) (s : State) : Result := vld s p wW32 d a b m
def execVldW64 (p : Bool) (d a b : BitVec 7) (m : AddrMode) (s : State) : Result := vld s p wW64 d a b m
def execVldW128 (p : Bool) (d a b : BitVec 7) (m : AddrMode) (s : State) : Result := vld s p wW128 d a b m
def execVldE (p : Bool) (d a b : BitVec 7) (m : AddrMode) (s : State) : Result := vld s p wE d a b m
def execVstB8 (p : Bool) (d a b : BitVec 7) (m : AddrMode) (s : State) : Result := vst s p wB8 d a b m
def execVstB16 (p : Bool) (d a b : BitVec 7) (m : AddrMode) (s : State) : Result := vst s p wB16 d a b m
def execVstW32 (p : Bool) (d a b : BitVec 7) (m : AddrMode) (s : State) : Result := vst s p wW32 d a b m
def execVstW64 (p : Bool) (d a b : BitVec 7) (m : AddrMode) (s : State) : Result := vst s p wW64 d a b m
def execVstW128 (p : Bool) (d a b : BitVec 7) (m : AddrMode) (s : State) : Result := vst s p wW128 d a b m
def execVstE (p : Bool) (d a b : BitVec 7) (m : AddrMode) (s : State) : Result := vst s p wE d a b m

/-! ## SMEM (07 R196, R197) -/

/-- The address of SMEM. -/
def smemAddr (w : Wave) (a : BitVec 7) (i : BitVec 9) : Nat := (w.rdS64 a + (i.signExtend 64) * 4).toNat

/-- The scalar destination elements. -/
def scalarDests (d : BitVec 7) (n : Nat) : List Elem := (List.range n).map fun k => .s (d.toNat + k)

/-- A pending entry for scalar results that one operation delivers. -/
def smemEntry (s : State) (w : Wave) (d : BitVec 7) (n : Nat) : Entry :=
  { seq := s.fresh, pc := w.pc, bytes := 4 * n, dests := scalarDests d n, vals := [], waiting := 1, flags := 0,
    failed := false, sample := .none }

/-- A scalar load of n words. -/
def sld (s : State) (p : Bool) (d a : BitVec 7) (i : BitVec 9) (n : Nat) : Result :=
  issue s p ⟨false, fun _ => some (4 * n), anywhere, [.sd d n, .ss a 2]⟩ fun u w b =>
    match checkAddr s (s.ctxD b) b true (n = 1) true false (4 * n) (smemAddr w a i) 0 with
    | some t => .trap t
    | none =>
      let en := smemEntry s w d n
      .done (((s.setWave u (w.pushEntry en).next).next).addOp u w b
        (.load ⟨true, 0, smemAddr w a i, 4 * n, false⟩ (scalarDests d n) false en.seq))

/-- A scalar store of n words. -/
def sst (s : State) (p : Bool) (d a : BitVec 7) (i : BitVec 9) (n : Nat) : Result :=
  issue s p ⟨false, noEntry, anywhere, [.ss d n, .ss a 2]⟩ fun u w b =>
    match checkAddr s (s.ctxD b) b true false false false (4 * n) (smemAddr w a i) 0 with
    | some t => .trap t
    | none =>
      .done ((s.setWave u w.next).addOp u w b
        (.store ⟨true, 0, smemAddr w a i, 4 * n, false⟩
          (leBytes (4 * n) (wordsStream ((List.range n).map fun k => w.rdSk d k)))))

/-- SAADD and SACAS: acq_rel atomics at device scope (07 R197); `n` source registers from d. -/
def satom (s : State) (p : Bool) (d a : BitVec 7) (i : BitVec 9) (op : AtomOp) (n : Nat) : Result :=
  issue s p ⟨false, fun _ => some 4, notReplaySafe, [.ss d n, .ss a 2]⟩ fun u w b =>
    match checkAddr s (s.ctxD b) b true false false false 4 (smemAddr w a i) 0 with
    | some t => .trap t
    | none =>
      let en := smemEntry s w d 1
      .done (((s.setWave u (w.pushEntry en).next).next).addOp u w b
        (.atomic ⟨true, 0, smemAddr w a i, 4, false⟩ op (w.rdS d).toNat (w.rdSk d 1).toNat (scalarDests d 1)
          (some en.seq) .acqRel .device))

def execSld32 (p : Bool) (d a : BitVec 7) (i : BitVec 9) (s : State) : Result := sld s p d a i 1
def execSld64 (p : Bool) (d a : BitVec 7) (i : BitVec 9) (s : State) : Result := sld s p d a i 2
def execSld128 (p : Bool) (d a : BitVec 7) (i : BitVec 9) (s : State) : Result := sld s p d a i 4
def execSst32 (p : Bool) (d a : BitVec 7) (i : BitVec 9) (s : State) : Result := sst s p d a i 1
def execSst64 (p : Bool) (d a : BitVec 7) (i : BitVec 9) (s : State) : Result := sst s p d a i 2
def execSst128 (p : Bool) (d a : BitVec 7) (i : BitVec 9) (s : State) : Result := sst s p d a i 4
def execSaadd (p : Bool) (d a : BitVec 7) (i : BitVec 9) (s : State) : Result := satom s p d a i .add32 1
def execSacas (p : Bool) (d a : BitVec 7) (i : BitVec 9) (s : State) : Result := satom s p d a i .cas32 2

/-! ## VATOM (07 R198 to R201) -/

def AtomOp.size : AtomOp → Nat
  | .add64 | .xch64 | .cas64 | .fadd64 => 8
  | _ => 4
/-- Registers read at d. -/
def AtomOp.srcRegs : AtomOp → Nat
  | .cas64 => 4
  | .add64 | .xch64 | .fadd64 | .cas32 => 2
  | _ => 1
def AtomOp.index : AtomOp → Nat
  | .add32 => 0 | .add64 => 1 | .minS32 => 2 | .maxS32 => 3 | .and => 4 | .or => 5 | .xor => 6 | .xch32 => 7
  | .xch64 => 8 | .cas32 => 9 | .cas64 => 10 | .fadd32 => 11 | .fadd64 => 12 | .incw => 15
/-- The tag under which commutative integer atomics do not conflict (06 R172; 12 R314). -/
def AtomOp.commTag (op : AtomOp) (use : AtomUse) : Option Nat :=
  if use = .commutative && op ≠ .fadd32 && op ≠ .fadd64 then some op.index else none

/-- The new value (07 R198): m the old one, v the operand, w the second operand of a compare and swap. -/
def AtomOp.apply (op : AtomOp) (m v w : Nat) : Nat :=
  let sx (z : Nat) : Int := (BitVec.ofNat 32 z).toInt
  match op with
  | .add32 => (m + v) % 2 ^ 32
  | .add64 => (m + v) % 2 ^ 64
  | .minS32 => if sx m ≤ sx v then m else v
  | .maxS32 => if sx v ≤ sx m then m else v
  | .and => m &&& v
  | .or => m ||| v
  | .xor => m ^^^ v
  | .xch32 => v
  | .xch64 => v
  | .cas32 => if m = v then w else m
  | .cas64 => if m = v then w else m
  | .fadd32 => (fpAdd f32 .rne m v 0).code
  | .fadd64 => (fpAdd f64 .rne m v 0).code
  | .incw => if v ≤ m then 0 else m + 1

/-- The operands of one lane at d. -/
def atomOperands (w : Wave) (op : AtomOp) (d : BitVec 7) (q : Nat) : Nat × Nat :=
  match op with
  | .cas32 => ((w.rdV d q).toNat, (w.rdVk d 1 q).toNat)
  | .cas64 => ((w.rdV64 d q).toNat, (w.rdVk d 3 q ++ w.rdVk d 2 q).toNat)
  | .add64 | .xch64 | .fadd64 => ((w.rdV64 d q).toNat, 0)
  | _ => ((w.rdV d q).toNat, 0)

/-- The address operands of VATOM. -/
def atomMode (x : Bool) : AddrMode := if x then .scratch else .pair

/-- A global VATOM is ILLEGAL in a replay-safe record (17 R380). -/
def atomAllowed (x : Bool) : State → Wave → Option Trap :=
  if x then notFore else bothAllowed notFore notReplaySafe

/-- VATOM but for FADDO (07 R199, R200). `n` is no-return; block scope on a partner's scratch is cluster scope. A quantum
add goes to the home as every other does, so that quantum adds are in home order (DESIGN CHOICE: log entry 76). -/
def vatom (s : State) (p : Bool) (d a : BitVec 7) (n : Bool) (sc : Scope) (use : AtomUse) (x : Bool) (op : AtomOp) :
    Result :=
  issue s p
    ⟨false, fun w => if n || w.active.isEmpty then none else some (op.size * w.active.length), atomAllowed x,
      .vs d op.srcRegs :: addrOpnds (atomMode x) a 0⟩
    fun u w blk =>
      let cx := s.ctxD blk
      let lanes := w.perLane (laneAddr (atomMode x) w a 0)
      let raise := op = .add32 && use = .commutative && n && (sc = .device || sc = .system)
      match firstTrap lanes fun q addr => checkAddr s cx blk (!x) raise false false op.size addr q with
      | some t => .trap t
      | none =>
        let accs := lanes.map fun qa => (qa.1, mkAccess s blk (!x) false op.size qa.2)
        match scratchConflict s u blk (accs.map (·.2)) true true ((op.commTag use).map fun _ => 0) with
        | none => .trap (conflictTrap s)
        | some s1 =>
          let dests (q : Nat) : List Elem :=
            if n then [] else (List.range (op.size / 4)).map fun k => .v (laneKey (w.phys d k) q)
          let en : Entry :=
            { seq := s.fresh, pc := w.pc, bytes := op.size * lanes.length
              dests := lanes.flatMap fun qa => dests qa.1
              vals := [], waiting := lanes.length, flags := 0, failed := false, sample := .none }
          let w1 := if n || lanes.isEmpty then w.next else (w.pushEntry en).next
          .done (accs.foldl (fun st qa =>
            let vw := atomOperands w op d qa.1
            st.addOp u w blk (.atomic qa.2 op vw.1 vw.2 (dests qa.1) (if n then none else some en.seq) use
              (if sc = .block && !qa.2.glob && qa.2.block ≠ blk.uid then .cluster else sc)))
            ((s1.setWave u w1).next))

/-- The FADDOs a lane has issued to a location (12 R302). -/
def faddoCount (w : Wave) (q loc : Nat) : Nat :=
  ((w.faddoN.find? fun e => e.1 = q && e.2.1 = loc).map (·.2.2)).getD 0
def faddoBump (w : Wave) (q loc : Nat) : Wave :=
  { w with faddoN := (q, loc, faddoCount w q loc + 1) :: w.faddoN.filter fun e => !(e.1 = q && e.2.1 = loc) }
/-- The physical word of a FADDO, fixed as it issues where its page can be translated then (12 R303), and the name of its
location in the counts: the word, or the virtual address while there is none (DEDUCED: log entry 42). -/
def faddoWord (s : State) (x : Context) (va : Nat) : Option Nat :=
  match walk s x va true true with
  | .ok e => some (e.phys va)
  | _ => none
/-- The core that translated it reaches no older face of that page any more (12 R309). -/
def faddoTlb (s : State) (core : Nat) (x : Context) (va : Nat) : State :=
  match walk s x va true true with
  | .ok e => s.keepTlb core x va e
  | _ => s
def faddoLoc (pa : Option Nat) (va : Nat) : Nat := pa.getD (2 ^ 64 + va)

/-- FADDO: the contributions are queued (07 R201; 12 R302); it waits at issue while the overflow list is exhausted
(12 R304). -/
def vfaddo (s : State) (p : Bool) (d a : BitVec 7) (wide : Bool) (room : State → Block → Nat → Bool)
    (exhausted : State → Nat → Block → State) : Result :=
  issue s p ⟨false, noEntry, notFore, [.vs d (if wide then 2 else 1), .vs a 2]⟩ fun u w blk =>
    let cx := s.ctxD blk
    let lanes := w.perLane (laneAddr .pair w a 0)
    match firstTrap lanes fun q addr => checkAddr s cx blk true false false false (if wide then 8 else 4) addr q with
    | some t => .trap t
    | none =>
      if !room s blk lanes.length then (if (s.ctxD blk).faddoFull then .stall else .done (exhausted s u blk))
      else
        let value (q : Nat) : Nat := if wide then (w.rdV64 d q).toNat else (w.rdV d q).toNat
        let sw := lanes.foldl (fun (sw : State × Wave) qa =>
          let lane := w.lanes.getD qa.1 0
          let pa := faddoWord s cx qa.2
          let loc := faddoLoc pa qa.2
          (sw.1.addOp u w blk (.faddo qa.2 pa wide (value qa.1) blk.index lane (faddoCount sw.2 lane loc)),
            faddoBump sw.2 lane loc))
          (lanes.foldl (fun st qa => faddoTlb st (unitCore u) cx qa.2) s, w)
        .done (sw.1.setWave u sw.2.next)

def execVatomAdd32 (p : Bool) (d a : BitVec 7) (n : Bool) (sc : Scope) (u : AtomUse) (x : Bool) (s : State) : Result :=
  vatom s p d a n sc u x .add32
def execVatomAdd64 (p : Bool) (d a : BitVec 7) (n : Bool) (sc : Scope) (u : AtomUse) (x : Bool) (s : State) : Result :=
  vatom s p d a n sc u x .add64
def execVatomMinS32 (p : Bool) (d a : BitVec 7) (n : Bool) (sc : Scope) (u : AtomUse) (x : Bool) (s : State) : Result :=
  vatom s p d a n sc u x .minS32
def execVatomMaxS32 (p : Bool) (d a : BitVec 7) (n : Bool) (sc : Scope) (u : AtomUse) (x : Bool) (s : State) : Result :=
  vatom s p d a n sc u x .maxS32
def execVatomAnd (p : Bool) (d a : BitVec 7) (n : Bool) (sc : Scope) (u : AtomUse) (x : Bool) (s : State) : Result :=
  vatom s p d a n sc u x .and
def execVatomOr (p : Bool) (d a : BitVec 7) (n : Bool) (sc : Scope) (u : AtomUse) (x : Bool) (s : State) : Result :=
  vatom s p d a n sc u x .or
def execVatomXor (p : Bool) (d a : BitVec 7) (n : Bool) (sc : Scope) (u : AtomUse) (x : Bool) (s : State) : Result :=
  vatom s p d a n sc u x .xor
def execVatomXch32 (p : Bool) (d a : BitVec 7) (n : Bool) (sc : Scope) (u : AtomUse) (x : Bool) (s : State) : Result :=
  vatom s p d a n sc u x .xch32
def execVatomXch64 (p : Bool) (d a : BitVec 7) (n : Bool) (sc : Scope) (u : AtomUse) (x : Bool) (s : State) : Result :=
  vatom s p d a n sc u x .xch64
def execVatomCas32 (p : Bool) (d a : BitVec 7) (n : Bool) (sc : Scope) (u : AtomUse) (x : Bool) (s : State) : Result :=
  vatom s p d a n sc u x .cas32
def execVatomCas64 (p : Bool) (d a : BitVec 7) (n : Bool) (sc : Scope) (u : AtomUse) (x : Bool) (s : State) : Result :=
  vatom s p d a n sc u x .cas64
def execVatomFadd32 (p : Bool) (d a : BitVec 7) (n : Bool) (sc : Scope) (u : AtomUse) (x : Bool) (s : State) : Result :=
  vatom s p d a n sc u x .fadd32
def execVatomFadd64 (p : Bool) (d a : BitVec 7) (n : Bool) (sc : Scope) (u : AtomUse) (x : Bool) (s : State) : Result :=
  vatom s p d a n sc u x .fadd64
def execVatomIncw (p : Bool) (d a : BitVec 7) (n : Bool) (sc : Scope) (u : AtomUse) (x : Bool) (s : State) : Result :=
  vatom s p d a n sc u x .incw

end Sys2Proof.Machine
end

