-- ==== Sys2Proof/Machine/Home.lean ====
section
/-!
DEFINITION. What happens at the homes: results delivered to return buffers, deferred errors, accesses parked on
translation faults (17 R364), and reads and writes of engines (12 R291, R295, R312, R315; 17 R373 to R375).
-/
namespace Sys2Proof.Machine

/-! ## Results and errors -/

def State.op (s : State) (id : Nat) : Option Op := s.ops.find? fun o => o.id = id
def State.dropOp (s : State) (id : Nat) : State := { s with ops := s.ops.filter fun o => o.id ≠ id }
def State.setOp (s : State) (o : Op) : State := { s with ops := s.ops.map fun p => if p.id = o.id then o else p }

/-- A result arrives in a return buffer and waits uncommitted (02 R68, R70). -/
def Entry.deliver (en : Entry) (vals : List (Elem × Word)) : Entry :=
  { en with vals := en.vals ++ vals, waiting := en.waiting - 1 }
def Entry.fail (en : Entry) : Entry := { en with failed := true, waiting := en.waiting - 1 }
def Wave.onEntry (w : Wave) (seq : Nat) (f : Entry → Entry) : Wave :=
  { w with rb := w.rb.map fun en => if en.seq = seq then f en else en }
def State.deliver (s : State) (uid seq : Nat) (vals : List (Elem × Word)) : State :=
  s.onWave uid fun w => w.onEntry seq fun en => en.deliver vals

/-- The source of an event: kind, slot (0 but for a wave or a forerunner context) and whether a replayed attempt posts it
(17 R383). -/
structure EventSource where
  srck : Nat
  slot : Nat
  replay : Bool

/-- The source kind of an operation's wave in events: a wave or a forerunner context (DEDUCED: log entry 55). -/
def Op.srck (o : Op) : Nat := if o.unit % 9 = 8 then 1 else 0
/-- An operation as the source of an event, its wave or an engine. -/
def Op.source (o : Op) (srck : Nat) : EventSource := ⟨srck, if srck ≤ 1 then o.slot else 0, o.replay⟩
/-- A wave or forerunner context as one. -/
def waveSource (u : Nat) (w : Wave) (b : Block) : EventSource := ⟨if w.fore then 1 else 0, eventSlot u w, b.replay⟩

/-- An event record of a source on a core (17 R383) (DEDUCED: log entry 55). -/
def sourceEvent (s : State) (c core : Nat) (src : EventSource) (cls sub : Nat) (a0 a1 : DWord) : Event :=
  match s.ctx c with
  | some x => mkEvent s cls sub c (x.vdOf (coreDie core)) (rinkCore x core) src.slot src.srck src.replay a0 a1
  | none => mkEvent s cls sub c 0 0 src.slot src.srck src.replay a0 a1
/-- One of a core's engine or die. -/
def coreEvent (s : State) (c core srck cls sub : Nat) (a0 a1 : DWord) : Event :=
  sourceEvent s c core ⟨srck, 0, false⟩ cls sub a0 a1

/-- A deferred error of a wave (02 R81): kept for its next park point or fence, or reported against the wave where it
has ended (04 R121; 17 R384 class 7) (DEDUCED: log entry 19). -/
def State.defer (s : State) (uid c core : Nat) (src : EventSource) (d : Deferred) : State :=
  match s.findOwner uid with
  | some o => s.onWave o.uid fun w => { w with deferred := w.deferred ++ [d] }
  | none =>
    let t := d.trap d.pc
    s.post (coreDie core) false none [sourceEvent s c core src 7 2 d.pc (t.info1 ++ t.info0)]
def State.deferOp (s : State) (o : Op) (cause : BitVec 8) (addr : Nat) (scratch : Bool) : State :=
  s.defer o.owner o.ctx o.core (o.source o.srck) ⟨cause, addr, scratch, o.pc, o.id⟩
/-- The address that a deferred error of an operation names, and whether it is a scratch address: for an engine command
its descriptor or its barrier object, and where it has neither, as for a lane, the failing address `a` (17 R356)
(DEDUCED: log entry 21). -/
def Op.errorAddr (o : Op) (a : Nat) : Nat × Bool :=
  match o.kind with
  | .acps _ _ _ _ obj _ _ => (obj, true)
  | .tcpy _ (some obj) _ => (obj.2.2, true)
  | .tcpys _ (some obj) _ _ _ => (obj.2.2, true)
  | .tcpyv _ obj _ _ => (obj.2.2, true)
  | .teasel D _ _ _ _ => (D, false)
  | _ => (a, false)
def State.deferAt (s : State) (o : Op) (cause : BitVec 8) (a : Nat) : State :=
  s.deferOp o cause (o.errorAddr a).1 (o.errorAddr a).2

/-- The largest write-completion time of a wave's performed writes (12 R297), kept for its record too (11 R283). -/
def State.joinRhz (s : State) (uid c key t : Nat) : State :=
  (s.onOwner uid fun w => { w with csr := { w.csr with rhz := max w.csr.rhz t } }).onCtx c fun x =>
    x.onRec key fun r => { r with rhz := max r.rhz t }

/-! ## Translation faults (17 R364) -/

/-- The replay buffer of a die holds 512 entries (DEDUCED: log entry 40). -/
def replayMax : Nat := 512
def Wave.parkedOnFault (w : Wave) : Bool :=
  match w.wait with
  | .fetch _ | .home _ => true
  | _ => false
def State.parkedIn (s : State) (die : Nat) : Nat :=
  ((s.ops.filter fun o => coreDie o.core = die).map fun o => o.parked.toList.length + o.waits.length).foldl (· + ·) 0
    + (s.waves.filter fun uw => uw.2.parkedOnFault && coreDie (unitCore uw.1) = die).length
/-- The change to a full replay buffer is reported (17 R384 class 9), with A0 = 0, as it has no area of the context
(DEDUCED: log entry 40). -/
def State.reportFull (s : State) (c core : Nat) : State :=
  if s.parkedIn (coreDie core) = replayMax then
    s.post (coreDie core) false none [coreEvent s c core 7 9 2 0 (BitVec.ofNat 64 replayMax)]
  else s

/-- Joins or opens a fault record: the state and the token. -/
def State.faultRecord (s : State) (c core : Nat) (src : EventSource) (va : Nat) (write fetch engine perm : Bool) : State × Nat :=
  let asid := match s.ctx c with
    | some x => x.asid.toNat
    | none => 0
  let page := va / 4096
  match s.faults.find? fun f => f.asid = asid && f.page = page && f.write = write && f.fetch = fetch && f.engine = engine with
  | some f =>
    let bump (e : Event) : Event :=
      if e.cls = 1 && e.a1.extractLsb' 0 32 = BitVec.ofNat 32 f.token then
        { e with a1 := (e.a1 &&& ~~~(0xFF#64 <<< 40)) ||| (BitVec.ofNat 64 (min (f.merged + 1) 255) <<< 40) }
      else e
    ({ s with
       faults := s.faults.map fun g => if g.token = f.token then { g with merged := g.merged + 1 } else g
       eventQ := s.eventQ.map bump
       dieEv := s.dieEv.map fun kd => (kd.1, { kd.2 with
         buffer := kd.2.buffer.map bump
         held := kd.2.held.map fun h => { h with records := h.records.map bump } }) }, f.token)
  | none =>
    let token := s.fresh
    let a1 : DWord := BitVec.ofNat 64 (token % 2 ^ 32 + (if write then 2 ^ 32 else 0) + (if fetch then 2 ^ 33 else 0)
      + (if engine then 2 ^ 34 else 0) + 2 ^ 40)
    let e := sourceEvent s c core src 1 (if perm then 1 else 0) (BitVec.ofNat 64 va) a1
    (({ s with
        faults := s.faults ++ [(⟨token, c, asid, page, write, fetch, engine, 1⟩ : FaultRecord)]
        fresh := s.fresh + 1 }).post (coreDie core) true none [e], token)

/-- Parks an operation. Where the replay buffer is full it stays as it is and tries again; each change to full is
reported (17 R364, R384 class 9) (DEDUCED: log entry 40). -/
def State.park (s : State) (o : Op) (srck : Nat) (va : Nat) (write engine perm : Bool) : State :=
  let die := coreDie o.core
  if replayMax ≤ s.parkedIn die then s
  else
    let (s1, token) := s.faultRecord o.ctx o.core (o.source srck) va write false engine perm
    (s1.setOp { o with parked := some token }).reportFull o.ctx o.core

/-- Parks one request of a copy, that of a line; its other requests go on (07 R207; 10 R267). -/
def State.parkLine (s : State) (o : Op) (line srck : Nat) (va : Nat) (write perm : Bool) : State :=
  if replayMax ≤ s.parkedIn (coreDie o.core) then s
  else
    let (s1, token) := s.faultRecord o.ctx o.core (o.source srck) va write false true perm
    (s1.setOp { o with waits := (line, token) :: o.waits }).reportFull o.ctx o.core
/-- Whether the request of a line waits on a fault. -/
def Op.lineWaits (o : Op) (line : Nat) : Bool := o.waits.any fun w => w.1 = line

/-- A translation for an operation: usable, not replayable, or a fault to park on. -/
inductive Via
  | ok (e : TlbEntry)
  | bad
  | fault (perm : Bool)
  deriving DecidableEq, Repr

/-- An access whose fault was answered FAIL is not replayable, whatever the page has become (17 R364). -/
def viaOf (denied : List Nat) (va : Nat) (t : Xlate) : Via :=
  if denied.contains (va / 4096) then .bad
  else match t with
    | .ok e => .ok e
    | .malformed => .bad
    | .notPresent => .fault false
    | .permission => .fault true

def via (s : State) (x : Context) (denied : List Nat) (va : Nat) (read write : Bool) : Via :=
  viaOf denied va (walk s x va read write)

/-- A range cut at 4 KiB boundaries. -/
def chunks (va n : Nat) : List (Nat × Nat) :=
  if n = 0 then []
  else (List.range ((va + n - 1) / 4096 - va / 4096 + 1)).map fun k =>
    let a := max va ((va / 4096 + k) * 4096)
    (a, min (va + n) ((va / 4096 + k + 1) * 4096) - a)

/-- The first page of the ranges that must be parked on: its address, and whether the fault is of permission. -/
def firstFault (s : State) (x : Context) (denied : List Nat) (read write : Bool) (ranges : List (Nat × Nat)) :
    Option (Nat × Bool) :=
  (ranges.flatMap fun r => chunks r.1 r.2).findSome? fun c =>
    match via s x denied c.1 read write with
    | .fault p => some (c.1, p)
    | _ => none

/-! ## Engine reads and writes -/

/-- A byte an engine has read: its value and whether its granule is poisoned; `none` where it could not be read. -/
abbrev EByte := Option (Byte × Bool)

/-- A read of global memory at the homes (12 R296, R306: the visible face). -/
def engineRead (s : State) (x : Context) (denied : List Nat) (va n : Nat) : List EByte :=
  (chunks va n).flatMap fun c =>
    match via s x denied c.1 true false with
    | .ok e => (List.range c.2).map fun i =>
        let a := e.phys (c.1 + i)
        some (Memory.byte s.mem a, s.poison.get false (a / 32))
    | _ => List.replicate c.2 none

/-- The number in bytes that were all read clean. -/
def cleanNat (l : List EByte) : Option Nat :=
  if l.all fun b => match b with
    | some (_, false) => true
    | _ => false
  then some (leNat (l.filterMap fun b => b.map (·.1))) else none

/-- Sideband byte of a line at the homes, on an MX page (DEDUCED: log entry 43). -/
def engineSide (s : State) (x : Context) (denied : List Nat) (va i : Nat) : EByte :=
  match via s x denied va true false with
  | .ok e => if e.mx then
      let a := e.phys va
      some (s.side.get 0 (a / 128 * 8 + i), s.poison.get false (a / 128 * 4))
    else none
  | _ => none

/-- Writes the bytes that are there, granule by granule, poisoning a granule computed from poisoned bytes (17 R374). -/
def State.writeSome (s : State) (die a : Nat) (l : List EByte) : State :=
  let n := l.length
  (List.range ((a + n + 31) / 32 - a / 32)).foldl (fun st k =>
    let lo := max a ((a / 32 + k) * 32)
    let hi := min (a + n) ((a / 32 + k + 1) * 32)
    let part := (l.drop (lo - a)).take (hi - lo)
    let mark := part.any fun b => match b with
      | some (_, p) => p
      | none => false
    if part.all Option.isSome then st.writeBytes die lo (part.filterMap fun b => b.map (·.1)) mark
    else (part.zip (List.range part.length)).foldl (fun st' bi => match bi.1 with
      | some (v, _) => st'.writeBytes die (lo + bi.2) [v] mark
      | none => st') st) s

/-- The write-completion time of a write to a range (12 R295) (DEDUCED: log entry 39). -/
def State.wct (s : State) (a n : Nat) : Nat :=
  (List.range ((a + n + 127) / 128 - a / 128)).foldl (fun t k => max t (s.lx.get 0 (a / 128 + k))) s.pt

/-- Whether a line was accessed in the interval by a unit other than `unit`, be it one that wrote a word before the last
writer did (12 R315). -/
def LineSig.others (g : LineSig) (unit : Option Nat) : Bool :=
  (g.writer ≠ none && g.writer ≠ unit) || g.wmask.any (fun kw => some kw.1 ≠ unit && kw.2 ≠ 0) || g.readers.any (fun r => some r ≠ unit) || !g.dies.isEmpty

/-- What a batch of engine writes has come to: the state, the largest write-completion time, the lowest address that
could not be written, and the lines (by virtual address) whose writes a conflict withheld. -/
structure EngW where
  s : State
  horizon : Nat
  err : Option Nat
  withheld : List Nat

def EngW.start (s : State) : EngW := ⟨s, s.pt, none, []⟩
/-- The lower of two addresses where there are any. -/
def earliest (o : Option Nat) (a : Nat) : Option Nat := some (match o with
  | some b => min a b
  | none => a)
def EngW.fail (w : EngW) (a : Nat) : EngW := { w with err := earliest w.err a }
/-- The first address of a range that cannot be read. -/
def readFail (s : State) (x : Context) (denied : List Nat) (va n : Nat) : Option Nat :=
  (chunks va n).findSome? fun c => match via s x denied c.1 true false with
    | .ok _ => none
    | _ => some c.1

/-- A write of global memory by an engine for a context: `snap` gives the region edges at the command's issue, `face` an
explicit face, and `visible` completion writes, which reach the visible face (12 R306). In compulsory mode a line
touched by another unit keeps its value (R315); lines on a hidden face are not checked
(DEDUCED: log entries 39 and 44). -/
def EngW.write (w : EngW) (c : Nat) (snap : SMap Region) (face : Option Nat) (visible : Bool) (unit : Option Nat)
    (denied : List Nat) (va : Nat) (l : List EByte) : EngW :=
  match w.s.ctx c with
  | none => w.fail va
  | some x =>
    (chunks va l.length).foldl (fun w k =>
      let part := (l.drop (k.1 - va)).take k.2
      match via w.s x denied k.1 false true with
      | .ok e =>
        let vis := e.phys k.1
        let a := if visible then vis else enginePhys { x with regions := snap } e k.1 face
        let hidden := e.shadow.isSome && a ≠ vis
        (List.range ((a + k.2 + 127) / 128 - a / 128)).foldl (fun w j =>
          let lo := max a ((a / 128 + j) * 128)
          let hi := min (a + k.2) ((a / 128 + j + 1) * 128)
          let bytes := (part.drop (lo - a)).take (hi - lo)
          if x.compulsory && !hidden && (x.sigs.get LineSig.empty (lo / 128)).others unit then
            { w with withheld := w.withheld ++ [(k.1 + (lo - a)) / 128 * 128] }
          else
            { w with
              s := w.s.writeSome (homeDie lo) lo bytes
              horizon := max w.horizon (w.s.wct lo (hi - lo)) }) w
      | _ => w.fail k.1) w

/-- A sideband byte of an MX page, written by an engine; conflicts as for its line's bytes (12 R315), and one computed from
poisoned bytes poisons the granule that it goes with (17 R374) (DEDUCED: log entry 43). -/
def EngW.side (w : EngW) (c : Nat) (snap : SMap Region) (face : Option Nat) (unit : Option Nat) (denied : List Nat)
    (va i : Nat) (v : EByte) : EngW :=
  match w.s.ctx c, v with
  | some x, some (b, p) =>
    match via w.s x denied va false true with
    | .ok e =>
      let a := enginePhys { x with regions := snap } e va face
      let hidden := e.shadow.isSome && a ≠ e.phys va
      if !e.mx then w.fail va
      else if x.compulsory && !hidden && (x.sigs.get LineSig.empty (a / 128)).others unit then
        { w with withheld := w.withheld ++ [va / 128 * 128] }
      else
        { w with
          s := { w.s with
            side := w.s.side.put 0 (a / 128 * 8 + i) b
            poison := if p then w.s.poison.put false (a / 128 * 4) true else w.s.poison }
          horizon := max w.horizon (w.s.wct a 1) }
    | _ => w.fail va
  | _, _ => w.fail va

/-- A core whose engine access, a read or (`write`) a write, has reached a shadowed page keeps that page's translation: no
later access of it reaches an older face (12 R309). -/
def State.refreshTlb (s : State) (core : Nat) (x : Context) (denied : List Nat) (write : Bool) (ranges : List (Nat × Nat)) :
    State :=
  (ranges.flatMap fun r => chunks r.1 r.2).foldl (fun st c =>
    match via s x denied c.1 (!write) write with
    | .ok e => st.keepTlb core x c.1 e
    | _ => st) s

/-! ## EPEND (12 R315) -/

/-- The lines of destination ranges that are not on a hidden face, where they can be translated. -/
def pendLines (s : State) (x : Context) (face : Option Nat) (visible : Bool) (ranges : List (Nat × Nat)) : List Nat :=
  if !x.compulsory then []
  else (ranges.flatMap fun r => chunks r.1 r.2).flatMap fun k =>
    match walk s x k.1 false true with
    | .ok e =>
      let a := if visible then e.phys k.1 else enginePhys x e k.1 face
      if e.shadow.isSome && a ≠ e.phys k.1 then []
      else (List.range ((a + k.2 + 127) / 128 - a / 128)).map fun j => a / 128 + j
    | _ => []
def Context.pend (x : Context) (lines : List Nat) (f : Nat → Nat) : Context :=
  { x with sigs := lines.foldl (fun m l =>
      let g := SMap.get LineSig.empty m l
      SMap.put LineSig.empty m l { g with epend := f g.epend }) x.sigs }
def State.setPend (s : State) (c : Nat) (lines : List Nat) : State := s.onCtx c fun x => x.pend lines (· + 1)
def State.clearPend (s : State) (c : Nat) (lines : List Nat) : State := s.onCtx c fun x => x.pend lines (· - 1)

/-- Adds an operation of an engine command with its EPEND lines. -/
def State.addEngineOp (s : State) (u : Nat) (w : Wave) (b : Block) (lines : List Nat) (k : OpKind) : State :=
  let s1 := s.addOp u w b k
  let mark (o : Op) : Op := if o.id = s.fresh then { o with epend := lines } else o
  ({ s1 with ops := s1.ops.map mark }).setPend b.ctx lines

/-! ## Waiting for earlier accesses -/

/-- The accesses of an operation: memory, by virtual address, or a block's scratch. -/
def OpKind.accesses : OpKind → List Access
  | .load a .. | .store a .. | .atomic a .. => [a]
  | .ldt els esize _ side .. =>
    (els.filterMap fun e => e.map fun be => ⟨false, be.1, be.2 / 8, (be.2 % 8 + esize + 7) / 8, false⟩)
      ++ side.toList.map fun k => ⟨false, k.1, 128 * k.2.1 + k.2.2, 1, true⟩
  | _ => []
def OpKind.isLoad : OpKind → Bool
  | .load .. | .ldt .. => true
  | .atomic _ _ _ _ dst .. => !dst.isEmpty
  | _ => false
/-- Reads, which wait for an empty line to become full where it is of scratch (07 R185). -/
def OpKind.isRead : OpKind → Bool
  | .load .. | .ldt .. | .atomic .. => true
  | _ => false
def OpKind.isStore : OpKind → Bool
  | .store .. | .atomic .. | .faddo .. => true
  | _ => false
/-- Whether a wave has an earlier store or atomic to global memory not yet performed (12 R311). -/
def State.globalStores (s : State) (w : Wave) : Bool :=
  s.ops.any fun o => w.owns o.owner && o.kind.isStore && (o.kind.accesses.isEmpty || o.kind.accesses.any Access.glob)
/-- Acquires among operations: later accesses wait for them (12 R300; 20 R405). -/
def OpKind.acquires : OpKind → Bool
  | .atomic _ _ _ _ _ _ use _ => use = .acquire || use = .acqRel
  | .load a .. => a.glob && inWindow a.addr
  | _ => false
/-- What a block-scope release waits for: stores, atomics and scratch accesses (12 R290). -/
def OpKind.beforeRelease (k : OpKind) : Bool := k.isStore || k.accesses.any fun a => !a.glob
/-- What the note of a scratch read says once its line has become full: it was released by that (07 R216). -/
def lineReleased : Nat := 1
/-- An operation that is an acquire: a read that a line's becoming full released is one too (07 R216). -/
def Op.acquires (o : Op) : Bool := o.kind.acquires || (o.kind.isRead && o.note.contains lineReleased)
/-- Whether a wave has an earlier access not yet performed that a block-scope release waits for, or one that an earlier
acquire waits for (12 R290, R298). -/
def State.unreleased (s : State) (w : Wave) : Bool :=
  s.ops.any fun o => w.owns o.owner && (o.kind.beforeRelease || o.acquires || (o.id < w.ordLoads && o.kind.isLoad))
/-- Whether an operation is a read of scratch that waits on an empty line (07 R185) (DEDUCED: log entry 25). -/
def State.lineEmpty (s : State) (a : Access) : Bool :=
  !a.glob && (s.block a.block).any fun b => !b.full a.addr (if a.side then 1 else a.size)
def State.readsEmpty (s : State) (o : Op) : Bool := o.kind.isRead && o.kind.accesses.any s.lineEmpty
/-- Whether an earlier acquire of a wave is not complete: an access that an instruction performs as it issues waits for it
(12 R298, R300). `copy`: a copy or a change of a line, which never waits for a read of an empty line (07 R208)
(DEDUCED: log entry 84). -/
def State.acquiring (s : State) (w : Wave) (copy : Bool) : Bool :=
  s.ops.any fun o => w.owns o.owner && !(copy && s.readsEmpty o) &&
    (o.acquires || s.readsEmpty o || (o.id < w.ordLoads && o.kind.isLoad) || (o.id < w.ordStores && o.kind.beforeRelease))
/-- Whether a wave has an ACPS or TCPYS not yet performed. -/
def State.copiesOut (s : State) (w : Wave) : Bool :=
  s.ops.any fun o => w.owns o.owner && match o.kind with
    | .acps .. | .tcpys .. => true
    | _ => false
/-- Whether a wave has an RPUT, RGET or RFLAG not yet acknowledged. -/
def State.messagesOut (s : State) (w : Wave) : Bool :=
  s.ops.any fun o => w.owns o.owner && match o.kind with
    | .net .. => true
    | _ => false

/-- The time that a release beyond the block waits for: `RHZ`, and what the wave's acquires have observed (12 R297; 21
R430). -/
def Wave.released (w : Wave) : Nat := max w.csr.rhz w.seen
/-- Whether a release at a scope may be performed (12 R290, R297). -/
def State.released (s : State) (w : Wave) (sc : Scope) : Bool :=
  !s.unreleased w &&
    match sc with
    | .block => true
    | .cluster => decide (w.released ≤ s.pt) && !s.copiesOut w
    | .device => decide (w.released ≤ s.pt) && !s.copiesOut w
    | .system => decide (w.released ≤ s.pt) && !s.copiesOut w && !s.messagesOut w

/-- The largest write-completion time of the writes of a block's waves and forerunner context, those that have ended
included. -/
def State.blockHorizon (s : State) (uid : Nat) : Nat :=
  match s.block uid with
  | none => 0
  | some b =>
    (((s.waves.filter fun uw => uw.2.block = uid).map (·.2)) ++ b.stack.flatMap fun e => e.saved.map SavedWave.wave).foldl
      (fun t w => max t w.released) b.horizon
/-- What an acquire observes once it is complete: the writes of the waves of its block, which a later release then waits for too, since
releases are cumulative (21 R430). Writes of other blocks reach it only by releases that waited for them
(DEDUCED: log entry 86). -/
def Wave.observe (w : Wave) (s : State) : Wave := { w with seen := max w.seen (s.blockHorizon w.block) }
/-- A block-scope acquire-release fence: no later access is performed before the accesses issued so far (06 R177; 07 R217). -/
def Wave.fenced (w : Wave) (s : State) : Wave := { w.observe s with ordLoads := s.fresh, ordStores := s.fresh }

end Sys2Proof.Machine
end

