-- ==== Sys2Proof/Machine/Block.lean ====
section
/-!
DEFINITION. Control of a block: named and cluster barriers (06 R176, R177; 10 R257, R258), the decision queue (06 R175),
WFUSE and WSPLIT (02 R77 to R79), the multi-way branch and its compaction (06 R178 to R181), the end of a wave (02 R75;
04 R121; 08 R227) and of a block (06 R164; 10 R255; 11 R283).
-/
namespace Sys2Proof.Machine

/-! ## The matrix engine's owner -/

def State.mat (s : State) (core : Nat) : Matrix := (s.core core).mat
def State.onMat (s : State) (core : Nat) (f : Matrix → Matrix) : State :=
  s.setCore core { s.core core with mat := f (s.core core).mat }

/-- MREL's effect, also that of a wave's end (08 R226, R227). -/
def Matrix.release (m : Matrix) : Matrix := { m with owner := none, mode := none, latch := none }

/-- Entries of a wave that have not finished (08 R245). -/
def Matrix.pendingOf (m : Matrix) (uid : Nat) : Bool := m.queue.any fun e => e.owner = uid

/-- Whether an entry still reads A registers (08 R227). -/
def MatOp.readsA : MatOp → Bool
  | .mma .. | .maccw .. => true
  | _ => false

/-- Compulsory mode: before an arrival the wave waits as MWAIT does (08 R247). -/
def mwaitHolds (s : State) (u : Nat) (w : Wave) (b : Block) : Bool := s.cmp b && (s.mat (unitCore u)).pendingOf w.uid

/-! ## Waves of a block -/

/-- The live waves that barriers count (06 R176): those that run and those that a multi-way branch has saved, without
compacted path waves and forerunner contexts. -/
def State.liveWaves (s : State) (b : Block) : List Wave :=
  ((s.blockWaves b.uid).map (·.2) ++ b.stack.flatMap fun e => e.saved.map SavedWave.wave).filter fun w => !w.cpt

/-- Whether a wave of another block holds the slice: it keeps it until its pass point (06 R170). -/
def Turn.heldByOther (t : Turn) (index : Nat) : Bool := !t.passed && match t.key with
  | some k => k.1 ≠ index
  | none => false
/-- A barrier interval of a block begins (06 R170, R172): its slices start their rotations and its scratch records
clear (DEDUCED: log entry 17). -/
def State.newInterval (s : State) (b : Block) : State :=
  let s1 := s.setBlock { (s.block b.uid).getD b with scrRecords := [] }
  let slices := (s.blockWaves b.uid).map fun uw => unitSlice uw.1
  let c := s1.core b.core
  s1.setCore b.core { c with turn := slices.foldl (fun t k =>
      if (SMap.get Turn.start t (turnKey b.ctx k)).heldByOther b.index then t
      else SMap.put Turn.start t (turnKey b.ctx k) Turn.start) c.turn }

/-! ## Barriers (06 R176) -/

/-- Arrive: the barrier after it and the arriving wave's tag, or misuse. -/
def Barrier.arrive (r : Barrier) (tag : Option Bool) (c limit : Nat) : Option (Barrier × Option Bool) :=
  if limit < c || tag = some r.phase || (0 < r.arrivals && c ≠ r.expected) then none
  else some ({ r with expected := c, arrivals := r.arrivals + 1 }, some r.phase)

/-- Evaluate: whether the phase completes. -/
def Barrier.complete (r : Barrier) (live : Nat) : Bool :=
  0 < r.arrivals && decide ((if r.expected = 0 then live else r.expected) ≤ r.arrivals)
def Barrier.flip (r : Barrier) : Barrier := { r with phase := !r.phase, arrivals := 0 }

/-- Waiters of named barrier k are released, but for a BARW whose time is over (06 R176): a BARW as an acquire, a BARS as an
acquire-release fence (06 R177). -/
def Wave.releaseNamed (s : State) (k : Nat) (w : Wave) : Wave :=
  match w.wait with
  | .bars k' => if k' = k then (w.fenced s).resume else w
  | .barw k' d dl => if k' = k && !expired s dl then ((w.observe s).putS d 1).resume else w
  | _ => w

/-- Evaluate of a named barrier. A phase that every live wave joined begins a barrier interval. -/
def State.evalNamed (s : State) (uid k : Nat) : State :=
  match s.block uid with
  | none => s
  | some b =>
    let r := b.barriers.get Barrier.launch k
    let live := s.liveWaves b
    if r.complete live.length then
      let all := live.all fun w => w.tags.getD k none = some r.phase
      let s1 := s.setBlock { b with barriers := b.barriers.put Barrier.launch k r.flip }
      let s2 := { s1 with waves := s1.waves.map fun uw =>
        if uw.2.block = uid then (uw.1, uw.2.releaseNamed s k) else uw }
      if all then s2.newInterval b else s2
    else s

/-- The waves of a group's blocks. -/
def State.groupWaves (s : State) (g : Nat) : List Wave :=
  (s.blocks.filter fun kb => kb.2.group = g).flatMap fun kb => s.liveWaves kb.2

def Wave.releaseCluster (s : State) (w : Wave) : Wave :=
  match w.wait with
  | .cbarw d dl => if expired s dl then w else ((w.observe s).putS d 1).resume
  | _ => w

/-- Evaluate of a group's cluster barrier (10 R258). -/
def State.evalCluster (s : State) (g : Nat) : State :=
  match s.groups.find g with
  | none => s
  | some gr =>
    if gr.bar.complete (s.groupWaves g).length then
      let s1 := { s with groups := s.groups.ins g { gr with bar := gr.bar.flip } }
      { s1 with waves := s1.waves.map fun uw =>
          match s1.block uw.2.block with
          | some b => if b.group = g then (uw.1, uw.2.releaseCluster s) else uw
          | none => uw }
    else s

/-! ## The decision queue (06 R175) -/

/-- Frees the entries that every live wave has passed, and releases waiters whose condition holds. -/
def State.tidyQueue (s : State) (uid : Nat) : State :=
  match s.block uid with
  | none => s
  | some b =>
    let live := s.liveWaves b
    let low := live.foldl (fun m w => min m w.dqPos) (b.dqBase + b.dq.length)
    let n := low - b.dqBase
    let b1 := { b with dq := b.dq.drop n, dqBase := b.dqBase + n }
    let top := b1.dqBase + b1.dq.length
    let wake (w : Wave) : Wave :=
      if w.block ≠ uid then w
      else match w.wait with
        | .dqpop => if w.dqPos < top then { w with wait := .none } else w
        | .dqpush => if b1.dq.length < 64 then { w with wait := .none } else w
        | _ => w
    let s1 := s.setBlock b1
    { s1 with waves := s1.waves.map fun uw => (uw.1, wake uw.2) }

/-! ## Lanes moving between waves -/

/-- The per-lane state that moves with lanes (02 R77, R79; 06 R180). -/
structure LanePart where
  v : SMap Word
  e : SMap Byte
  gen : SMap Word
  m : SMap DWord
  vPoison : List Nat
  ePoison : List Nat
  exited : DWord

def LanePart.empty : LanePart := ⟨[], [], [], [], [], [], 0⟩

/-- Moves keys of the form 64 × register + position. -/
def mapKeys {α : Type} (m : SMap α) (f : Nat → Option Nat) : SMap α :=
  m.foldl (fun acc kv => match f (kv.1 % 64) with
    | some p => SMap.ins acc (kv.1 / 64 * 64 + p) kv.2
    | none => acc) []
def mapKeyList (l : List Nat) (f : Nat → Option Nat) : List Nat :=
  l.filterMap fun k => (f (k % 64)).map fun p => k / 64 * 64 + p
def mapBits (x : DWord) (f : Nat → Option Nat) : DWord :=
  (List.range 64).foldl (fun acc p => match f p with
    | some q => if x.getLsbD p then acc ||| (1#64 <<< q) else acc
    | none => acc) 0

/-- The lanes of a wave for which `f` gives a new position. -/
def Wave.part (w : Wave) (f : Nat → Option Nat) : LanePart :=
  { v := mapKeys w.regs.v f, e := mapKeys w.regs.e f, gen := mapKeys w.regs.gen f
    m := (List.range 16).foldl (fun acc n => SMap.put 0 acc n (mapBits (w.getM n) f)) []
    vPoison := mapKeyList w.regs.vPoison f, ePoison := mapKeyList w.regs.ePoison f
    exited := mapBits w.exited f }

def unionMap {α : Type} (a b : SMap α) : SMap α := b.foldl (fun acc kv => SMap.ins acc kv.1 kv.2) a

def LanePart.join (a b : LanePart) : LanePart :=
  { v := unionMap a.v b.v, e := unionMap a.e b.e, gen := unionMap a.gen b.gen
    m := (List.range 16).foldl (fun acc n => SMap.put 0 acc n (SMap.get 0 a.m n ||| SMap.get 0 b.m n)) []
    vPoison := a.vPoison ++ b.vPoison, ePoison := a.ePoison ++ b.ePoison, exited := a.exited ||| b.exited }

/-- A wave with its lanes replaced. -/
def Wave.withPart (w : Wave) (p : LanePart) : Wave :=
  { w with
    exited := p.exited
    regs := { w.regs with v := p.v, e := p.e, gen := p.gen, m := p.m, vPoison := p.vPoison, ePoison := p.ePoison } }

/-! ## The end of a block and of a wave -/

/-- A block retires (11 R283): its record counts it and its resources are freed, a group's scratch together (10 R255)
(DEDUCED: log entry 29). -/
def State.retireBlock (s : State) (b : Block) : State :=
  let s1 := s.onCtx b.ctx fun x => x.onRec b.record fun r => { r with live := r.live - 1 }
  let s2 := { s1 with blocks := s1.blocks.upd b.uid fun k => { k with ended := true } }
  if s2.blocks.all fun kb => kb.2.group ≠ b.group || kb.2.ended then
    { s2 with
      blocks := s2.blocks.map fun kb => if kb.2.group = b.group then (kb.1, { kb.2 with freed := true }) else kb
      groups := s2.groups.del b.group }
  else s2

/-- The SPAWNs held for a replay-safe block in default mode (17 R380). -/
def heldFor (x : Context) (b : Block) : List HeldSpawn :=
  match x.rec? b.record with
  | some r => if x.compulsory || !b.rsafe then [] else r.held.filter fun h => h.block = b.uid
  | none => []
/-- They are submitted when the block is about to retire, before it decrements its record (DEDUCED: log entry 52). -/
def Context.submitHeld (x : Context) (b : Block) : Context :=
  let l := heldFor x b
  let x1 := x.onRec b.record fun r => { r with held := r.held.filter fun h => !l.contains h }
  { x1 with subs := x1.subs ++ l.map fun h => ⟨[h.addr], .none, [], 0, b.uid, .none⟩ }

/-- Whether a copy still has to read a block's scratch (07 R204; 10 R266). -/
def OpKind.reads (k : OpKind) (uid : Nat) : Bool :=
  match k with
  | .acps lanes _ _ _ _ _ none => lanes.any fun l => l.2.1 = uid
  | .tcpys c _ _ _ none => c.block = uid
  | _ => false
/-- Whether a copy, or a matrix step of its own or of a partner's wave, still has to read a block's scratch (08 R227). -/
def State.scratchInUse (s : State) (b : Block) : Bool :=
  s.ops.any (fun o => o.kind.reads b.uid) ||
    s.cores.any fun kc => kc.2.mat.queue.any fun e => e.block = b.uid || (s.block e.block).any fun k => k.group = b.group

/-- What freed scratch held goes once nothing reads it any more (DEDUCED: log entry 29). -/
def State.dropFreed (s : State) : State :=
  { s with blocks := s.blocks.keep fun _ k => !k.freed || s.scratchInUse k }

/-- Retires the block if nothing of it runs and its SPAWNs have been accepted (11 R277) (DEDUCED: log entry 29). -/
def State.checkBlock (s : State) (uid : Nat) : State :=
  match s.block uid with
  | none => s
  | some b =>
    if b.ended || !b.stack.isEmpty || s.waves.any (fun uw => uw.2.block = uid) then s
    else match s.ctx b.ctx with
      | none => s.retireBlock b
      | some x =>
        if !(heldFor x b).isEmpty then s.onCtx b.ctx fun x => x.submitHeld b
        else if x.subs.any fun q => q.block = uid then s
        else s.retireBlock b

/-- The units of a slice: its four slots. -/
def sliceSlots (core slice : Nat) : List Nat := (List.range 4).map fun k => 64 * core + 4 * slice + k

/-- The slots of a slice that no wave runs in and no meeting wave of a multi-way branch holds (02 R79; 06 R179). -/
def State.freeSlots (s : State) (core slice : Nat) : List Nat :=
  (sliceSlots core slice).filter fun k => !s.waves.has k && !s.blocks.any fun kb =>
    kb.2.core = core && kb.2.stack.any fun e => e.saved.any fun sw => 64 * core + sw.slot = k

/-- A trap of a waiting wave at the instruction that waits, or the deferred error that it has (02 R81). -/
def State.trapWaiting (s : State) (u : Nat) (t : Trap) : State :=
  match s.wave u with
  | some w => match w.deferred with
    | [] => s.enterTrap u w t
    | d :: more => s.enterTrap u { w with deferred := [] } ((d.lowest more).trap w.pc)
  | none => s

/-- BARRIER_MISUSE of waiting waves (02 R78; 06 R178): TRAPINFO0 is each wave's own word. -/
def State.misuseAll (s : State) (us : List Nat) : State :=
  us.foldl (fun st u => match st.wave u with
    | some w => st.trapWaiting u ⟨causeBarrierMisuse, w.word, 0⟩
    | none => st) s

/-! ### WFUSE (02 R77, R78) -/

/-- Whether a wave covers a lane number of [lo, hi). -/
def Wave.covers (w : Wave) (lo hi : Nat) : Bool := w.lanes.any fun q => lo ≤ q && q < hi

/-- Where a group waiting at WFUSE stands. -/
inductive FuseState | fail | wait | ready
  deriving DecidableEq, Repr

/-- The group of a wave that waits with target width T (DEDUCED: log entry 32). -/
def fuseState (s : State) (b : Block) (w : Wave) (T : Nat) : FuseState :=
  let G := w.first / T * T
  let live := (s.blockWaves b.uid).map (·.2)
  let inGroup := live.filter fun p => p.covers G (G + T)
  if inGroup.any fun p => p.width ≠ w.width || match p.wait with
      | .wfuse T' => T' ≠ T
      | _ => false
  then .fail
  else
    let firsts := (List.range (T / w.width)).map fun i => G + i * w.width
    if firsts.any fun f => f < b.lanes && !inGroup.any fun p => p.first = f then .fail
    else if firsts.all fun f => inGroup.any fun p => p.first = f && p.wait = .wfuse T then .ready
    else .wait

/-- The fused wave: the leading partner's place and scalars, the lanes of all (02 R77) (DEDUCED: log entry 33). -/
def fuseWaves (lead : Wave) (parts : List Wave) (T : Nat) : Wave :=
  let lanes := (parts.zip (List.range parts.length)).foldl (fun acc wi =>
    acc.join (wi.1.part fun p => if p < lead.width then some (wi.2 * lead.width + p) else none)) LanePart.empty
  let w := (lead.withPart lanes).resume
  { w with
    kin := w.kin ++ (parts.flatMap fun p => p.uid :: p.kin)
    width := T
    lanes := parts.flatMap fun p => p.lanes
    faddoN := parts.flatMap fun p => p.faddoN
    deferred := parts.flatMap fun p => p.deferred
    csr := { w.csr with
      wpart := 0
      fsticky := parts.foldl (fun f p => f ||| p.csr.fsticky) 0
      rhz := parts.foldl (fun t p => max t p.csr.rhz) 0
      comm := parts.any fun p => p.csr.comm
      hnd := false }
    seen := parts.foldl (fun t p => max t p.seen) 0
    ordLoads := parts.foldl (fun t p => max t p.ordLoads) 0
    ordStores := parts.foldl (fun t p => max t p.ordStores) 0 }

/-- Names replaced in a matrix engine, and its writer records (08 R227, R247). -/
def Matrix.fuse (m : Matrix) (uids : List Nat) (lead : Nat) (c index : Nat) (firsts : List Nat) (G : Nat) : Matrix :=
  { m with
    owner := m.owner.map fun o => if uids.contains o then lead else o
    queue := m.queue.map fun e => if uids.contains e.owner then { e with owner := lead } else e
    writers := m.writers.map fun kw =>
      if kw.2.1 = c && kw.2.2.1 = index && firsts.contains kw.2.2.2 then (kw.1, (c, index, G)) else kw }

/-- Forms the group of a waiting leading partner. -/
def State.formFused (s : State) (b : Block) (w : Wave) (T : Nat) : State :=
  let G := w.first / T * T
  let parts := (List.range (T / w.width)).filterMap fun i =>
    (s.blockWaves b.uid).find? fun uw => uw.2.first = G + i * w.width
  match parts with
  | [] => s
  | (u, lead) :: rest =>
    let ws := parts.map (·.2)
    let s1 := rest.foldl (fun st p => st.dropWave p.1) (s.setWave u (fuseWaves lead ws T))
    s1.onMat (unitCore u) fun m =>
      m.fuse (ws.map (·.uid)) lead.uid b.ctx b.index (ws.map (·.first)) G

/-- The waves of a block that wait at WFUSE, with their units and targets. -/
def State.fuseWaiters (s : State) (uid : Nat) : List (Nat × Wave × Nat) :=
  (s.blockWaves uid).filterMap fun uw => match uw.2.wait with
    | .wfuse T => some (uw.1, uw.2, T)
    | _ => none

/-- Fuses each complete group that a unit of a list waits in. -/
def State.fuseReady (b : Block) : List Nat → State → State
  | [], s => s
  | u :: rest, s =>
    match (s.fuseWaiters b.uid).find? fun x => x.1 = u && fuseState s b x.2.1 x.2.2 = .ready with
    | some (_, w, T) => (s.formFused b w T).fuseReady b rest
    | none => s.fuseReady b rest

/-- Settles the WFUSE groups of a block: failing groups trap in every waiting partner, complete ones fuse, and decisions
that every wave left has passed are freed (02 R77, R78; 06 R175) (DEDUCED: log entry 32). -/
def State.checkFuse (s : State) (uid : Nat) : State :=
  match s.block uid with
  | none => s
  | some b =>
    let waiting := s.fuseWaiters uid
    let failing := waiting.filter fun x => fuseState s b x.2.1 x.2.2 = .fail
    let s1 := s.misuseAll ((waiting.filter fun x => failing.any fun y =>
      x.2.1.covers (y.2.1.first / y.2.2 * y.2.2) (y.2.1.first / y.2.2 * y.2.2 + y.2.2)).map (·.1))
    let s2 := s1.fuseReady b (waiting.map (·.1))
    if waiting.isEmpty then s else s2.tidyQueue uid

/-! ### Multi-way branch (06 R178 to R181) -/

/-- Places one lane, Q and where it stands, in the compacted waves of a slice (06 R179). -/
def placeLane (W : Nat) (ws : List (List (Nat × Nat × Nat))) (l : Nat × Nat × Nat) : List (List (Nat × Nat × Nat)) :=
  let same (c : List (Nat × Nat × Nat)) : Nat := (c.filter fun m => m.1 % 32 = l.1 % 32).length
  let fits (c : List (Nat × Nat × Nat)) : Bool := c.length < W && same c < (if W = 64 then 2 else 1)
  match ws with
  | [] => [[l]]
  | c :: t => if fits c then (c ++ [l]) :: t else c :: placeLane W t l

/-- A compacted path wave from its lanes: Q, meeting slot and position (06 R180) (DEDUCED: log entry 33). -/
def compactWave (s : State) (saved : List SavedWave) (start : DWord) (uid : Nat) (c : List (Nat × Nat × Nat)) :
    Option Wave :=
  match c with
  | [] => none
  | l0 :: _ =>
    match saved.find? fun sw => sw.slot = l0.2.1 with
    | none => none
    | some m0 =>
      let lanes := saved.foldl (fun acc sw => acc.join (sw.wave.part fun p =>
        let i := c.findIdx fun l => l.2.1 = sw.slot && l.2.2 = p
        if i < c.length then some i else none)) LanePart.empty
      let m0w := m0.wave
      let qs := c.map (·.1)
      let w1 := m0w.withPart { lanes with m := SMap.put 0 lanes.m 0 (lowMask c.length), exited := 0 }
      some { w1 with
        uid := uid, kin := [], cpt := true, lanes := qs, pc := start, rb := [], deferred := [], wait := .none
        faddoN := saved.flatMap fun sw => sw.wave.faddoN.filter fun e => qs.contains e.1
        ordLoads := s.fresh, ordStores := s.fresh }

/-- Puts back what a compacted wave's lanes hold into the saved meeting waves (06 R181) (DEDUCED: log entry 33). -/
def absorb (c : Wave) (sw : SavedWave) : SavedWave :=
  let m := sw.wave
  let back (p : Nat) : Option Nat :=
    let i := m.lanes.findIdx fun q => q = c.lanes.getD p m.lanes.length && c.lanes.contains q
    if p < c.lanes.length && i < m.lanes.length then some i else none
  let mine (p : Nat) : Bool := c.lanes.contains (m.lanes.getD p 1000000)
  if !m.lanes.any c.lanes.contains then sw
  else
    let keepPart := m.part fun p => if p < m.lanes.length && !mine p then some p else none
    let joined := keepPart.join (c.part back)
    let m1 := m.withPart { joined with
      m := SMap.put 0 joined.m 0 (m.getM 0 &&& ~~~(mapBits c.exited back))
      exited := m.exited ||| mapBits c.exited back }
    { sw with wave := { m1 with
        kin := m1.kin ++ (c.uid :: c.kin)
        seen := max m1.seen c.seen
        deferred := if m.lanes.contains (c.lanes.headD 0) then m.deferred ++ c.deferred else m.deferred
        faddoN := (m.faddoN.filter fun e => !c.lanes.contains e.1) ++ c.faddoN.filter fun e => m.lanes.contains e.1
        csr := { m1.csr with fsticky := m1.csr.fsticky ||| c.csr.fsticky, rhz := max m1.csr.rhz c.csr.rhz } } }

def State.setTop (s : State) (uid : Nat) (f : StackEntry → StackEntry) : State :=
  { s with blocks := s.blocks.upd uid fun b => match b.stack with
      | [] => b
      | e :: t => { b with stack := f e :: t } }

/-- A compacted wave leaves the path: its lanes go back to the saved waves. -/
def State.absorbWave (s : State) (uid : Nat) (c : Wave) : State :=
  s.setTop uid fun e => { e with saved := e.saved.map (absorb c) }

/-- The compacted waves of a path, slice by slice, with the slots they run in. -/
def pathWaves (s : State) (saved : List SavedWave) (start : DWord) (lanes : List (Nat × Nat)) : List (Nat × Wave) :=
  let W := match saved with
    | sw :: _ => sw.wave.width
    | [] => 0
  let located := lanes.filterMap fun l =>
    (saved.find? fun sw => sw.slot = l.1).map fun sw => (sw.wave.lanes.getD l.2 0, l.1, l.2)
  ((List.range 8).foldl (fun (acc : List (Nat × Wave) × Nat) slice =>
    let here := sortBy (fun a b => decide (a.1 ≤ b.1)) (located.filter fun l => l.2.1 / 4 = slice)
    let groups := here.foldl (placeLane W) []
    let slots := sortBy (fun a b => decide (a ≤ b)) ((saved.map SavedWave.slot).filter fun k => k / 4 = slice)
    let made := ((groups.zip slots).zip (List.range groups.length)).filterMap fun gs =>
      (compactWave s saved start (s.fresh + acc.2 + gs.2) gs.1.1).map fun w => (gs.1.2, w)
    (acc.1 ++ made, acc.2 + groups.length)) ([], 0)).1

/-- The restore of the meeting waves: they go on after the join address (06 R181). A wave all of whose lanes have exited
ends; the caller does that. -/
def State.restoreTop (s : State) (b : Block) (e : StackEntry) : State :=
  let s1 := { s with blocks := s.blocks.upd b.uid fun k => { k with stack := k.stack.drop 1 } }
  let s2 := e.saved.foldl (fun st sw =>
    let w := sw.wave
    st.setWave (64 * b.core + sw.slot)
      { w with
        wait := .none
        pc := e.join + 4
        csr := { w.csr with retired := w.csr.retired + 2 }
        ordLoads := st.fresh, ordStores := st.fresh }) s1
  match s2.block b.uid with
  | some b' => s2.newInterval b'
  | none => s2

/-- The next non-empty path starts, or the meeting waves are restored. -/
def State.nextPath (s : State) (uid : Nat) : State :=
  match s.block uid with
  | none => s
  | some b =>
    match b.stack with
    | [] => s
    | e :: _ =>
      match e.paths.dropWhile fun p => p.2.isEmpty with
      | [] => s.restoreTop b e
      | p :: rest =>
        let ws := pathWaves s e.saved p.1 p.2
        let s1 := s.setTop uid fun e => { e with paths := rest }
        let s2 := ws.foldl (fun st kw => st.setWave (64 * b.core + kw.1) kw.2) s1
        { s2 with fresh := s2.fresh + 64 }

/-- Whether two waits at MBR agree (06 R178). -/
def mbrAgree (a b : Wave) : Bool := a.width = b.width && a.pc = b.pc && a.wait = b.wait

/-- Which path a lane takes: the least i with its bit set in M[mA + i], or n (06 R178). -/
def lanePath (w : Wave) (mA n p : Nat) : Nat :=
  ((List.range n).find? fun i => (w.getM (mA + i)).getLsbD p).getD n

/-- The meeting: the entry is pushed and the first path starts. -/
def State.meet (s : State) (b : Block) (uws : List (Nat × Wave)) : State :=
  match uws with
  | [] => s
  | (_, w0) :: _ =>
    match w0.wait with
    | .mbr _ mA n join targets =>
      let start (i : Nat) : DWord :=
        if i < n then w0.pc + ((targets.getD i 0).signExtend 64) * 4 else w0.pc + 4
      let lanes (i : Nat) : List (Nat × Nat) := uws.flatMap fun uw =>
        (uw.2.active.filter fun p => lanePath uw.2 mA n p = i).map fun p => (unitSlot uw.1, p)
      let e : StackEntry :=
        { join := join, paths := (List.range (n + 1)).map fun i => (start i, lanes i)
          saved := uws.map fun uw => ⟨unitSlot uw.1, { uw.2 with wait := .none }⟩ }
      let s1 := uws.foldl (fun st uw => st.dropWave uw.1) (s.newInterval b)
      ({ s1 with blocks := s1.blocks.upd b.uid fun k => { k with stack := e :: k.stack } }).nextPath b.uid
    | _ => s

/-- Settles waits at MBR and BJOIN: a mismatch traps in every waiting wave; a meeting of all goes ahead; a path all of
whose waves have arrived or ended goes on to the next. -/
def State.checkPaths (s : State) (uid : Nat) : State :=
  match s.block uid with
  | none => s
  | some b =>
    let uws := s.blockWaves uid
    let waiting := uws.filter fun uw => match uw.2.wait with
      | .mbr .. => true
      | _ => false
    match waiting with
    | uw :: _ =>
      if waiting.any fun x => !mbrAgree uw.2 x.2 then s.misuseAll (waiting.map (·.1))
      else if waiting.length = uws.length then s.meet b uws
      else s
    | [] =>
      if !b.stack.isEmpty && uws.all fun uw => uw.2.wait = .bjoin then
        let s1 := uws.foldl (fun st uw => (st.absorbWave uid uw.2).dropWave uw.1) s
        s1.nextPath uid
      else s

/-! ### The end of a wave -/

/-- Everything that the end of a wave of a block leads to (06 R176, R178, R181; 02 R78). -/
def State.afterEnd (s : State) (uid : Nat) : State :=
  let s1 := (List.range 8).foldl (fun st k => st.evalNamed uid k) s
  let s2 := match s1.block uid with
    | some b => s1.evalCluster b.group
    | none => s1
  (((s2.checkFuse uid).checkPaths uid).tidyQueue uid).checkBlock uid

/-- A wave or forerunner context leaves its unit: the engine is released and the slice passed on (02 R75; 06 R170; 08
R227). A compacted wave's lanes go back first. -/
def State.removeWave (s : State) (u : Nat) (w : Wave) : State :=
  let s1 := if w.cpt then s.absorbWave w.block w else s
  let s2 := ((s1.dropWave u).onBlock w.block fun b => { b with horizon := max b.horizon w.released }).passTurn u w false
  s2.onMat (unitCore u) fun m =>
    let m1 := { m with waiters := m.waiters.filter fun x => x ≠ w.uid }
    if m1.owner = some w.uid then m1.release else m1

/-- Waves of a block with no live lane, which a restore or a split leaves behind, end. -/
def Wave.dead (w : Wave) : Bool := !w.fore && w.exited &&& lowMask w.count = lowMask w.count

def State.endDead (s : State) (uid : Nat) : Nat → State
  | 0 => s
  | n + 1 =>
    match (s.blockWaves uid).find? fun uw => uw.2.dead with
    | some (u, w) => ((s.removeWave u w).afterEnd uid).endDead uid n
    | none => s

/-- The end of a wave or forerunner context (02 R75; 04 R121). -/
def State.endWave (s : State) (u : Nat) (w : Wave) : State :=
  (((s.removeWave u w).afterEnd w.block).endDead w.block 32)

end Sys2Proof.Machine
end

