-- ==== Sys2Proof/Machine/Wctl.lean ====
section
/-!
DEFINITION. Wave control at issue: WFUSE, WSPLIT, WBASE, WEXIT (04 R116 to R121; 02 R75 to R79), the barriers (06 R176,
R177; 10 R258), the decision queue (06 R174, R175), MBR and BJOIN (06 R178 to R181), and the timeouts of BARW and CBARW.
-/
namespace Sys2Proof.Machine

/-! ## Where they may run (04 R116) -/

/-- Not in the forerunner and not in a compacted path wave (DEDUCED: log entry 10). -/
def notForeCpt (s : State) (w : Wave) : Option Trap := if w.fore || w.cpt then some (illegal s 4) else none
/-- Nor in the handler. -/
def onlyPlain (s : State) (w : Wave) : Option Trap :=
  if w.fore || w.cpt || w.csr.hnd then some (illegal s 4) else none
/-- Only in a block of a cluster launch (10 R258). -/
def onlyCluster (s : State) (w : Wave) : Option Trap :=
  match s.block w.block with
  | some b => if w.fore || w.cpt || b.groupSize < 2 then some (illegal s 4) else none
  | none => some (illegal s 4)
def onlyFore (s : State) (w : Wave) : Option Trap := if w.fore then none else some (illegal s 4)
def onlyCpt (s : State) (w : Wave) : Option Trap := if w.cpt then none else some (illegal s 4)

/-- A register-direct copy of the wave has not written its registers (10 R269). -/
def Wave.copying (w : Wave) : Bool := !w.regs.vBusy.isEmpty

def misuse (s : State) (info1 : Word) : Trap := wordTrap s causeBarrierMisuse info1

/-! ## WFUSE and WSPLIT -/

/-- WFUSE: the wave waits for its group (02 R77, R78) (DEDUCED: log entry 32). -/
def execWfuse (p : Bool) (b : BitVec 7) (s : State) : Result :=
  issue s p ⟨true, noEntry, onlyPlain, []⟩ fun u w blk =>
    let T := b.toNat
    if w.copying then .stall
    else if T ≤ w.width || T / w.width = 8 then .trap (illegal s 6)
    else .done ((s.startWait u w (.wfuse T)).checkFuse blk.uid)

/-- Part i of a split wave (02 R79) (DEDUCED: log entry 33). -/
def splitPart (s : State) (w : Wave) (T i : Nat) : Wave :=
  let lanes := (w.lanes.drop (i * T)).take T
  let w1 := (w.withPart (w.part fun p => if i * T ≤ p ∧ p < (i + 1) * T then some (p - i * T) else none)).next
  { w1 with
    uid := if i = 0 then w.uid else s.fresh + i
    kin := if i = 0 then w.kin else w.uid :: w.kin
    width := T, lanes := lanes, first := w.first + i * T
    faddoN := w.faddoN.filter fun e => lanes.contains e.1
    csr := { w1.csr with wpart := i, comm := w.csr.comm && decide (i = 0) } }

/-- WSPLIT (02 R79); a group that waits at WFUSE for the wave's lanes fails where their width changes (02 R78)
(DEDUCED: log entries 29 and 32). -/
def execWsplit (p : Bool) (b : BitVec 7) (s : State) : Result :=
  issue s p ⟨true, noEntry, onlyPlain, []⟩ fun u w blk =>
    let T := b.toNat
    let n := w.width / T
    let free := s.freeSlots (unitCore u) (unitSlice u)
    if w.copying then .stall
    else if !(n = 2 || n = 4) || free.length < n - 1 then .trap (illegal s 6)
    else
      let s1 := (u :: free).take n |>.zip (List.range n) |>.foldl (fun st ki => st.setWave ki.1 (splitPart s w T ki.2)) s
      .done ((({ s1 with fresh := s1.fresh + n }).endDead blk.uid 4).checkFuse blk.uid)

/-- WBASE moves the window (04 R119). -/
def execWbase (p : Bool) (n : BitVec 5) (s : State) : Result :=
  issue s p ⟨true, noEntry, notForeCpt, []⟩ fun u w b =>
    let x := 8 * n.toNat
    if b.vregs ≤ x then .trap (wordTrap s causeWindow (BitVec.ofNat 32 x))
    else .done (s.setWave u { w with csr := { w.csr with winbase := x } }.next)

/-- The active lanes exit (02 R75). -/
def Wave.exit (w : Wave) : Wave :=
  { w with exited := w.exited ||| w.m0, regs := { w.regs with m := w.regs.m.put 0 0 0 } }
/-- Every lane has exited. -/
def Wave.over (w : Wave) : Bool := w.exited &&& lowMask w.count = lowMask w.count

/-- WEXIT retires the active lanes, and ends a wave with no live lane and a forerunner context (04 R121; 08 R227)
(DEDUCED: log entry 87). -/
def execWexit (p : Bool) (s : State) : Result :=
  issue s p ⟨true, noEntry, anywhere, []⟩ fun u w _ =>
    if w.fore then .done ((s.setWave u w.next).endWave u w)
    else if w.copying then .stall
    else
      let w1 := w.exit
      if !w1.over then .done (s.setWave u w1.next)
      else if (s.mat (unitCore u)).queue.any fun e => e.owner = w.uid && e.op.readsA then .stall
      else .done ((s.setWave u w1).endWave u w1)

/-! ## Named barriers -/

def setTag (w : Wave) (k : Nat) (t : Option Bool) : Wave :=
  { w with tags := (List.range 8).map fun i => if i = k then t else w.tags.getD i none }

/-- What an arrival waits for: MWAIT's condition in compulsory mode (08 R247), and what its block-scope release names (06
R177; 12 R290). -/
def arriveHolds (s : State) (u : Nat) (w : Wave) (b : Block) : Bool := mwaitHolds s u w b || !s.released w .block

/-- The arrival of a wave at barrier k; `after` is the wave once it has arrived. -/
def arriveNamed (s : State) (u : Nat) (w : Wave) (b : Block) (k c : Nat) (after : Wave → Wave) : Eff :=
  if arriveHolds s u w b then .stall
  else
    match (b.barriers.get Barrier.launch k).arrive (w.tags.getD k none) c 2048 with
    | none => .trap (misuse s (BitVec.ofNat 32 k))
    | some (r, t) =>
      let s1 := (s.setWave u (after (setTag w k t))).setBlock { b with barriers := b.barriers.put Barrier.launch k r }
      .done (s1.evalNamed b.uid k)

/-- A wait that is still on is a pass point (06 R170). -/
def passIfWaiting (u : Nat) (e : Eff) : Eff :=
  match e with
  | .done s => match s.wave u with
    | some w => if w.wait = .none then .done s else .done (s.passTurn u w false)
    | none => .done s
  | e => e

def execBars (p : Bool) (a b : BitVec 7) (s : State) : Result :=
  issue s p ⟨false, noEntry, notForeCpt, [.ss a 1]⟩ fun u w blk =>
    passIfWaiting u (arriveNamed s u w blk b.toNat (w.rdS a).toNat fun w => { w with wait := .bars b.toNat, word := s.ir })

def execBara (p : Bool) (a b : BitVec 7) (s : State) : Result :=
  issue s p ⟨false, noEntry, notForeCpt, [.ss a 1]⟩ fun u w blk =>
    arriveNamed s u w blk b.toNat (w.rdS a).toNat Wave.next

/-- BARW (06 R176). In compulsory mode it has no timeout. -/
def execBarw (p : Bool) (d a b : BitVec 7) (s : State) : Result :=
  issue s p ⟨false, noEntry, notForeCpt, [.sd d 1, .ss a 1]⟩ fun u w blk =>
    let k := b.toNat
    match w.tags.getD k none with
    | none => .trap (misuse s (BitVec.ofNat 32 k))
    | some t =>
      if (blk.barriers.get Barrier.launch k).phase ≠ t then .done (s.setWave u ((w.observe s).wrS d 1).next)
      else if s.cmp blk then .done (s.startWait u w (.barw k d.toNat none))
      else if w.rdS a = 0 then .done (s.setWave u (w.wrS d 0).next)
      else .done (s.startWait u w (.barw k d.toNat (deadline s (w.rdS a))))

/-! ## Cluster barriers (10 R258) -/

def execCbara (p : Bool) (a : BitVec 7) (s : State) : Result :=
  issue s p ⟨false, noEntry, onlyCluster, [.ss a 1]⟩ fun u w b =>
    if !s.released w .cluster then .stall
    else match s.groups.find b.group with
      | none => .trap (misuse s 0)
      | some g =>
        match g.bar.arrive w.ctag (w.rdS a).toNat 128 with
        | none => .trap (misuse s 0)
        | some (r, t) =>
          let s1 := s.setWave u { w with ctag := t }.next
          .done (({ s1 with groups := s1.groups.ins b.group { g with bar := r } }).evalCluster b.group)

def execCbarw (p : Bool) (d a : BitVec 7) (s : State) : Result :=
  issue s p ⟨false, noEntry, onlyCluster, [.sd d 1, .ss a 1]⟩ fun u w b =>
    match w.ctag, s.groups.find b.group with
    | some t, some g =>
      if g.bar.phase ≠ t then .done (s.setWave u ((w.observe s).wrS d 1).next)
      else if s.cmp b then .done (s.startWait u w (.cbarw d.toNat none))
      else if w.rdS a = 0 then .done (s.setWave u (w.wrS d 0).next)
      else .done (s.startWait u w (.cbarw d.toNat (deadline s (w.rdS a))))
    | _, _ => .trap (misuse s 0)

/-! ## Timeouts -/

/-- The end of a wait by its timeout, with result 0 (DEDUCED: log entry 31). -/
def timeOut (s : State) (u : Nat) (w : Wave) (d : Nat) : Result := .next (s.setWave u (w.putS d 0).resume).changed

def execBarwTimeout (unit : Nat) (s : State) : Result :=
  match s.wave unit with
  | some w => match w.wait with
    | .barw _ d dl => if expired s dl && s.runs (unitCore unit) then timeOut s unit w d else .next s
    | _ => .next s
  | none => .next s

def execCbarwTimeout (unit : Nat) (s : State) : Result :=
  match s.wave unit with
  | some w => match w.wait with
    | .cbarw d dl => if expired s dl && s.runs (unitCore unit) then timeOut s unit w d else .next s
    | _ => .next s
  | none => .next s

/-- A SLEEP ends once package time has reached its deadline (04 R127) (DEDUCED: log entry 31). -/
def execSleepWake (unit : Nat) (s : State) : Result :=
  match s.wave unit with
  | some w => match w.wait with
    | .sleep t => if t ≤ s.pt && s.runs (unitCore unit) then .next (s.setWave unit { w with wait := .none }).changed else .next s
    | _ => .next s
  | none => .next s

/-! ## The decision queue -/

/-- DQPUSH: waits while the queue is full; a value with no live wave to read it is discarded (06 R175). -/
def execDqpush (p : Bool) (a : BitVec 7) (s : State) : Result :=
  issue s p ⟨false, noEntry, onlyFore, [.ss a 1]⟩ fun u w b =>
    if (s.liveWaves b).isEmpty then .done (s.setWave u w.next)
    else if 64 ≤ b.dq.length then .done (s.startWait u w .dqpush)
    else .done (((s.setWave u w.next).setBlock { b with dq := b.dq ++ [w.rdS a] }).tidyQueue b.uid)

/-- DQPOP: waits for an entry at this wave's position and takes it (06 R175) (DEDUCED: log entry 34). -/
def execDqpop (p : Bool) (d : BitVec 7) (s : State) : Result :=
  issue s p ⟨false, fun _ => some 4, notForeCpt, [.sd d 1]⟩ fun u w b =>
    match b.dq[w.dqPos - b.dqBase]? with
    | none => .done (s.startWait u w .dqpop)
    | some x =>
      let en : Entry :=
        { seq := s.fresh, pc := w.pc, bytes := 4, dests := [.s d.toNat], vals := [(.s d.toNat, x)], waiting := 1
          flags := 0, failed := false, sample := .none }
      .done (((s.setWave u { (w.pushEntry en).next with dqPos := w.dqPos + 1 }).next).tidyQueue b.uid)

/-! ## MBR and BJOIN -/

/-- MBR (06 R178): the wave arrives and waits for the meeting. `n` holds one less than the number of pairs (03 R88). -/
def execMbr (p : Bool) (t : BitVec 7) (m : BitVec 4) (n : BitVec 2) (o : BitVec 13) (s : State) : Result :=
  issue s p ⟨true, noEntry, notFore, [.ss t (n.toNat + 1)]⟩ fun u w b =>
    if 8 ≤ b.stack.length then .trap (wordTrap s causeStackDepth 8)
    else if w.copying || arriveHolds s u w b then .stall
    else
      let targets := (List.range (n.toNat + 1)).map fun i => w.rdSk t i
      .done (((s.startWait u w (.mbr t.toNat m.toNat (n.toNat + 1) (branchTarget w.pc o) targets)).checkPaths b.uid).endDead
        b.uid 32)

/-- BJOIN (06 R181). -/
def execBjoin (p : Bool) (s : State) : Result :=
  issue s p ⟨true, noEntry, onlyCpt, []⟩ fun u w b =>
    match b.stack with
    | [] => .trap (misuse s 0)
    | e :: _ =>
      if w.pc ≠ e.join then .trap (misuse s (e.join.extractLsb' 0 32))
      else if w.copying || arriveHolds s u w b then .stall
      else .done (((s.startWait u w .bjoin).checkPaths b.uid).endDead b.uid 32)

end Sys2Proof.Machine
end

