-- ==== Sys2Proof/Machine/Scratch.lean ====
section
/-!
DEFINITION. Scratch as other agents change it: writes and the waiters they release (07 R213), full and empty lines (07
R185), barrier objects (07 R209 to R212).
-/
namespace Sys2Proof.Machine

/-- A word of scratch. -/
def Block.word (b : Block) (off : Nat) : Word := BitVec.ofNat 32 (leNat (b.read off 4))

/-! ## Barrier objects (07 R209 to R212) -/

/-- A barrier object's fields. -/
structure BarObj where
  pend : Half
  exp : Half
  bytes : Word
  phase : Bool
  valid : Bool
  rsv : BitVec 62
  deriving DecidableEq, Repr

def BarObj.ofBytes (l : List Byte) : BarObj :=
  let n := leNat l
  { pend := BitVec.ofNat 16 n, exp := BitVec.ofNat 16 (n / 2 ^ 16), bytes := BitVec.ofNat 32 (n / 2 ^ 32)
    phase := n / 2 ^ 64 % 2 = 1, valid := n / 2 ^ 65 % 2 = 1, rsv := BitVec.ofNat 62 (n / 2 ^ 66) }
def BarObj.toBytes (o : BarObj) : List Byte :=
  leBytes 16 ((o.rsv ++ bit o.valid ++ bit o.phase ++ o.bytes ++ o.exp ++ o.pend).toNat)

/-- Evaluate (07 R211). -/
def BarObj.eval (o : BarObj) : BarObj :=
  if o.pend = 0 && o.bytes = 0 then { o with phase := !o.phase, pend := o.exp } else o
def BarObj.init (c : Word) : BarObj :=
  { pend := c.setWidth 16, exp := c.setWidth 16, bytes := 0, phase := false, valid := true, rsv := 0 }
def BarObj.arrive (o : BarObj) : BarObj := { o with pend := o.pend - 1 }.eval
def BarObj.expect (o : BarObj) (n : Word) : BarObj := { o with bytes := o.bytes + n }.eval
def BarObj.credit (o : BarObj) (n : Nat) : BarObj := { o with bytes := o.bytes - BitVec.ofNat 32 n }.eval

def Block.object (b : Block) (off : Nat) : BarObj := BarObj.ofBytes (b.read off 16)

/-! ## Writes of scratch -/

/-- A waiting WAITA whose word satisfies its condition before its time is over ends with 1, an acquire (07 R213 to R215). -/
def Wave.wakeWaita (s : State) (b : Block) (lo hi : Nat) (w : Wave) : Wave :=
  match w.wait with
  | .waita t off d eq value dl =>
    if t = b.uid && off < hi && lo < off + 4 && !expired s dl && (b.word off = value) = eq then ((w.observe s).putS d 1).resume else w
  | _ => w

/-- A BOWAIT whose time is over takes its result from its object as it stood until now (07 R211, R215)
(DEDUCED: log entry 31). -/
def Wave.lateBowait (s : State) (b : Block) (lo hi : Nat) (w : Wave) : Wave :=
  match w.wait with
  | .bowait t off d token dl =>
    if t = b.uid && off < hi && lo < off + 16 && expired s dl then
      (if (b.object off).phase ≠ token then (w.observe s).putS d 1 else w.putS d 0).resume
    else w
  | _ => w

/-- A write of scratch bytes (07 R184, R213); `mark` where they were computed from poisoned bytes. A write that covers a
poisoned granule in part leaves it poisoned and is reported (17 R375), A0 being the granule's offset (DEDUCED: log entry
55). -/
def State.writeScratch (s : State) (uid off : Nat) (l : List Byte) (mark : Bool) : State :=
  match s.block uid with
  | none => s
  | some b =>
    let part := b.poisoned off l.length && !mark
    let b1 := b.write off l mark
    let s1 := s.setBlock b1
    let s2 := { s1 with waves := s1.waves.map fun uw => (uw.1, (uw.2.lateBowait s b off (off + l.length)).wakeWaita s b1 off (off + l.length)) }
    if part && b1.poisoned off l.length then
      s2.post (coreDie b.core) false none [coreEvent s2 b.ctx b.core 7 7 1 (BitVec.ofNat 64 off) (Config.structureCode 2)]
    else s2

/-- Writes the bytes that are there. -/
def State.writeScratchSome (s : State) (uid off : Nat) (l : List EByte) : State :=
  if l.all Option.isSome then
    s.writeScratch uid off (l.filterMap fun b => b.map (·.1)) (l.any fun b => match b with
      | some (_, p) => p
      | none => false)
  else (l.zip (List.range l.length)).foldl (fun st bi => match bi.1 with
    | some (v, p) => st.writeScratch uid (off + bi.2) [v] p
    | none => st) s

def Block.sideByte (b : Block) (line i : Nat) : Byte := b.side.get 0 (8 * line + i)
def State.writeScratchSide (s : State) (uid line i : Nat) (v : Byte) : State :=
  s.onBlock uid fun b => { b with side := b.side.put 0 (8 * line + i) v }

/-! ## Full and empty lines (07 R185, R216) -/

/-- Lines of a scratch range. -/
def linesOf (off n : Nat) : List Nat := (List.range ((off + n + 127) / 128 - off / 128)).map fun k => off / 128 + k

/-- A waiting LWAIT on a line that has become full before its time is over ends with 1, an acquire (07 R215, R216). -/
def Wave.wakeLwait (s : State) (uid line : Nat) (w : Wave) : Wave :=
  match w.wait with
  | .lwait t l d dl => if t = uid && l = line && !expired s dl then ((w.observe s).putS d 1).resume else w
  | _ => w

/-- A read that waited on the line is released by its becoming full, which makes it an acquire. -/
def Op.releaseRead (uid line : Nat) (o : Op) : Op :=
  if o.kind.isRead && o.kind.accesses.any (fun a => !a.glob && a.block = uid && (linesOf a.addr (if a.side then 1 else a.size)).contains line)
  then { o with note := lineReleased :: o.note } else o

def State.setLine (s : State) (uid line : Nat) (x : LineFE) : State :=
  match s.block uid with
  | none => s
  | some b =>
    let s1 := s.setBlock (b.setFE line x)
    if x.full && !(b.lineFE line).full then
      { s1 with
        waves := s1.waves.map fun uw => (uw.1, uw.2.wakeLwait s uid line)
        ops := s1.ops.map (Op.releaseRead uid line) }
    else s1

/-- A counted write is issued, P below 15. -/
def LineFE.count (x : LineFE) : LineFE := ⟨false, x.pend + 1⟩
/-- The last byte of a counted write lands. -/
def LineFE.land (x : LineFE) : LineFE := if x.pend ≤ 1 then ⟨true, 0⟩ else ⟨false, x.pend - 1⟩
def LineFE.empty (x : LineFE) : LineFE := { x with full := false }
def LineFE.fill (x : LineFE) : LineFE := if x.pend = 0 then { x with full := true } else x

/-- Counts one write on each line, if every one has P below 15. -/
def State.countLines (s : State) (ls : List (Nat × Nat)) : Option State :=
  if ls.any fun l => match s.block l.1 with
    | some b => 15 ≤ (b.lineFE l.2).pend
    | none => false
  then none
  else some (ls.foldl (fun st l => st.onBlock l.1 fun b => b.setFE l.2 (b.lineFE l.2).count) s)
def State.landLine (s : State) (uid line : Nat) : State :=
  match s.block uid with
  | some b => s.setLine uid line (b.lineFE line).land
  | none => s

/-! ## Events on barrier objects (07 R211) -/

/-- A waiting BOWAIT whose time is not over tests its condition after an event on its object. -/
def Wave.wakeBowait (s : State) (uid off : Nat) (phase : Bool) (w : Wave) : Wave :=
  match w.wait with
  | .bowait t o d token dl => if t = uid && o = off && !expired s dl && phase ≠ token then ((w.observe s).putS d 1).resume else w
  | _ => w

/-- An event of 07 R211 on an object: its bytes change and its waiters are tested. -/
def State.setObject (s : State) (uid off : Nat) (o : BarObj) : State :=
  let s1 := s.writeScratch uid off o.toBytes false
  { s1 with waves := s1.waves.map fun uw => (uw.1, uw.2.wakeBowait s uid off o.phase) }

/-- The credit of an engine (07 R204, R205): an object that is not valid, or lies outside its block, discards it, and
the issuer takes BARRIER_MISUSE as a deferred trap. -/
def State.credit (s : State) (o : Op) (uid off addr n : Nat) : State :=
  match s.block uid with
  | some b =>
    let x := b.object off
    if b.freed || !x.valid || b.scratch < off + 16 then s.deferOp o causeBarrierMisuse addr true
    else s.setObject uid off (x.credit n)
  | none => s.deferOp o causeBarrierMisuse addr true

end Sys2Proof.Machine
end

