-- ==== Sys2Proof/Machine/Gates.lean ====
section
/-!
DEFINITION. Gate counters and gates (20 R403 to R412, R419 to R424): descriptors, raises, evaluation and firing, chain
steps, messages to peers, deliveries to receive gates, and the end of a conflict interval (12 R313).
-/
namespace Sys2Proof.Machine

/-! ## References and descriptors -/

def ctrKey (vd c : Nat) : Nat := 65536 * vd + c
def gateKey (vd g : Nat) : Nat := 16384 * vd + g
/-- A reference's virtual die and index, checked (20 R404): `width` bits of index. -/
def checkRef (nv : Nat) (width : Nat) (r : Word) : Option (Nat × Nat) :=
  let n := r.toNat
  let vd := n / 2 ^ 16 % 4
  if n / 2 ^ 18 ≠ 0 || n % 2 ^ 16 / 2 ^ width ≠ 0 || nv ≤ vd then none else some (vd, n % 2 ^ width)
def gateRef (vd g : Nat) : DWord := BitVec.ofNat 64 (65536 * vd + g)

def Desc.act (d : Desc) : Nat := (d.extractLsb' 0 4).toNat
def Desc.rearm (d : Desc) : Bool := d.getLsbD 4
def Desc.dbar (d : Desc) : Bool := d.getLsbD 5
def Desc.chen (d : Desc) : Bool := d.getLsbD 6
def Desc.chrm (d : Desc) : Bool := d.getLsbD 7
def Desc.chvd (d : Desc) : Nat := (d.extractLsb' 8 2).toNat
def Desc.ctr (d : Desc) : Nat := (d.extractLsb' 16 16).toNat
def Desc.thr (d : Desc) : Word := d.extractLsb' 32 32
def Desc.step (d : Desc) : Word := d.extractLsb' 64 32
def Desc.chpeer (d : Desc) : Nat := (d.extractLsb' 96 10).toNat
def Desc.chctr (d : Desc) : Nat := (d.extractLsb' 112 16).toNat
def Desc.chamt (d : Desc) : Word := d.extractLsb' 128 32
/-- A field of n bits from bit lo. -/
def Desc.fld (d : Desc) (lo n : Nat) : Nat := (d.extractLsb' lo n).toNat

def actNone : Nat := 0
def actRput : Nat := 1
def actRget : Nat := 2
def actCopy : Nat := 3
def actReduce : Nat := 4
def actOpt : Nat := 5
def actCadd : Nat := 6
def actEvent : Nat := 7
def actIrq : Nat := 8
def actFlag : Nat := 9
def actRecv : Nat := 10

/-- The operand fields of an action (20 R408), lowest bit and width. -/
def actFields (act : Nat) : List (Nat × Nat) :=
  match act with
  | 1 => [(160, 64), (224, 64), (288, 24), (312, 1), (320, 10), (330, 2), (336, 16), (352, 32)]
  | 2 => [(160, 64), (224, 64), (288, 24), (320, 10), (330, 2), (336, 16), (352, 32)]
  | 3 => [(160, 64), (224, 64), (288, 24)]
  | 4 => [(160, 64), (224, 64), (288, 24)]
  | 5 => [(160, 64), (224, 32)]
  | 6 => [(160, 16), (176, 2), (178, 1), (192, 10), (224, 32)]
  | 7 => [(160, 32), (192, 64)]
  | 8 => [(160, 32)]
  | 9 => [(160, 64), (224, 32), (256, 1)]
  | 10 => [(160, 64), (224, 32), (256, 16), (272, 16), (288, 10)]
  | _ => []

/-- Bits [511:160] outside an action's fields are 0. -/
def operandRsvOk (d : Desc) : Bool :=
  let named := (actFields d.act).foldl (fun m f => m ||| (BitVec.ofNat 512 (2 ^ f.2 - 1) <<< f.1)) (0#512)
  (d &&& ~~~named) >>> 160 = 0#512

/-- An action's own limits (20 R408). -/
def operandsOk (nv : Nat) (d : Desc) : Bool :=
  let a1 := d.fld 160 64
  let a2 := d.fld 224 64
  let len := d.fld 288 24
  match d.act with
  | 1 =>
    let tagged := d.getLsbD 312
    a1 % 4 = 0 && (tagged || a2 % 4 = 0) && len % 4 = 0 && d.fld 320 10 ≠ 1023 && (!tagged || d.fld 336 16 = 0)
  | 2 => a1 % 4 = 0 && a2 % 4 = 0 && len % 4 = 0 && d.fld 320 10 ≠ 1023 && d.fld 352 32 = 0
  | 3 => a1 % 4 = 0 && a2 % 4 = 0 && len % 4 = 0
  | 4 => a1 % 4 = 0 && a2 % 4 = 0 && len ≤ 4194303
  | 5 => a1 % 4 = 0
  | 6 => if d.getLsbD 178 then d.fld 192 10 ≠ 1023 else d.fld 176 2 < nv
  | 9 => a1 % 4 = 0 && (!d.getLsbD 256 || a1 < 2 ^ 32)
  | 10 => a1 % 4 = 0 && d.fld 224 32 % 4 = 0 && d.fld 224 32 ≤ 16777212
  | _ => true

/-- A descriptor that meets R407 and R408, but for the scratch place of a FLAG action. -/
def Desc.ok (nv : Nat) (d : Desc) : Bool :=
  let recv := d.act = actRecv
  d.act ≤ 10 && d.fld 10 6 = 0 && d.fld 106 6 = 0
    && (if d.rearm && !recv then d.step.toNat ≠ 0 && d.step.toNat < 2 ^ 31 else d.step = 0)
    && (!recv || d.thr = 0)
    && (if d.chrm then d.chpeer ≠ 1023 else d.chpeer = 0 && d.chvd < nv)
    && operandRsvOk d && operandsOk nv d

/-- The global destination of an action or of a receive gate's buffer; OPT is added where it starts. -/
def actDest (d : Desc) : List (Nat × Nat) :=
  match d.act with
  | 2 => [(d.fld 160 64, d.fld 288 24)]
  | 3 => [(d.fld 224 64, d.fld 288 24)]
  | 4 => [(d.fld 224 64, 4 * d.fld 288 24)]
  | 9 => if d.getLsbD 256 then [] else [(d.fld 160 64, 4)]
  | 10 => [(d.fld 160 64, d.fld 224 32)]
  | _ => []

/-! ## Events, contexts and messages -/

/-- The first core of a context's virtual die. -/
def vdCore (x : Context) (vd : Nat) : Nat := 32 * x.table.getD vd 0
/-- Whether gates of a context fire (20 R420). -/
def Context.live (x : Context) : Bool := x.residency = .resident || x.residency = .preempting

/-- A class 10 event (20 R426). -/
def State.gateEvent (s : State) (c vd sub : Nat) (a0 a1 : DWord) : State :=
  match s.ctx c with
  | some x => s.post (x.table.getD vd 0) false none [mkEvent s 10 sub c vd 0 0 5 false a0 a1]
  | none => s

/-- Whether a context's messages reach a peer (20 R419; 21 R431, R433). -/
def reachable (s : State) (x : Context) (peer : Nat) : Bool :=
  x.linktag ≠ 0 && peer ≠ 1023 && s.boot.fenced ≠ 0xFFFFFFFF

/-! ## The end of a conflict interval (12 R310, R313, R316) -/

def Context.clearInterval (x : Context) : Context :=
  { x with
    regions := x.regions.map fun r =>
      (r.1, { r.2 with edge := if r.2.flips % 2 = 1 then !r.2.edge else r.2.edge, flips := 0 })
    sigs := (x.sigs.filter fun g => g.2.epend ≠ 0).map fun g => (g.1, { LineSig.empty with epend := g.2.epend })
    changed := [], started := [], known := [] }

/-- Whether an operation is one that an interval's end, a device-scope release of every wave and engine, waits for: a write of
the context, or an access to scratch (12 R290, R313). -/
def Op.releasable (o : Op) : Bool :=
  o.kind.beforeRelease || o.horizon.isSome || match o.kind with
    | .acps .. | .tcpys .. | .teasel .. => true
    | .gate _ _ d _ start _ => start.isSome && (d.act = actCopy || d.act = actReduce || d.act = actOpt || d.act = actFlag)
    | _ => false
/-- Whether what every wave and engine of a context has written so far is performed, and its accesses to scratch, so that a conflict interval may end
(12 R313) (DEDUCED: log entry 52). -/
def State.quiet (s : State) (c : Nat) : Bool :=
  match s.ctx c with
  | none => true
  | some x =>
    let mine (w : Wave) : Bool := (s.block w.block).any fun b => b.ctx = c
    !x.compulsory ||
      (!(s.ops.any fun o => o.ctx = c && o.releasable) && x.recs.all (fun r => r.rhz ≤ s.pt)
        && s.waves.all fun uw => !mine uw.2 || uw.2.csr.rhz ≤ s.pt)

/-- The cores of a context drop their copies and the translations of its shadowed pages. -/
def State.forgetCopies (s : State) (x : Context) : State :=
  let s1 : State := { s with
    cores := s.cores.map fun kc => if x.table.contains (coreDie kc.1) then (kc.1, { kc.2 with l1 := [] }) else kc }
  s1.dropTlb fun t => t.asid = x.asid.toNat && t.shadow.isSome

/-- The release and acquire of every wave of the context: cores drop their copies and the translations of shadowed
pages, and no later access is performed before an earlier one. -/
def State.endInterval (s : State) (c : Nat) : State :=
  match s.ctx c with
  | none => s
  | some x =>
    if !x.compulsory then s
    else
      let s1 := s.setCtx c x.clearInterval
      let mine (w : Wave) : Bool := match s.block w.block with
        | some b => b.ctx = c
        | none => false
      let acq (w : Wave) : Wave := if mine w then w.fenced s else w
      ({ s1 with
        waves := s1.waves.map fun uw => (uw.1, acq uw.2)
        blocks := s1.blocks.map fun kb => (kb.1, { kb.2 with stack := kb.2.stack.map fun e =>
          { e with saved := e.saved.map fun sw => { sw with wave := acq sw.wave } } }) } : State).forgetCopies x

/-! ## Raises, evaluation and firing -/

/-- A raise of a counter (20 R403), with the completions it releases (21 R429). -/
structure Raise where
  vd : Nat
  ctr : Nat
  amt : Word
  acq : List Nat

/-- An operation of the collective engine. -/
def State.gateOp (s : State) (c : Nat) (x : Context) (vd g : Nat) (d : Desc) (block : Nat) (start : Option (SMap Region))
    (acq note : List Nat) : State :=
  { s with
    ops := s.ops ++ [{ id := s.fresh, owner := 0, core := vdCore x vd, unit := 0, slot := 0, replay := false, ctx := c, block := block, key := 0, pc := 0
                       waitLoads := 0, waitStores := 0, parked := none, denied := [], horizon := none, note := note
                       waits := [], got := [], reached := 0, epend := [], kind := .gate vd g d block start acq }]
    fresh := s.fresh + 1 }

def Op.gateOf (o : Op) : Option (Nat × Nat × Nat) :=
  match o.kind with
  | .gate vd g .. => some (o.ctx, vd, g)
  | _ => none

def Context.gate (x : Context) (vd g : Nat) : Gate := x.gates.get Gate.empty (gateKey vd g)
def Context.setGate (x : Context) (vd g : Nat) (y : Gate) : Context :=
  { x with gates := x.gates.put Gate.empty (gateKey vd g) y }

/-- A gate becomes FREE; its EPEND clears (12 R315). -/
def State.freeGate (s : State) (c vd g : Nat) : State :=
  match s.ctx c with
  | some x => (s.clearPend c (x.gate vd g).epend).onCtx c fun x => x.setGate vd g Gate.empty
  | none => s

/-- A remote add (20 R410, R411, R418): the message, or `none` where it is undeliverable. -/
def State.sendFlag (s : State) (x : Context) (peer vd ctr : Nat) (amt : Word) (op : Nat) : Option State :=
  if reachable s x peer then some { s with link := s.link ++ [.flag x.linktag peer vd ctr amt op] } else none

/-- The destinations of an OPT action as it starts: a tile step's tiles (21 R435), a commit's T, P1, P2 and LFLAG (R439).
The LFLAG of a tile step, which it writes only for a non-finite element and always with one value, is apart: two tile steps
may share it (R438) (DEDUCED: log entry 48). -/
def optDest (s : State) (x : Context) (d : Desc) : List (Nat × Nat) × List (Nat × Nat) :=
  let addr := d.fld 160 64
  let i := d.fld 224 32
  match cleanNat (engineRead s x [] addr 128) with
  | some n =>
    let f (lo w : Nat) : Nat := n / 2 ^ lo % 2 ^ w
    let len := 4 * f 32 32
    if i = 2 ^ 32 - 1 then ([(addr + 96, 12), (f 384 64, 4)], [])
    else (([f 128 64, f 192 64, f 256 64, f 320 64].filter (· ≠ 0)).map fun b => (b + len * i, len), [(f 384 64, 4)])
  | none => ([], [])

/-- Whether two ranges share a byte. -/
def overlaps (a b : Nat × Nat) : Bool :=
  decide (max a.1 b.1 < min (a.1 + a.2) (b.1 + b.2))

/-- Whether the destinations of two actions overlap, words that only non-finite elements write being compared with all
others but their like. -/
def StartedAct.meets (e : StartedAct) (dst flag : List (Nat × Nat)) : Bool :=
  e.dst.any (fun a => (dst ++ flag).any (overlaps a)) || e.flag.any fun a => dst.any (overlaps a)
/-- The earlier action of another gate that a COPY, REDUCE or OPT action conflicts with in compulsory mode (21 R429)
(DEDUCED: log entry 48). -/
def unordered (x : Context) (ref act : Nat) (dst flag : List (Nat × Nat)) (acq : List Nat) : Option StartedAct :=
  if !x.compulsory || !(act = actCopy || act = actReduce || act = actOpt) then none
  else x.started.find? fun e => e.ref ≠ ref && !acq.contains e.id && e.meets dst flag

/-- Starts the first action of a gate if it has not started, or frees a draining gate that has none left
(DEDUCED: log entry 48). -/
def State.startNext (c vd g : Nat) : Nat → State → State
  | 0, s => s
  | n + 1, s =>
    match s.ctx c, s.ops.find? fun o => o.gateOf = some (c, vd, g) with
    | some x, some o =>
      match o.kind with
      | .gate _ _ d block none acq =>
        let (dst, flag) := if d.act = actOpt then optDest s x d else (actDest d, [])
        let ref := 65536 * vd + g
        match unordered x ref d.act dst flag acq with
        | some e =>
          ((s.dropOp o.id).gateEvent c vd 10 (gateRef vd g) (BitVec.ofNat 64 e.ref)).startNext c vd g n
        | none =>
          let lines := if d.act = actOpt then (pendLines s x none false (dst ++ flag)).eraseDups else []
          let s1 := (s.setPend c lines).setOp { o with kind := .gate vd g d block (some x.regions) acq, epend := lines }
          if x.compulsory then s1.onCtx c fun x => { x with started := x.started ++ [⟨o.id, ref, dst, flag⟩] } else s1
      | _ => s
    | some x, none => if (x.gate vd g).state = .draining then s.freeGate c vd g else s
    | none, _ => s

def State.advanceGate (s : State) (c vd g : Nat) : State := s.startNext c vd g (s.ops.length + 1)

/-- The chain step of a gate's action (20 R410): a raise to apply, or a message in flight under `op`. A step that names
the device's own id raises a counter of the context, as an RFLAG does (20 R418) (DEDUCED: log entries 47 and 48). -/
def State.chain (s : State) (c : Nat) (vd g : Nat) (d : Desc) (acq : List Nat) (block : Nat) : State × List Raise :=
  if !d.chen then (s, [])
  else if !d.chrm then (s, [⟨d.chvd, d.chctr, d.chamt, acq⟩])
  else match s.ctx c with
    | none => (s, [])
    | some x =>
      if d.chpeer = s.boot.accel.toNat then
        if d.chvd < x.nv then (s, [⟨d.chvd, d.chctr, d.chamt, acq⟩]) else (s.gateEvent c vd 1 (gateRef vd g) 0, [])
      else match s.sendFlag x d.chpeer d.chvd d.chctr d.chamt s.fresh with
      | some s1 => (s1.gateOp c x vd g d block (some []) acq [1], [])
      | none => (s.gateEvent c vd 1 (gateRef vd g) 0, [])

/-- One firing (20 R409, R410). A device barrier gate ends the conflict interval first (20 R424). -/
def State.fire (s : State) (c vd g : Nat) (y : Gate) : State × List Raise :=
  let s0 := if y.desc.dbar then s.endInterval c else s
  let s1 := s0.onCtx c fun x => x.setGate vd g
    (if y.desc.rearm then { y with thr := y.thr + y.desc.step } else { y with state := .draining })
  match s1.ctx c with
  | none => (s1, [])
  | some x =>
    let acq := match s.ctx c with
      | some x0 => x0.known.get [] (ctrKey vd y.desc.ctr)
      | none => []
    if y.desc.act = actNone then
      let (s2, rs) := s1.chain c vd g y.desc acq y.block
      (s2.advanceGate c vd g, rs)
    else ((s1.gateOp c x vd g y.desc y.block none acq []).advanceGate c vd g, [])

/-- Whether an ARMED gate is satisfied (20 R409). -/
def Gate.satisfied (y : Gate) (v : Word) (ctr : Nat) : Bool :=
  y.state = .armed && y.desc.act ≠ actRecv && y.desc.ctr = ctr && (v - y.thr).toNat < 2 ^ 31

/-- Whether it fires now: a device barrier gate ends the conflict interval first, and waits until that can end (12 R313;
20 R424) (DEDUCED: log entry 52). -/
def State.mayFire (s : State) (c : Nat) (y : Gate) (v : Word) (ctr : Nat) : Bool :=
  y.satisfied v ctr && (!y.desc.dbar || s.quiet c)

/-- One round over the gates of a die, in ascending index. -/
def State.round (c vd ctr : Nat) : List Nat → State → State × List Raise × Bool
  | [], s => (s, [], false)
  | g :: rest, s =>
    match s.ctx c with
    | none => (s, [], false)
    | some x =>
      if s.mayFire c (x.gate vd g) (x.counters.get 0 (ctrKey vd ctr)) ctr then
        let (s1, r1) := s.fire c vd g (x.gate vd g)
        let (s2, r2, _) := s1.round c vd ctr rest
        (s2, r1 ++ r2, true)
      else s.round c vd ctr rest

/-- Rounds until none fires: a gate passes its counter at most 2^31 times. -/
def State.rounds (c vd ctr : Nat) (gs : List Nat) : Nat → State → State × List Raise
  | 0, s => (s, [])
  | n + 1, s =>
    let (s1, r1, fired) := s.round c vd ctr gs
    if fired then
      let (s2, r2) := s1.rounds c vd ctr gs n
      (s2, r1 ++ r2)
    else (s1, r1)

/-- Evaluate (20 R409): the gates of the counter's die. -/
def State.evaluate (s : State) (c vd ctr : Nat) : State × List Raise :=
  match s.ctx c with
  | none => (s, [])
  | some x =>
    let k := ctrKey vd ctr
    if !x.live then (s.onCtx c fun x => { x with marks := if x.marks.contains k then x.marks else k :: x.marks }, [])
    else
      let gs := (x.gates.filter fun g => g.1 / 16384 = vd).map fun g => g.1 % 16384
      s.rounds c vd ctr gs (2 ^ 32)

/-- Compulsory mode's note of a change of a counter; a GSET of the interval that came before takes CONFLICT (20 R424). -/
def State.noteChange (s : State) (c vd ctr : Nat) : State :=
  match s.ctx c with
  | none => s
  | some x =>
    if !x.compulsory then s
    else
      let k := ctrKey vd ctr
      let s1 := s.onCtx c fun x => { x with changed := x.changed.ins k none }
      match x.changed.find k with
      | some (some b) =>
        s1.defer b.wave c b.core ⟨b.srck, b.slot, b.replay⟩
          ⟨causeConflict, windowBase + 0x40000 * vd + 4 * ctr, false, b.pc, 0⟩
      | _ => s1

/-- The device barrier gates that were satisfied while the conflict interval could not end yet: their counters are
evaluated again (DEDUCED: log entry 52). -/
def Context.barriersDue (x : Context) : List (Nat × Nat) :=
  if !x.compulsory || !x.live then []
  else x.gates.filterMap fun kg =>
    let vd := kg.1 / 16384
    if kg.2.desc.dbar && kg.2.satisfied (x.counters.get 0 (ctrKey vd kg.2.desc.ctr)) kg.2.desc.ctr then
      some (vd, kg.2.desc.ctr)
    else Option.none

/-- One raise and the evaluation it leads to. -/
def State.raiseOne (s : State) (c : Nat) (r : Raise) : State × List Raise :=
  let k := ctrKey r.vd r.ctr
  let s1 := (s.noteChange c r.vd r.ctr).onCtx c fun x =>
    { x with
      counters := x.counters.put 0 k (x.counters.get 0 k + r.amt)
      known := if x.compulsory then x.known.put [] k (r.acq ++ x.known.get [] k).eraseDups else x.known }
  s1.evaluate c r.vd r.ctr

/-- A raise put off: an operation of the collective engine that adds later (DEDUCED: log entry 48). -/
def State.laterRaise (c : Nat) (s : State) (r : Raise) : State :=
  let d : Desc := BitVec.ofNat 512 (6 + r.ctr * 2 ^ 160 + r.vd * 2 ^ 176 + r.amt.toNat * 2 ^ 224)
  match s.ctx c with
  | some x => s.gateOp c x 4 0 d 0 (some []) r.acq []
  | none => s

/-- Raises in order, those that firings chain to after them. Past a bound they are put off (DEDUCED: log entry 48). -/
def State.raises (c : Nat) : Nat → List Raise → State → State
  | 0, rs, s => rs.foldl (State.laterRaise c) s
  | n + 1, rs, s =>
    match rs with
    | [] => s
    | r :: rest =>
      let (s1, more) := s.raiseOne c r
      State.raises c n (rest ++ more) s1

def State.applyRaises (s : State) (c : Nat) (rs : List Raise) : State := State.raises c 4096 rs s
def State.raise (s : State) (c vd ctr : Nat) (amt : Word) (acq : List Nat) : State := s.applyRaises c [⟨vd, ctr, amt, acq⟩]

/-- Fires the device barrier gates of a context that wait for the end of its conflict interval. -/
def State.fireBarriers (s : State) (c : Nat) : State :=
  match s.ctx c with
  | some x => match x.barriersDue with
    | (vd, ctr) :: _ =>
      if s.quiet c then
        let (s1, rs) := s.evaluate c vd ctr
        s1.applyRaises c rs
      else s
    | [] => s
  | none => s

/-- GSET's change (20 R416). -/
def State.setCounter (s : State) (c vd ctr : Nat) (v : Word) (by_ : SetBy) : State :=
  let k := ctrKey vd ctr
  let s1 := s.onCtx c fun x =>
    { x with
      counters := x.counters.put 0 k v
      changed := if x.compulsory then x.changed.ins k (some by_) else x.changed }
  let (s2, rs) := s1.evaluate c vd ctr
  s2.applyRaises c rs

/-- A gate operation is over: its chain step where it is due, then the gate's next action. -/
def State.gateDone (s : State) (o : Op) (chained : Bool) : State :=
  match o.kind with
  | .gate vd g d block _ acq =>
    let s1 := (s.clearPend o.ctx o.epend).dropOp o.id
    if chained then
      let (s2, rs) := s1.chain o.ctx vd g d (o.id :: acq) block
      (s2.advanceGate o.ctx vd g).applyRaises o.ctx rs
    else s1.advanceGate o.ctx vd g
  | _ => s

/-! ## Deliveries to receive gates (20 R422, R412) -/

/-- Payload bytes with their poison marks. -/
def Arrival.payload (a : Arrival) : List EByte :=
  (a.bytes.zip (List.range a.bytes.length)).map fun bi => some (bi.1, a.poison.contains (bi.2 / 4 * 4))

/-- The least ARMED RECV gate that an arrival matches. -/
def matchGate (x : Context) (a : Arrival) : Option Nat :=
  ((x.gates.filter fun kg => kg.1 / 16384 = a.vd && kg.2.state = .armed && kg.2.desc.act = actRecv
      && kg.2.desc.fld 256 16 = a.tag && kg.2.desc.fld 272 16 = a.tile
      && (kg.2.desc.fld 288 10 = a.source || kg.2.desc.fld 288 10 = 1023)).map fun kg => kg.1 % 16384).head?

/-- The range an arrival writes through a gate. -/
def arrivalRange (y : Gate) (a : Arrival) : Nat × Nat :=
  if a.offset + a.bytes.length ≤ y.desc.fld 224 32 then (y.desc.fld 160 64 + a.offset, a.bytes.length) else (0, 0)

/-- Whether an arriving write of a line is withheld, since a unit has accessed the line in the interval (12 R315). -/
def arrivalWithheld (x : Context) (hidden : Bool) (line : Nat) : Bool :=
  x.compulsory && !hidden && (x.sigs.get LineSig.empty line).others none
/-- Whether every line of a destination is past its leases, so that a write there completes at once, or its write is
withheld (12 R295, R312, R315) (DEDUCED: log entry 39). -/
def linesSettled (s : State) (x : Context) (face : Option Nat) (visible : Bool) (ranges : List (Nat × Nat)) : Bool :=
  (ranges.flatMap fun r => chunks r.1 r.2).all fun k =>
    match walk s x k.1 false true with
    | .ok e =>
      let a := if visible then e.phys k.1 else enginePhys x e k.1 face
      let hidden := e.shadow.isSome && a ≠ e.phys k.1
      (List.range ((a + k.2 + 127) / 128 - a / 128)).all fun j =>
        arrivalWithheld x hidden (a / 128 + j) || decide (s.lx.get 0 (a / 128 + j) ≤ s.pt)
    | _ => true

/-- Reports what writes of an arrival failed (20 R421, R426; 12 R315). -/
def State.arrivalErrors (s : State) (c vd : Nat) (w : EngW) : State :=
  let s1 := w.withheld.eraseDups.foldl (fun st l => st.gateEvent c vd 1 0xFFFFFFFF (BitVec.ofNat 64 l)) s
  match w.err with
  | some a => s1.gateEvent c vd 1 0xFFFFFFFF (BitVec.ofNat 64 a)
  | none => s1

/-- Whether a range cannot be written, and no replay will mend that (20 R419). -/
def cannotWrite (s : State) (x : Context) (denied : List Nat) (range : Nat × Nat) : Bool :=
  (chunks range.1 range.2).any fun k => match via s x denied k.1 false true with
    | .ok _ => false
    | _ => true

/-- The delivery of an arrival through gate g. One whose buffer cannot be written is undeliverable: it is reported and raises
nothing (20 R419); otherwise its destination can be written at once. -/
def State.deliverArrival (s : State) (c g : Nat) (a : Arrival) (denied : List Nat) : State :=
  match s.ctx c with
  | none => s
  | some x =>
    let y := x.gate a.vd g
    let d := y.desc
    if d.fld 224 32 < a.offset + a.bytes.length then
      (s.gateEvent c a.vd 2 (gateRef a.vd g) (BitVec.ofNat 64 (a.tag + 2 ^ 16 * a.tile + 2 ^ 32 * a.source))).raise c a.vd
        d.ctr a.radd []
    else if cannotWrite s x denied (arrivalRange y a) then
      s.gateEvent c a.vd 1 0xFFFFFFFF (BitVec.ofNat 64 (arrivalRange y a).1)
    else
      let w := (EngW.start s).write c x.regions none false none denied (d.fld 160 64 + a.offset) a.payload
      let s1 := w.s.arrivalErrors c a.vd w
      let total := y.delivered + a.bytes.length
      let full := d.fld 224 32 ≤ total
      let s2 := s1.onCtx c fun x => x.setGate a.vd g { y with delivered := if full then 0 else total }
      let s3 := s2.raise c a.vd d.ctr a.radd []
      if !full then s3
      else
        let s4 := if d.rearm then s3 else s3.freeGate c a.vd g
        let (s5, rs) := s4.chain c a.vd g d [] y.block
        s5.applyRaises c rs

end Sys2Proof.Machine
end

