-- ==== Sys2Proof/Machine/Perform.lean ====
section
/-!
DEFINITION. Loads, stores, atomics and per-lane copies as they are performed (12 R290 to R303; 07 R184 to R208), the
arrival and commit of results (02 R68 to R70), the expiry of leases, and ordered accumulation.
-/
namespace Sys2Proof.Machine

/-! ## The order in which a wave's operations may be performed (12 R298, R300) -/

/-- Whether two accesses share a location. -/
def Access.overlap (a b : Access) : Bool :=
  a.glob = b.glob && (a.glob || a.block = b.block) && a.side = b.side &&
    if a.side then sideKey a.addr = sideKey b.addr
    else decide (a.addr / 4 < (b.addr + b.size + 3) / 4) && decide (b.addr / 4 < (a.addr + a.size + 3) / 4)

/-- The same for two virtual addresses of one physical location (12 R292, R298). -/
def Access.aliases (s : State) (x : Context) (a b : Access) : Bool :=
  let phys (k : Access) : Option Access := match walk s x k.addr false false with
    | .ok e => some { k with addr := e.phys k.addr }
    | _ => none
  let inPage (k : Access) : Access := { k with addr := k.addr % 4096 }
  a.glob && b.glob && a.addr / 4096 ≠ b.addr / 4096 && (inPage a).overlap (inPage b) &&
    match phys a, phys b with
    | some a', some b' => a'.overlap b'
    | _, _ => false

/-- Whether two operations are of one wave. -/
def sameWave (s : State) (p o : Op) : Bool :=
  p.owner = o.owner || match s.findOwner o.owner with
    | some w => w.owns p.owner
    | none => false
/-- The earlier operations of the same wave. -/
def earlierOps (s : State) (o : Op) : List Op := (s.ops.takeWhile fun p => p.id ≠ o.id).filter fun p => sameWave s p o
/-- Those whose place in the order of one location is fixed: of the same wave and, in compulsory mode, where the rotation
orders the waves of a slice, of that slice, but for reads that wait on an empty line (06 R170, R172; 18 R389) (DEDUCED:
log entry 26). -/
def orderedOps (s : State) (o : Op) : List Op :=
  (s.ops.takeWhile fun p => p.id ≠ o.id).filter fun p =>
    sameWave s p o ||
      (p.unit = o.unit && p.ctx = o.ctx && (s.ctx o.ctx).any Context.compulsory && !s.readsEmpty p)

/-- The scope of a release among operations (12 R300; 20 R406). -/
def OpKind.releases : OpKind → Option Scope
  | .atomic a _ _ _ _ _ use sc =>
    if a.glob && inWindow a.addr then some (if sc = .system then .system else .device)
    else if use = .release || use = .acqRel then some sc else none
  | .net (.flag ..) .. => some .system
  | _ => none
/-- Commutative atomics of one operation, which may change places (12 R300). -/
def OpKind.commuteWith (p o : OpKind) : Bool :=
  match p, o with
  | .atomic _ op _ _ _ _ use _, .atomic _ op' _ _ _ _ use' _ => op = op' && use = .commutative && use' = .commutative
  | _, _ => false
/-- Whether an operation must be performed after an earlier one because they share a location (12 R298). -/
def overlapping (s : State) (p o : Op) : Bool :=
  !p.kind.commuteWith o.kind && p.kind.accesses.any fun a => o.kind.accesses.any fun b =>
    a.overlap b || (s.ctx o.ctx).any fun x => a.aliases s x b
/-- Copies, which wait for no acquire once they are issued (07 R208; 10 R265). -/
def OpKind.copies : OpKind → Bool
  | .acp .. | .acps .. | .tcpy .. | .tcpys .. | .tcpyv .. => true
  | _ => false

/-- The release horizon that binds an operation. -/
def horizonOf (s : State) (o : Op) : Nat :=
  match s.findOwner o.owner with
  | some w => w.released
  | none => ((s.ctx o.ctx).bind fun x => x.rec? o.key).elim 0 Rec.rhz

/-- Whether a release at a scope waits for an earlier operation of its wave (12 R290). -/
def scopeWaits (sc : Scope) (p : OpKind) : Bool :=
  p.beforeRelease || match p with
    | .acps .. | .tcpys .. => sc ≠ .block
    | .net .. => sc = .system
    | _ => false
/-- Whether a release at a scope may be performed before which `earlier` are outstanding (12 R290). -/
def releasedBefore (s : State) (o : Op) (earlier : List Op) (sc : Scope) : Bool :=
  !(earlier.any fun p => scopeWaits sc p.kind) && (sc = .block || horizonOf s o ≤ s.pt)
/-- Whether an acquire, or what one orders, comes before an operation (12 R298): a read that waits on an empty line becomes
one (07 R216). A copy waits for none. -/
def Op.acquiredAfter (s : State) (o p : Op) : Bool :=
  !o.kind.copies && (p.acquires || s.readsEmpty p || (p.id < o.waitLoads && p.kind.isLoad) || (p.id < o.waitStores && p.kind.beforeRelease))

/-- Whether an operation may be performed now, as far as its wave's order goes; one of a descheduled context is saved as
unperformed (02 R73) (DEDUCED: log entry 26). -/
def inOrder (s : State) (o : Op) : Bool :=
  s.runs o.core && o.parked.isNone && !((orderedOps s o).any fun p => overlapping s p o) &&
    !((earlierOps s o).any (o.acquiredAfter s)) &&
    match o.kind.releases with
    | some sc => releasedBefore s o (earlierOps s o) sc
    | none => true

/-! ## Results and failures -/

/-- Destination elements and their values from a little-endian number of `size` bytes. -/
def loadVals (size : Nat) (signed : Bool) (dst : List Elem) (n : Nat) : List (Elem × Word) :=
  if size < 4 then
    let x := if signed && 2 ^ (8 * size - 1) ≤ n then n + 2 ^ 32 - 2 ^ (8 * size) else n
    dst.map fun e => (e, BitVec.ofNat 32 x)
  else (dst.zip (List.range dst.length)).map fun ei => (ei.1, BitVec.ofNat 32 (n / 2 ^ (32 * ei.2)))

/-- An operation that returns results ends with a deferred error (07 R195; 17 R374). -/
def State.failOp (s : State) (o : Op) (entry : Option Nat) (cause : BitVec 8) (addr : Nat) (scratch : Bool) : State :=
  let s1 := (s.dropOp o.id).deferOp o cause addr scratch
  match entry with
  | some e => s1.onWave o.owner fun w => w.onEntry e Entry.fail
  | none => s1
/-- It ends with its results; an acquire observes (21 R430). -/
def State.endOp (s : State) (o : Op) (entry : Option Nat) (vals : List (Elem × Word)) : State :=
  let s0 := s.dropOp o.id
  let s1 := if o.acquires then s0.onOwner o.owner fun w => w.observe s else s0
  match entry with
  | some e => s1.deliver o.owner e vals
  | none => s1

/-- A global access's record in its line's signature, in compulsory mode (12 R314) (DEDUCED: log entry 24). -/
def State.recordGlobal (s : State) (o : Op) (pa : Nat) (mask : Word) (read write : Bool) (comm : Option (Nat × Nat)) :
    Option State :=
  match s.ctx o.ctx with
  | none => some s
  | some x =>
    if !x.compulsory then some s
    else
      let g := x.sigs.get LineSig.empty (pa / 128)
      match g.access o.unit (x.vdOf (coreDie o.core)) (homeDie pa = coreDie o.core) mask read write comm with
      | none => none
      | some g' => some (s.onCtx o.ctx fun x => { x with sigs := x.sigs.put LineSig.empty (pa / 128) g' })

/-! ## The L1 cache (12 R294; 07 R188) -/

def leaseTicks (cls : Nat) : Nat :=
  match cls with
  | 1 => 256
  | 2 => 2000
  | 3 => 32000
  | _ => 0
/-- 256 KiB of 128-byte lines (DEDUCED: log entry 41). -/
def l1Lines : Nat := 2048

def liveCopy (s : State) (core pa : Nat) : Option L1Line :=
  match (s.core core).l1.find (pa / 128) with
  | some l => if s.pt < l.expiry then some l else none
  | none => none
def State.dropCopy (s : State) (core pa : Nat) : State :=
  let c := s.core core
  s.setCore core { c with l1 := c.l1.del (pa / 128) }

/-- Whether an operation writes global memory as an engine of its core does (12 R295). -/
def OpKind.engineWrites : OpKind → Bool
  | .acps .. | .tcpys .. | .teasel .. | .net (.get ..) .. => true
  | _ => false
/-- Whether the core has issued a write to the line that is not performed: no load then allocates it (12 R295). Lines
are told apart by their place in a page, and engines' destinations not at all, which may keep out a line that could be
held (DEDUCED: log entry 41). -/
def writePending (s : State) (core va : Nat) : Bool :=
  s.ops.any fun p => p.core = core && (p.kind.engineWrites ||
    (p.kind.isStore && p.kind.accesses.any fun a => a.glob && a.addr / 128 % 32 = va / 128 % 32))

/-- The grant of a lease on a load at the home (DESIGN CHOICE: log entry 8; DEDUCED: log entry 41). -/
def State.grant (s : State) (core va pa cls : Nat) : State :=
  let len := leaseTicks cls
  let c := s.core core
  if len = 0 || writePending s core va || l1Lines ≤ c.l1.length then s
  else
    let line := pa / 128
    let copy : L1Line :=
      { data := s.read (128 * line) 128, side := (List.range 8).map fun i => s.side.get 0 (8 * line + i)
        poison := (List.range 4).filter fun k => s.poison.get false (4 * line + k), expiry := s.pt + len }
    { s.setCore core { c with l1 := c.l1.ins line copy } with
      lx := s.lx.put 0 line (max (s.lx.get 0 line) (s.pt + len + 2)) }

/-! ## Loads -/

def L1Line.bytes (l : L1Line) (off n : Nat) : List Byte := (List.range n).map fun i => l.data.getD (off + i) 0
def L1Line.bad (l : L1Line) (off n : Nat) : Bool := (List.range n).any fun i => l.poison.contains ((off + i) / 32)

/-- A load of a translated global address. Performed at the home, it leaves no older copy in its core's L1 (12 R296); a page
of lease class 0 is always read there (12 R294). -/
def loadAt (s : State) (o : Op) (a : Access) (dst : List Elem) (signed : Bool) (entry : Nat) (e : TlbEntry) (useCopy : Bool) :
    State :=
  let pa := e.phys a.addr
  if a.side && !e.mx then s.failOp o (some entry) causePage a.addr false
  else
    match s.recordGlobal o pa a.mask true false none with
    | none => s.failOp o (some entry) causeConflict a.addr false
    | some s1 =>
      match (if useCopy && leaseTicks e.lease ≠ 0 then liveCopy s1 o.core pa else none) with
      | some l =>
        if (if a.side then l.bad 0 1 else l.bad (pa % 128) a.size) then s1.failOp o (some entry) causePoison a.addr false
        else
          let n := if a.side then (l.side.getD (pa % 8) 0).toNat else leNat (l.bytes (pa % 128) a.size)
          s1.endOp o (some entry) (loadVals a.size signed dst n)
      | none =>
        if (if a.side then s1.poisoned (pa / 128 * 128) 1 else s1.poisoned pa a.size) then s1.failOp o (some entry) causePoison a.addr false
        else
          let n := if a.side then (s1.side.get 0 (sideKey pa)).toNat else s1.readNat pa a.size
          ((s1.dropCopy o.core pa).grant o.core a.addr pa e.lease).endOp o (some entry) (loadVals a.size signed dst n)

/-- A scratch load, its line full. -/
def loadScratch (s : State) (o : Op) (a : Access) (dst : List Elem) (signed : Bool) (entry : Nat) : State :=
  match s.block a.block with
  | none => s.dropOp o.id
  | some b =>
    if (if a.side then b.sidePoisoned (a.addr / 128) else b.poisoned a.addr a.size) then s.failOp o (some entry) causePoison (2 ^ 20 * b.rank + a.addr) true
    else
      let n := if a.side then (b.side.get 0 (8 * (a.addr / 128) + a.addr % 8)).toNat else leNat (b.read a.addr a.size)
      s.endOp o (some entry) (loadVals a.size signed dst n)

/-- Whether the line of a scratch access is full (07 R185) (DEDUCED: log entry 26). -/
def scratchReady (s : State) (a : Access) : Bool :=
  match s.block a.block with
  | some b => b.full a.addr (if a.side then 1 else a.size)
  | none => true

/-- A load: from the counter window, from global memory or from scratch. -/
def performLoad (s : State) (o : Op) (a : Access) (dst : List Elem) (signed : Bool) (entry : Nat) (useCopy useTlb : Bool) :
    State :=
  if !a.glob then if scratchReady s a then loadScratch s o a dst signed entry else s
  else match s.ctx o.ctx with
    | none => s.dropOp o.id
    | some x =>
      if inWindow a.addr then
        let v := x.counters.get 0 (ctrKey (windowVd a.addr) (windowCtr a.addr))
        s.endOp o (some entry) (loadVals 4 false dst v.toNat)
      else
        let (s1, t) := translate s o.core x a.addr true false useTlb
        match viaOf o.denied a.addr t with
        | .ok e => loadAt s1 o a dst signed entry e useCopy
        | .bad => s1.failOp o (some entry) causePage a.addr false
        | .fault p => s1.park o o.srck a.addr false false p

/-- One lane of a transposing load, its lines full (07 R218 to R220). -/
def performLdt (s : State) (o : Op) (els : List (Option (Nat × Nat))) (esize per : Nat) (side : Option (Nat × Nat × Nat))
    (dst sdst : List Elem) (entry : Nat) : State :=
  let accs := o.kind.accesses
  if !accs.all (scratchReady s) then s
  else match accs.find? fun a => match s.block a.block with
      | some b => if a.side then b.sidePoisoned (a.addr / 128) else b.poisoned a.addr a.size
      | none => false with
    | some a => s.failOp o (some entry) causePoison (2 ^ 20 * ((s.block a.block).elim 0 Block.rank) + a.addr) true
    | none =>
      let elem (e : Option (Nat × Nat)) : Nat := match e with
        | some (uid, at_) => match s.block uid with
          | some b => leNat (b.read (at_ / 8) ((at_ % 8 + esize + 7) / 8)) / 2 ^ (at_ % 8) % 2 ^ esize
          | none => 0
        | none => 0
      let vals := els.map elem
      let reg (r : Nat) : Word :=
        BitVec.ofNat 32 (((List.range per).map fun i => vals.getD (per * r + i) 0 * 2 ^ (esize * i)).foldl (· + ·) 0)
      let scale : Byte := match side with
        | some (uid, line, k) => match s.block uid with
          | some b => b.side.get 0 (8 * line + k)
          | none => 0x7F
        | none => 0x7F
      s.endOp o (some entry) (((dst.zip (List.range dst.length)).map fun di => (di.1, reg di.2))
        ++ sdst.map fun e => (e, scale.setWidth 32))

def execLoadPerform (op : Nat) (useCopy useTlb : Bool) (s : State) : Result :=
  match s.op op with
  | some o => match o.kind with
    | .load a dst signed entry =>
      if inOrder s o then .next (performLoad s o a dst signed entry useCopy useTlb).changed else .next s
    | .ldt els esize per side dst sdst entry =>
      if inOrder s o then .next (performLdt s o els esize per side dst sdst entry).changed else .next s
    | _ => .next s
  | none => .next s

/-! ## Stores -/

/-- A store to a translated global address (12 R295). -/
def storeAt (s : State) (o : Op) (a : Access) (data : List Byte) (e : TlbEntry) : State :=
  let pa := e.phys a.addr
  if a.side && !e.mx then s.failOp o none causePage a.addr false
  else
    match s.recordGlobal o pa a.mask false true none with
    | none => s.failOp o none causeConflict a.addr false
    | some s1 =>
      let t := s1.wct pa 1
      let s2 := if a.side then { s1 with side := s1.side.put 0 (sideKey pa) (data.headD 0) }
        else s1.writeBytes (homeDie pa) pa data false
      ((s2.dropCopy o.core pa).joinRhz o.owner o.ctx o.key t).dropOp o.id

def performStore (s : State) (o : Op) (a : Access) (data : List Byte) (useTlb : Bool) : State :=
  if !a.glob then
    (if a.side then s.writeScratchSide a.block (a.addr / 128) (a.addr % 8) (data.headD 0)
      else s.writeScratch a.block a.addr data false).dropOp o.id
  else match s.ctx o.ctx with
    | none => s.dropOp o.id
    | some x =>
      let (s1, t) := translate s o.core x a.addr false true useTlb
      match viaOf o.denied a.addr t with
      | .ok e => storeAt s1 o a data e
      | .bad => s1.failOp o none causePage a.addr false
      | .fault p => s1.park o o.srck a.addr true false p

/-! ## Per-lane copies (07 R202 to R208) -/

/-- The key of a scratch line in a landing event: rank and line as a scratch address has them. -/
def scratchLine (s : State) (uid off : Nat) : Nat :=
  match s.block uid with
  | some b => 8192 * b.rank + off / 128
  | none => off / 128

/-- The requests of an engine's reads or (`write`) writes that can be performed now, by key and ranges, and those that meet a
replayable fault: key, address and whether it is of permission (07 R207; 10 R267). -/
def splitFaults (s : State) (x : Context) (o : Op) (write : Bool) (reqs : List (Nat × List (Nat × Nat))) :
    List Nat × List (Nat × Nat × Bool) :=
  (reqs.filter fun r => !o.lineWaits r.1).foldr (fun r acc =>
    match firstFault s x o.denied (!write) write r.2 with
    | none => (r.1 :: acc.1, acc.2)
    | some (va, p) => (acc.1, (r.1, va, p) :: acc.2)) ([], [])
/-- Requests that wait: each on its page. -/
def State.parkLines (s : State) (id : Nat) (write : Bool) (bad : List (Nat × Nat × Bool)) : State :=
  bad.foldl (fun st k => match st.op id with
    | some o => st.parkLine o k.1 2 k.2.1 write k.2.2
    | none => st) s

/-- Writes the bytes that an engine has read for a lane of a copy; those it could not read are reported (07 R207). -/
def landLane (s0 : State) (x : Context) (o : Op) (size : Nat) (s : State) (l : Nat × Nat × Nat) : State :=
  let data := engineRead s0 x o.denied l.1 size
  let s1 := if (s.block l.2.1).any fun b => !b.freed then s.writeScratchSome l.2.1 l.2.2 data else s
  if data.all Option.isSome then s1 else s1.deferAt o causePage l.1

/-- ACP's lanes on one line land; a lane that meets a replayable fault waits alone, and the line keeps its count until it
has landed too (07 R203, R207). What the core has read of a shadowed page it keeps in its TLB (12 R309). -/
def landAcp (s : State) (o : Op) (lanes : List (Nat × Nat × Nat)) (size line : Nat) : State :=
  match s.ctx o.ctx with
  | none => s.dropOp o.id
  | some x =>
    let on (l : Nat × Nat × Nat) : Bool := scratchLine s l.2.1 l.2.2 = line
    let (good, bad) := splitFaults s x o false ((lanes.filter on).map fun l => (l.1, [(l.1, size)])).eraseDups
    let mine := lanes.filter fun l => on l && good.contains l.1
    let rest := lanes.filter fun l => !(on l && good.contains l.1)
    let s1 := mine.foldl (landLane s x o size) (s.refreshTlb o.core x o.denied false (mine.map fun l => (l.1, size)))
    let s2 := match mine with
      | l0 :: _ => if rest.any on then s1 else s1.landLine l0.2.1 (l0.2.2 / 128)
      | [] => s1
    if rest.isEmpty then s2.dropOp o.id else (s2.setOp { o with kind := .acp rest size }).parkLines o.id false bad

/-! ### The source of a copy out of scratch (07 R204; 10 R266) -/

/-- An aligned word of a copy's source: its block and offset, or for four sideband bytes 8 × line + i. -/
structure SrcWord where
  block : Nat
  off : Nat
  side : Bool

def SrcWord.line (k : SrcWord) : Nat := if k.side then k.off / 8 else k.off / 128
def SrcWord.full (s : State) (k : SrcWord) : Bool :=
  match s.block k.block with
  | some b => (b.lineFE k.line).full
  | none => true
/-- Its value, whole, and whether its granule is poisoned. -/
def SrcWord.read (s : State) (k : SrcWord) : Word × Bool :=
  match s.block k.block with
  | none => (0, false)
  | some b =>
    if k.side then
      (BitVec.ofNat 32 (leNat ((List.range 4).map fun i => b.sideByte k.line (k.off % 8 + i))), b.sidePoisoned k.line)
    else (b.word k.off, b.poisoned k.off 4)

/-- The source words read after those that `pick` names have been read too, where they are full and were not read yet. -/
def readWords (s : State) (got : SMap (Word × Bool)) (srcs : List SrcWord) (pick : Nat → Bool) : SMap (Word × Bool) :=
  (srcs.zip (List.range srcs.length)).filterMap fun kn =>
    match got.find kn.2 with
    | some v => some (kn.2, v)
    | none => if pick kn.2 && kn.1.full s then some (kn.2, kn.1.read s) else none
/-- The words of an ACPS: those of each lane in turn. -/
def acpsWords (lanes : List (Nat × Nat × Nat)) (size : Nat) : List SrcWord :=
  lanes.flatMap fun l => (List.range (size / 4)).map fun i => ⟨l.2.1, l.2.2 + 4 * i, false⟩
def wordsBytes (l : List (Word × Bool)) : List Byte := l.flatMap fun v => leBytes 4 v.1.toNat

/-- ACPS's source release (07 R204, R205): every source word left is read whose line is full, and once all have been the
object is credited. What a store of its own wave or of another writes before that may or may not be in the copy. -/
def releaseAcps (s : State) (o : Op) (lanes : List (Nat × Nat × Nat)) (size objBlock objOff objAddr : Nat) (objOk : Bool) :
    State :=
  let got := readWords s o.got (acpsWords lanes size) fun _ => true
  if got.length < (acpsWords lanes size).length then s.setOp { o with got := got }
  else
    let part (i : Nat) : List (Word × Bool) := ((got.map (·.2)).drop (size / 4 * i)).take (size / 4)
    let read : List (Nat × List Byte × Bool) := (lanes.zip (List.range lanes.length)).map fun li =>
      (li.1.1, wordsBytes (part li.2), (part li.2).any (·.2))
    let s1 := s.setOp { o with got := [], kind := .acps lanes size objBlock objOff objAddr objOk (some read) }
    let s2 := if objOk then s1.credit o objBlock objOff objAddr (size * lanes.length)
      else s1.deferOp o causeBarrierMisuse objAddr true
    (lanes.map fun l => l.2.1).eraseDups.foldl (fun st b => st.checkBlock b) s2

def execAcpsSourceRelease (op : Nat) (s : State) : Result :=
  match s.op op with
  | some o => match o.kind with
    | .acps lanes size ob oo oa ok .none =>
      if inOrder s o then .next (releaseAcps s o lanes size ob oo oa ok).changed else .next s
    | _ => .next s
  | none => .next s

/-- Errors of a wave's engine writes: deferred traps (07 R207; 12 R315). -/
def State.deferWrites (s : State) (o : Op) (w : EngW) : State :=
  let s1 := w.withheld.eraseDups.foldl (fun st l => st.deferAt o causeConflict l) s
  match w.err with
  | some a => s1.deferAt o causePage a
  | none => s1

/-- An operation holds EPEND on the lines of the ranges that it still has to write (12 R315). -/
def State.keepPend (s : State) (o : Op) (x : Context) (ranges : List (Nat × Nat)) : State × Op :=
  let left := pendLines s x none false ranges
  (s.clearPend o.ctx (o.epend.filter fun l => !left.contains l), { o with epend := o.epend.filter left.contains })

/-- ACPS's writes at their homes (07 R204). Lanes that share a destination store in the order of R194; a lane that meets a
replayable fault waits alone (07 R207) (DESIGN CHOICE: log entry 76). -/
def writeAcps (s : State) (o : Op) (lanes : List (Nat × Nat × Nat)) (size objBlock objOff objAddr : Nat) (objOk : Bool)
    (read : List (Nat × List Byte × Bool)) : State :=
  match s.ctx o.ctx with
  | none => s.dropOp o.id
  | some x =>
    let (good, bad) := splitFaults s x o true (read.map fun r => (r.1, [(r.1, size)])).eraseDups
    let w := (read.filter fun r => good.contains r.1).foldl (fun (w : EngW) r =>
      w.write o.ctx x.regions none true (some o.unit) o.denied r.1 (r.2.1.map fun b => some (b, r.2.2))) (EngW.start s)
    let rest := read.filter fun r => !good.contains r.1
    let s1 := ((w.s.refreshTlb o.core x o.denied true (good.map fun a => (a, size))).deferWrites o w).joinRhz o.owner o.ctx o.key w.horizon
    let (s2, o2) := s1.keepPend o x (rest.map fun r => (r.1, size))
    if rest.isEmpty then s2.dropOp o.id
    else (s2.setOp { o2 with kind := .acps lanes size objBlock objOff objAddr objOk (some rest) }).parkLines o.id true bad

/-! ## Atomics (07 R198 to R201; 12 R300 to R304) -/

def atomVals (size : Nat) (dst : List Elem) (m : Nat) : List (Elem × Word) := loadVals size false dst m

/-- Whether an atomic writes: a compare and swap that fails does not. -/
def AtomOp.writes (op : AtomOp) (m v : Nat) : Bool :=
  match op with
  | .cas32 | .cas64 => m = v
  | _ => true

/-- A speculative compare and swap that fails against the core's leased copy (07 R200) (DESIGN CHOICE: log entry 76). -/
def specFail (s : State) (o : Op) (x : Context) (use : AtomUse) (pa size v : Nat) : Option Nat :=
  if use ≠ .speculative || x.compulsory then none
  else match liveCopy s o.core pa with
    | some l =>
      let m := leNat (l.bytes (pa % 128) size)
      if m ≠ v && !l.bad (pa % 128) size then some m else none
    | none => none

/-- An atomic at its home, alone or for the group that is combined with it (07 R198 to R200; 12 R300). A quantum add too is
applied here, one by one and never from a batch that the core holds (DESIGN CHOICE: log entry 76). -/
def atomAt (s : State) (o : Op) (x : Context) (a : Access) (op : AtomOp) (v w : Nat) (dst : List Elem) (entry : Option Nat)
    (use : AtomUse) (e : TlbEntry) : State :=
  let pa := e.phys a.addr
  match specFail s o x use pa a.size v with
  | some m => s.endOp o entry (atomVals a.size dst m)
  | none =>
    let comm := (op.commTag use).map fun t => (t, if op = .incw then v else 0)
    match s.recordGlobal o pa (wordMask pa a.size) true true comm with
    | none => s.failOp o entry causeConflict a.addr false
    | some s1 =>
      if entry.isSome && s1.poisoned pa a.size then s1.failOp o entry causePoison a.addr false
      else
        let m := s1.readNat pa a.size
        if !op.writes m v then (s1.dropCopy o.core pa).endOp o entry (atomVals a.size dst m)
        else
          let t := s1.wct pa 1
          let s2 := (s1.writeBytes (homeDie pa) pa (leBytes a.size (op.apply m v w)) false).dropCopy o.core pa
          (s2.joinRhz o.owner o.ctx o.key t).endOp o entry (atomVals a.size dst m)

def atomScratch (s : State) (o : Op) (a : Access) (op : AtomOp) (v w : Nat) (dst : List Elem) (entry : Option Nat) : State :=
  match s.block a.block with
  | none => s.dropOp o.id
  | some b =>
    if entry.isSome && b.poisoned a.addr a.size then s.failOp o entry causePoison (2 ^ 20 * b.rank + a.addr) true
    else
      let m := leNat (b.read a.addr a.size)
      let s1 := if op.writes m v then s.writeScratch a.block a.addr (leBytes a.size (op.apply m v w)) false else s
      s1.endOp o entry (atomVals a.size dst m)

def performAtomic (s : State) (o : Op) (a : Access) (op : AtomOp) (v w : Nat) (dst : List Elem) (entry : Option Nat)
    (use : AtomUse) (useTlb : Bool) : State :=
  if !a.glob then if scratchReady s a then atomScratch s o a op v w dst entry else s
  else match s.ctx o.ctx with
    | none => s.dropOp o.id
    | some x =>
      if inWindow a.addr then
        (s.dropOp o.id).raise o.ctx (windowVd a.addr) (windowCtr a.addr) (BitVec.ofNat 32 v) []
      else
        let (s1, t) := translate s o.core x a.addr true true useTlb
        match viaOf o.denied a.addr t with
        | .ok e => atomAt s1 o x a op v w dst entry use e
        | .bad => s1.failOp o entry causePage a.addr false
        | .fault p => s1.park o o.srck a.addr true false p

/-- A FADDO's contribution joins its record's queue. -/
def State.queueFaddo (s : State) (o : Op) (k : Contribution) : State :=
  ((s.dropCopy o.core k.pa).onCtx o.ctx fun x => x.onRec o.key fun r => { r with contribs := r.contribs ++ [k] }).dropOp o.id
/-- A FADDO's contribution is queued at the home, at the physical word that its translation at issue gave, or where there
was none then, the one that a later translation gives (12 R302, R303); the face is that of the issue, also where the region
has flipped before the application (DEDUCED: log entry 42). -/
def performFaddo (s : State) (o : Op) (va : Nat) (pa : Option Nat) (wide : Bool) (value index q n : Nat) (useTlb : Bool) :
    State :=
  match s.ctx o.ctx, pa with
  | none, _ => s.dropOp o.id
  | some _, some a => s.queueFaddo o ⟨a, wide, value, index, q, n, o.block⟩
  | some x, none =>
    let (s1, t) := translate s o.core x va true true useTlb
    match viaOf o.denied va t with
    | .ok e => s1.queueFaddo o ⟨e.phys va, wide, value, index, q, n, o.block⟩
    | .bad => s1.failOp o none causePage va false
    | .fault p => s1.park o o.srck va true false p

/-! ### Combination (12 R301) -/

/-- The sum of some codes with one rne rounding (12 R301). -/
def fpSumOnce (f : Fmt) (l : List Nat) : Nat :=
  let vs := l.map f.decode
  let neg (v : FVal) : Bool := v.isNeg
  if vs.any FVal.isNan || (vs.any (fun v => v.isInf && neg v) && vs.any fun v => v.isInf && !neg v) then f.nan
  else match vs.find? FVal.isInf with
    | some v => f.inf (neg v)
    | none =>
      let (m, e) := vs.foldl (fun (acc : Int × Int) v => match v with
        | .fin n m e => exactAdd acc.1 acc.2 (signedOf n m) e
        | _ => acc) (0, 0)
      if m = 0 then f.zero (vs.all neg) else (f.round .rne false (decide (m < 0)) m.natAbs e false 0).code

/-- The physical word of an atomic's access. -/
def wordAt (s : State) (o : Op) (a : Access) : Option Nat :=
  if !a.glob then some a.addr
  else (s.ctx o.ctx).bind fun x => match via s x o.denied a.addr true true with
    | .ok e => some (e.phys a.addr)
    | _ => none
/-- Whether a scope lets the atomics of two cores be combined: block scope within the issuing core, cluster scope within the
crossbar of one logical cluster (12 R301). -/
def scopeSpans (sc : Scope) (c d : Nat) : Bool :=
  match sc with
  | .block => c = d
  | .cluster => c / 4 = d / 4
  | _ => true
/-- Whether two outstanding commutative atomics may be combined: one operation, location and scope, within what the scope
spans, in compulsory mode one unit (DESIGN CHOICE: log entry 76). -/
def combines (s : State) (o p : Op) : Bool :=
  p.id ≠ o.id && p.ctx = o.ctx && inOrder s p && match o.kind, p.kind with
    | .atomic a op _ _ _ _ use sc, .atomic a' op' _ _ _ _ use' sc' =>
      op = op' && use = .commutative && use' = .commutative && sc = sc' && scopeSpans sc o.core p.core && a.glob = a'.glob
        && (a.glob || a.block = a'.block) && (wordAt s o a).isSome && wordAt s o a = wordAt s p a'
        && (o.unit = p.unit || !(s.ctx o.ctx).any Context.compulsory)
    | _, _ => false
def OpKind.operand : OpKind → Nat
  | .atomic _ _ v .. => v
  | _ => 0

/-- A member of a group that was performed as one: the group's write-completion time stands for it. -/
def State.combined (s : State) (t pa : Nat) (glob : Bool) (p : Op) : State :=
  if glob then ((s.dropCopy p.core pa).joinRhz p.owner p.ctx p.key t).dropOp p.id else s.dropOp p.id

/-- An atomic and the members that are combined with it: additions in a format as one atomic that adds their sum, integer
operations one after another, which gives the same value (12 R301). -/
def performGroup (s : State) (o : Op) (a : Access) (op : AtomOp) (v w : Nat) (dst : List Elem) (entry : Option Nat)
    (use : AtomUse) (useTlb : Bool) (members : List Op) : State :=
  let alone (s : State) (v : Nat) : State := performAtomic s o a op v w dst entry use useTlb
  let fmt : Option Fmt := match op with
    | .fadd32 => some f32
    | .fadd64 => some f64
    | _ => none
  match fmt, wordAt s o a with
  | some f, some pa =>
    if members.isEmpty || !(!a.glob || (s.recordGlobal o pa (wordMask pa a.size) true true none).isSome)
        || !(a.glob || scratchReady s a) then alone s v
    else
      let t := s.wct pa 1
      members.foldl (fun st p => st.combined t pa a.glob p) (alone s (fpSumOnce f (v :: members.map fun p => p.kind.operand)))
  | _, _ =>
    members.foldl (fun st p => match p.kind with
      | .atomic a op v w dst entry use _ => performAtomic st p a op v w dst entry use useTlb
      | _ => st) (alone s v)

/-- ATOMIC_PERFORM: an atomic, with the outstanding ones that are combined with it (DESIGN CHOICE: log entry 76), or a
FADDO. -/
def execAtomicPerform (op : Nat) (how : AtomicChoice) (s : State) : Result :=
  match s.op op with
  | some o => match o.kind with
    | .atomic a op v w dst entry use _ =>
      if inOrder s o then
        .next (performGroup s o a op v w dst entry use how.useTlb
          ((how.others.eraseDups.filterMap s.op).filter (combines s o))).changed
      else .next s
    | .faddo va pa wide value index q n =>
      if inOrder s o then .next (performFaddo s o va pa wide value index q n how.useTlb).changed else .next s
    | _ => .next s
  | none => .next s

/-! ### The FADDO overflow list (12 R304) -/

/-- Contributions queued and on their way (DEDUCED: log entry 42). -/
def faddoUsed (s : State) (c : Nat) : Nat :=
  let queued := match s.ctx c with
    | some x => (x.recs.map fun r => r.contribs.length).foldl (· + ·) 0
    | none => 0
  queued + (s.ops.filter fun o => o.ctx = c && match o.kind with
    | .faddo .. => true
    | _ => false).length
def faddoRoom (s : State) (b : Block) (n : Nat) : Bool := n = 0 || faddoUsed s b.ctx + n ≤ (s.ctxD b).faddoMax
/-- The list is exhausted: a class 9 event at each change to exhausted (DEDUCED: log entry 42). -/
def faddoExhausted (s : State) (u : Nat) (b : Block) : State :=
  let x := s.ctxD b
  if x.faddoFull then s
  else
    (s.onCtx b.ctx fun x => { x with faddoFull := true }).post (coreDie (unitCore u)) false none
      [coreEvent s b.ctx (unitCore u) 7 9 0 x.faddoArea.1 (BitVec.ofNat 64 (faddoUsed s b.ctx))]

def execVatomFaddo32 (p : Bool) (d a : BitVec 7) (_n : Bool) (_sc : Scope) (_u : AtomUse) (_x : Bool) (s : State) :
    Result :=
  vfaddo s p d a false faddoRoom faddoExhausted
def execVatomFaddo64 (p : Bool) (d a : BitVec 7) (_n : Bool) (_sc : Scope) (_u : AtomUse) (_x : Bool) (s : State) :
    Result :=
  vfaddo s p d a true faddoRoom faddoExhausted

/-- Key order of contributions (12 R302). -/
def Contribution.before (a b : Contribution) : Bool :=
  a.index < b.index || (a.index = b.index && (a.lane < b.lane || (a.lane = b.lane && a.n ≤ b.n)))

/-- One location's contributions applied as one atomic (12 R303). The state and its write-completion time. -/
def applyLocation (s : State) (pa : Nat) (wide : Bool) (cs : List Contribution) : State × Nat :=
  let size := if wide then 8 else 4
  let f := if wide then f64 else f32
  let m := (sortBy Contribution.before cs).foldl (fun m k => (fpAdd f .rne m k.value 0).code) (s.readNat pa size)
  let t := s.wct pa 1
  (s.writeBytes (homeDie pa) pa (leBytes size m) false, t)

/-- Step 2 of a record's completion (11 R283; 12 R303): the state and the largest write-completion time. Locations of
different widths that overlap are taken in the order of their first queued contributions (DEDUCED: log entry 42). -/
def applyContribs (s : State) (cs : List Contribution) : State × Nat :=
  (cs.map fun k => (k.pa, k.wide)).eraseDups.foldl (fun acc loc =>
    let (s1, t) := applyLocation acc.1 loc.1 loc.2 (cs.filter fun k => k.pa = loc.1 && k.wide = loc.2)
    (s1, max acc.2 t)) (s, 0)

/-! ## Arrivals and commits -/

/-- Whether an entry's results come from an operation or a matrix engine (DEDUCED: log entry 34). -/
def entryInFlight (s : State) (seq : Nat) : Bool :=
  s.ops.any (fun o => match o.kind with
    | .load _ _ _ e => e = seq
    | .ldt _ _ _ _ _ _ e => e = seq
    | .atomic _ _ _ _ _ (some e) _ _ => e = seq
    | _ => false) ||
  s.cores.any fun kc => kc.2.mat.queue.any fun e => match e.op with
    | .macc _ _ _ _ _ q => q = seq
    | _ => false

/-- What a pending CSRR returns, sampled as it is performed (02 R66, R67), with the latched high word
(DEDUCED: log entry 15). -/
def Sample.take (pt : Nat) (w : Wave) (x : Sample) : Option (Word × Wave) :=
  match x with
  | .none => .none
  | .clockLo => some (BitVec.ofNat 32 pt, { w with csr := { w.csr with clockHi := BitVec.ofNat 32 (pt / 2 ^ 32) } })
  | .countLo v => some (v.extractLsb' 0 32, { w with csr := { w.csr with clockHi := v.extractLsb' 32 32 } })
  | .clockHi => some (w.csr.clockHi, w)
  | .retiredLo v => some (v.extractLsb' 0 32, { w with csr := { w.csr with retiredHi := v.extractLsb' 32 32 } })
  | .retiredHi => some (w.csr.retiredHi, w)

/-- A result that no operation delivers arrives: a CSRR's, once earlier entries of its kind have theirs, and a DQPOP's
(02 R68) (DEDUCED: log entry 34). -/
def execResultArrival (unit entry : Nat) (s : State) : Result :=
  match s.wave unit with
  | none => .next s
  | some w =>
    match w.rb.find? fun en => en.seq = entry with
    | none => .next s
    | some en =>
      if en.waiting = 0 || entryInFlight s entry || !s.runs (unitCore unit) then .next s
      else if en.sample = .none then
        .next (s.setWave unit (w.onEntry entry fun en => en.deliver [])).changed
      else if (w.rb.takeWhile fun e => e.seq ≠ entry).any fun e => e.sample ≠ .none && e.waiting ≠ 0 then .next s
      else match en.sample.take s.pt w with
        | some (v, w1) =>
          .next (s.setWave unit (w1.onEntry entry fun en => en.deliver (en.dests.map fun d => (d, v)))).changed
        | none => .next s

/-- The commit at a park point (02 R70): the parking instruction issues after it, unless a deferred error is pending, which
the wave takes there (02 R81). -/
def execParkCommit (unit : Nat) (s : State) : Result :=
  match s.wave unit with
  | some w =>
    if !w.parking || !w.arrived || !s.runs (unitCore unit) then .next s
    else
      let w1 := w.commit
      match w1.deferred with
      | [] => .next (s.setWave unit w1).changed
      | d :: more =>
        if w1.regs.vBusy.isEmpty then
          .next (s.enterTrap unit { w1 with deferred := [] } ((d.lowest more).trap w1.pc)).changed
        else .next s
  | none => .next s

/-! ## Expiry of leases (12 R294, R306) -/

def execLeaseExpiry (core line : Nat) (s : State) : Result :=
  match (s.core core).l1.find line with
  | some l =>
    if l.expiry ≤ s.pt then .next (s.setCore core { s.core core with l1 := (s.core core).l1.del line }).changed else .next s
  | none => .next s

def execTlbLeaseExpiry (core page : Nat) (s : State) : Result :=
  let old (e : TlbEntry) : Bool := decide (e.va / 4096 = page) && match e.expiry with
    | some t => decide (t ≤ s.pt)
    | none => false
  let c := s.core core
  if c.tlb.any old then .next (s.setCore core { c with tlb := c.tlb.filter fun e => !old e }).changed else .next s

end Sys2Proof.Machine
end

