-- ==== Sys2Proof/Machine/Vsync.lean ====
section
/-!
DEFINITION. Per-lane copies at issue (07 R202 to R206), barrier objects (07 R209 to R212), waits on words and lines (07
R213 to R216), and fences (07 R217; 12 R297).
-/
namespace Sys2Proof.Machine

/-! ## ACP and ACPS -/

/-- Copies of a core that hold an entry of its copy queue (07 R206). -/
def copyQueue (s : State) (core : Nat) : Nat :=
  (s.ops.filter fun o => o.core = core && match o.kind with
    | .acp .. | .acps .. => true
    | _ => false).length
def copyQueueMax : Nat := 64

/-- A wave has an earlier read of a scratch line that can be performed and has not been: LEMPTY lets it be performed before
the line is emptied (DEDUCED: log entry 27). -/
def State.readsFull (s : State) (w : Wave) (block line : Nat) : Bool :=
  s.ops.any fun o => w.owns o.owner && o.kind.isRead && !s.readsEmpty o && inOrder s o &&
    o.kind.accesses.any fun a => !a.glob && a.block = block && (linesOf a.addr (if a.side then 1 else a.size)).contains line

/-- The lanes of a copy: position, global address, scratch address. -/
def copyLanes (w : Wave) (d a b : BitVec 7) : List (Nat × Nat × Nat) :=
  w.active.map fun q => (q, laneAddr .base w a b q, (w.rdV d q).toNat)

/-- The checks of a copy's lanes: in each lane the global address, then the scratch one (DEDUCED: log entry 22). -/
def checkCopy (s : State) (blk : Block) (size : Nat) (lanes : List (Nat × Nat × Nat)) : Option Trap :=
  let x := s.ctxD blk
  lanes.findSome? fun l =>
    match checkAddr s x blk true false true false size l.2.1 l.1 with
    | some t => some t
    | none => checkAddr s x blk false false true false size l.2.2 l.1

/-- The lanes with their targets: global address, target block, offset. -/
def copyTargets (s : State) (blk : Block) (size : Nat) (lanes : List (Nat × Nat × Nat)) : List (Nat × Nat × Nat) :=
  lanes.filterMap fun l => (scratchTarget s blk l.2.2 size).map fun t => (l.2.1, t.1, t.2)

def acp (s : State) (p : Bool) (size : Nat) (d a b : BitVec 7) : Result :=
  issue s p ⟨false, noEntry, notFore, [.vs d 1, .sl a 2, .vs b 1]⟩ fun u w blk =>
    let lanes := copyLanes w d a b
    match checkCopy s blk size lanes with
    | some t => .trap t
    | none =>
      let ts := copyTargets s blk size lanes
      let ls := (ts.map fun t => (t.2.1, t.2.2 / 128)).eraseDups
      if lanes.isEmpty then .done (s.setWave u w.next)
      else if copyQueueMax ≤ copyQueue s (unitCore u) || s.globalStores w || s.acquiring w true then .stall
      else match s.countLines ls with
        | none => .stall
        | some s1 => .done ((s1.setWave u w.next).addOp u w blk (.acp ts size))

def acps (s : State) (p : Bool) (size : Nat) (d a b : BitVec 7) : Result :=
  issue s p ⟨false, noEntry, notFore, [.vs d 1, .sl a 3, .vs b 1]⟩ fun u w blk =>
    let lanes := copyLanes w d a b
    match checkCopy s blk size lanes with
    | some t => .trap t
    | none =>
      let ts := copyTargets s blk size lanes
      let obj := (w.rdSk a 2).toNat
      if lanes.isEmpty then .done (s.setWave u w.next)
      else if copyQueueMax ≤ copyQueue s (unitCore u) || s.globalStores w || s.acquiring w true then .stall
      else
        let lines := pendLines s (s.ctxD blk) none true (ts.map fun t => (t.1, size))
        let target := if obj % 16 = 0 then scratchTarget s blk obj 16 else none
        let dest := target.getD (0, 0)
        .done ((s.setWave u w.next).addEngineOp u w blk lines.eraseDups
          (.acps ts size dest.1 dest.2 obj target.isSome none))

def execAcp4 (p : Bool) (d a b : BitVec 7) (s : State) : Result := acp s p 4 d a b
def execAcp8 (p : Bool) (d a b : BitVec 7) (s : State) : Result := acp s p 8 d a b
def execAcp16 (p : Bool) (d a b : BitVec 7) (s : State) : Result := acp s p 16 d a b
def execAcps4 (p : Bool) (d a b : BitVec 7) (s : State) : Result := acps s p 4 d a b
def execAcps8 (p : Bool) (d a b : BitVec 7) (s : State) : Result := acps s p 8 d a b
def execAcps16 (p : Bool) (d a b : BitVec 7) (s : State) : Result := acps s p 16 d a b

/-! ## Barrier objects -/

/-- The place of an object: its block and offset, or the trap (07 R210) (DEDUCED: log entry 37). -/
def objectPlace (s : State) (b : Block) (addr : Nat) : Except Trap (Nat × Nat) :=
  match scratchTarget s b addr 16 with
  | none => .error (scratchTrap addr 0)
  | some t => if addr % 16 = 0 then .ok t else .error (misalignTrap addr true 0)

/-- A wave has an earlier scratch access to a range not yet performed. -/
def State.scratchOps (s : State) (w : Wave) (block off size : Nat) : Bool :=
  s.ops.any fun o => w.owns o.owner && o.kind.accesses.any fun a =>
    !a.glob && a.block = block && decide (a.addr < off + size) && decide (off < a.addr + a.size)
/-- A wave has an earlier scratch write not yet performed; `line`: to that line only. -/
def State.scratchWrites (s : State) (w : Wave) (line : Option (Nat × Nat)) : Bool :=
  s.ops.any fun o => w.owns o.owner && o.kind.isStore && o.kind.accesses.any fun a => !a.glob && match line with
    | some l => a.block = l.1 && a.addr / 128 = l.2
    | none => true

/-- A barrier-object instruction: `body` gets the object's block, offset, address and value. -/
def onObject (s : State) (w : Wave) (b : Block) (a : BitVec 7) (body : Nat → Nat → Word → BarObj → Eff) : Eff :=
  let addr := w.rdS a
  match objectPlace s b addr.toNat with
  | .error t => .trap t
  | .ok (t, off) =>
    if s.scratchOps w t off 16 || s.acquiring w false then .stall
    else match s.block t with
      | some blk => body t off addr (blk.object off)
      | none => .trap (scratchTrap addr.toNat 0)

def execBoinit (p : Bool) (a b : BitVec 7) (s : State) : Result :=
  issue s p ⟨false, noEntry, anywhere, [.ss a 1, .ss b 1]⟩ fun u w blk =>
    onObject s w blk a fun t off addr o =>
      let n := (w.rdS b).toNat
      if o.valid || n = 0 || 65535 < n then .trap (misuse s addr)
      else .done ((s.setWave u w.next).setObject t off (BarObj.init (w.rdS b)))

def execBoarr (p : Bool) (d a : BitVec 7) (s : State) : Result :=
  issue s p ⟨false, noEntry, anywhere, [.sd d 1, .ss a 1]⟩ fun u w blk =>
    onObject s w blk a fun t off addr o =>
      if !o.valid || o.pend = 0 then .trap (misuse s addr)
      else if !s.released w .block then .stall
      else .done ((s.setWave u (w.wrS d ((bit o.phase).setWidth 32)).next).setObject t off o.arrive)

def execBoexp (p : Bool) (a b : BitVec 7) (s : State) : Result :=
  issue s p ⟨false, noEntry, anywhere, [.ss a 1, .ss b 1]⟩ fun u w blk =>
    onObject s w blk a fun t off addr o =>
      if !o.valid || (w.rdS b).getLsbD 31 then .trap (misuse s addr)
      else .done ((s.setWave u w.next).setObject t off (o.expect (w.rdS b)))

def execBowait (p : Bool) (d a b : BitVec 7) (s : State) : Result :=
  issue s p ⟨false, noEntry, anywhere, [.ss d 1, .ss a 1, .ss b 1]⟩ fun u w blk =>
    onObject s w blk a fun t off addr o =>
      let token := (w.rdS d).getLsbD 0
      if !o.valid then .trap (misuse s addr)
      else if o.phase ≠ token then .done ((s.setWave u ((w.observe s).wrS d 1).next).passTurn u w false)
      else if s.cmp blk then .done (s.startWait u w (.bowait t off d.toNat token none))
      else if w.rdS b = 0 then .done (s.setWave u (w.wrS d 0).next)
      else .done (s.startWait u w (.bowait t off d.toNat token (deadline s (w.rdS b))))

def execBotest (p : Bool) (d a : BitVec 7) (s : State) : Result :=
  issue s p ⟨false, noEntry, anywhere, [.ss d 1, .ss a 1]⟩ fun u w blk =>
    onObject s w blk a fun _ _ addr o =>
      if !o.valid then .trap (misuse s addr)
      else if o.phase ≠ (w.rdS d).getLsbD 0 then .done (s.setWave u ((w.observe s).wrS d 1).next)
      else .done (s.setWave u (w.wrS d 0).next)

/-- BOWAIT's timeout: the result tells the phase as it stands, a stored value included (07 R211). -/
def execBowaitTimeout (unit : Nat) (s : State) : Result :=
  match s.wave unit with
  | some w => match w.wait with
    | .bowait t off d token dl =>
      if expired s dl && s.runs (unitCore unit) then
        if (s.block t).any fun b => (b.object off).phase ≠ token then
          .next (s.setWave unit ((w.observe s).putS d 1).resume).changed
        else timeOut s unit w d
      else .next s
    | _ => .next s
  | none => .next s

/-! ## WAITA -/

/-- A wait that has timed out, or does at once: 0, or CONFLICT in compulsory mode (07 R215). -/
def waitFails (s : State) (u : Nat) (w : Wave) (b : Block) (d : BitVec 7) : Eff :=
  if s.cmp b then .trap (conflictTrap s) else .done (s.setWave u (w.wrS d 0).next)

def waita (s : State) (p eq : Bool) (d a b : BitVec 7) : Result :=
  issue s p ⟨false, noEntry, anywhere, [.sd d 1, .ss a 2, .ss b 1]⟩ fun u w blk =>
    let addr := (w.rdS a).toNat
    let value := w.rdSk a 1
    match scratchTarget s blk addr 4 with
    | none => .trap (scratchTrap addr 0)
    | some (t, off) =>
      if addr % 4 ≠ 0 then .trap (misalignTrap addr true 0)
      else if s.scratchOps w t off 4 || s.acquiring w false then .stall
      else
        let now := match s.block t with
          | some k => k.word off
          | none => 0
        if (now = value) = eq then
          let s1 := s.setWave u ((w.observe s).wrS d 1).next
          .done (if w.fore then s1.passTurn u w false else s1)
        else if w.rdS b = 0 then waitFails s u w blk d
        else .done (s.startWait u w (.waita t off d.toNat eq value (deadline s (w.rdS b))))

def execWaitaEq (p : Bool) (d a b : BitVec 7) (s : State) : Result := waita s p true d a b
def execWaitaNe (p : Bool) (d a b : BitVec 7) (s : State) : Result := waita s p false d a b

/-- The end by timeout of a WAITA or LWAIT (07 R215): in compulsory mode a precise trap, which awaits and commits earlier
results and gives way to a pending deferred error (02 R80, R81). -/
def timeOutOrConflict (s : State) (u : Nat) (w : Wave) (d : Nat) : Result :=
  match s.block w.block with
  | some b =>
    if !s.cmp b then timeOut s u w d
    else if !w.arrived || !w.regs.vBusy.isEmpty then .next s
    else .next ((s.setWave u w.commit).trapWaiting u ⟨causeConflict, w.word, 0⟩).changed
  | none => timeOut s u w d

def execWaitaTimeout (unit : Nat) (s : State) : Result :=
  match s.wave unit with
  | some w => match w.wait with
    | .waita _ _ d _ _ dl => if expired s dl && s.runs (unitCore unit) then timeOutOrConflict s unit w d else .next s
    | _ => .next s
  | none => .next s

/-! ## Lines -/

def onLine (s : State) (w : Wave) (b : Block) (a : BitVec 7) (body : Nat → Nat → LineFE → Eff) : Eff :=
  let addr := (w.rdS a).toNat
  match scratchTarget s b addr 1 with
  | none => .trap (scratchTrap addr 0)
  | some (t, off) =>
    match s.block t with
    | some k => body t (off / 128) (k.lineFE (off / 128))
    | none => .trap (scratchTrap addr 0)

def execLempty (p : Bool) (a : BitVec 7) (s : State) : Result :=
  issue s p ⟨false, noEntry, anywhere, [.ss a 1]⟩ fun u w b =>
    onLine s w b a fun t line x =>
      if s.scratchWrites w (some (t, line)) || s.readsFull w t line || s.acquiring w true then .stall
      else .done ((s.setWave u w.next).setLine t line x.empty)

/-- LFILL: a cluster-scope release of earlier scratch writes (07 R216). -/
def execLfill (p : Bool) (a : BitVec 7) (s : State) : Result :=
  issue s p ⟨false, noEntry, anywhere, [.ss a 1]⟩ fun u w b =>
    onLine s w b a fun t line x =>
      if s.scratchWrites w none || s.acquiring w true then .stall
      else .done ((s.setWave u w.next).setLine t line x.fill)

def execLtest (p : Bool) (d a : BitVec 7) (s : State) : Result :=
  issue s p ⟨false, noEntry, anywhere, [.sd d 1, .ss a 1]⟩ fun u w b =>
    onLine s w b a fun t line x =>
      if s.scratchWrites w (some (t, line)) || s.acquiring w true then .stall
      else .done (s.setWave u (w.wrS d ((bit x.full).setWidth 32)).next)

def execLwait (p : Bool) (d a b : BitVec 7) (s : State) : Result :=
  issue s p ⟨false, noEntry, anywhere, [.sd d 1, .ss a 1, .ss b 1]⟩ fun u w blk =>
    onLine s w blk a fun t line x =>
      if s.scratchWrites w (some (t, line)) || s.acquiring w true then .stall
      else if x.full then .done (s.setWave u ((w.observe s).wrS d 1).next)
      else if w.rdS b = 0 then waitFails s u w blk d
      else .done (s.startWait u w (.lwait t line d.toNat (deadline s (w.rdS b))))

def execLwaitTimeout (unit : Nat) (s : State) : Result :=
  match s.wave unit with
  | some w => match w.wait with
    | .lwait _ _ d dl => if expired s dl && s.runs (unitCore unit) then timeOutOrConflict s unit w d else .next s
    | _ => .next s
  | none => .next s

/-! ## Fences (07 R217; 12 R297) -/

/-- A wave has an earlier access to a partner's scratch not yet performed. -/
def State.partnerOps (s : State) (w : Wave) : Bool :=
  s.ops.any fun o => w.owns o.owner && o.kind.accesses.any fun a => !a.glob && a.block ≠ w.block

/-- A fence first takes a pending deferred error (02 R81); then it waits for what its scope names, and orders. -/
def fence (s : State) (p : Bool) (sc : Scope) (acq rel : Bool) : Result :=
  issue s p ⟨false, noEntry, anywhere, []⟩ fun u w _ =>
    match w.deferred with
    | d :: more => .trap ((d.lowest more).trap w.pc)
    | [] =>
      if sc ≠ .block && (s.partnerOps w || (rel && !s.released w sc)) then .stall
      else .done (s.setWave u { (if acq then w.observe s else w).next with
        ordLoads := if acq then s.fresh else w.ordLoads
        ordStores := if rel then s.fresh else w.ordStores })

def execFenceAcq (p : Bool) (sc : Scope) (s : State) : Result := fence s p sc true false
def execFenceRel (p : Bool) (sc : Scope) (s : State) : Result := fence s p sc false true
def execFenceFull (p : Bool) (sc : Scope) (s : State) : Result := fence s p sc true true

end Sys2Proof.Machine
end

