-- ==== Sys2Proof/Machine/Tens.lean ====
section
/-!
DEFINITION. Transposing loads at issue (07 R218 to R220), shape records (10 R259 to R261) and bulk tensor copies (10 R262
to R269).
-/
namespace Sys2Proof.Machine

/-! ## Transposing loads -/

/-- A layout of LDT (07 R219): row bytes, bits of an element, registers, elements per register, sideband block size. -/
structure Ldt where
  row : Nat
  esize : Nat
  regs : Nat
  per : Nat
  block : Option Nat

def ldtL4 : Ldt := ⟨2, 4, 2, 8, some 16⟩
def ldtL6 : Ldt := ⟨3, 6, 4, 4, some 24⟩
def ldtL8 : Ldt := ⟨4, 8, 4, 4, some 32⟩
def ldtL16 : Ldt := ⟨8, 16, 8, 2, none⟩
def ldtL32 : Ldt := ⟨16, 32, 16, 1, none⟩

/-- V[a] of a lane, 0 beyond the lane count (02 R76). -/
def quadWord (w : Wave) (a : BitVec 7) (pos : Nat) : Nat := if pos < w.count then (w.rdV a pos).toNat else 0

/-- The bit address of element (i, j) of a lane's quad, where it lies inside the edges (DEDUCED: log entry 28). -/
def ldtElem (w : Wave) (k : Ldt) (a : BitVec 7) (rows cols pos i : Nat) : Option Nat :=
  let q := pos / 4 * 4
  let j := pos % 4
  let y := quadWord w a (q + 1)
  let x := quadWord w a (q + 2)
  if rows ≤ y + i || cols ≤ x + j then none
  else some ((quadWord w a q + i * quadWord w a (q + 3)) % 2 ^ 32 * 8 + j * k.esize)

/-- The checks of one lane: scratch range of its elements, then alignment. -/
def ldtCheck (s : State) (w : Wave) (b : Block) (k : Ldt) (a : BitVec 7) (rows cols pos : Nat) : Option Trap :=
  let q := pos / 4 * 4
  let base := quadWord w a q
  let bad := (List.range 16).findSome? fun i => (ldtElem w k a rows cols pos i).bind fun at_ =>
    if (scratchTarget s b (at_ / 8) ((at_ % 8 + k.esize + 7) / 8)).isSome then none else some (at_ / 8)
  match bad with
  | some addr => some (scratchTrap addr pos)
  | none => if base % k.row ≠ 0 || quadWord w a (q + 3) % k.row ≠ 0 then some (misalignTrap base true pos) else none

/-- The elements of a lane as block and bit offset. -/
def ldtElems (s : State) (w : Wave) (b : Block) (k : Ldt) (a : BitVec 7) (rows cols pos : Nat) : List (Option (Nat × Nat)) :=
  (List.range 16).map fun i => (ldtElem w k a rows cols pos i).bind fun at_ =>
    (scratchTarget s b (at_ / 8) 1).map fun t => (t.1, 8 * t.2 + at_ % 8)

/-- Whether a parameter of a lane's quad is poisoned (07 R218; 17 R376). -/
def quadPoisoned (w : Wave) (a : BitVec 7) (pos : Nat) : Bool :=
  (List.range 4).any fun j => decide (4 * (pos / 4) + j < w.count) &&
    w.regs.vPoison.contains (laneKey (w.phys a 0) (4 * (pos / 4) + j))

def ldt (s : State) (p : Bool) (k : Ldt) (d a b : BitVec 7) : Result :=
  issue s p
    ⟨false, fun w => if w.active.isEmpty then none else some (4 * k.regs * w.active.length), notFore,
      [.vd d k.regs, .ed d k.regs, .vx a 1, .sl b 2]⟩
    fun u w blk =>
      let rows := (w.rdS b).toNat
      let cols := (w.rdSk b 1).toNat
      if w.active.any (quadPoisoned w a) then .trap (wordTrap s causePoison 0)
      else match w.active.findSome? (ldtCheck s w blk k a rows cols) with
      | some t => .trap t
      | none =>
        let lanes := w.active.map fun pos => (pos, ldtElems s w blk k a rows cols pos)
        let vdst (pos : Nat) : List Elem := (List.range k.regs).map fun r => .v (laneKey (w.phys d r) pos)
        let edst (pos : Nat) : List Elem := (List.range k.regs).map fun r => .e (laneKey (w.phys d r) pos)
        let op (l : Nat × List (Option (Nat × Nat))) : OpKind :=
          let side : Option (Nat × Nat × Nat) := match k.block, l.2.headD none with
            | some bs, some (t, at_) => some (t, at_ / 8 / 128, at_ / 8 % 128 / bs)
            | _, _ => none
          .ldt l.2 k.esize k.per side (vdst l.1) (edst l.1) s.fresh
        match scratchConflict s u blk (lanes.flatMap fun l => (op l).accesses) true false none with
        | none => .trap (conflictTrap s)
        | some s1 =>
          if lanes.isEmpty then .done (s1.setWave u w.next)
          else
            let en : Entry :=
              { seq := s.fresh, pc := w.pc, bytes := 4 * k.regs * lanes.length
                dests := lanes.flatMap fun l => vdst l.1 ++ edst l.1
                vals := [], waiting := lanes.length, flags := 0, failed := false, sample := .none }
            .done (lanes.foldl (fun st l => st.addOp u w blk (op l)) ((s1.setWave u (w.pushEntry en).next).next))

def execLdt4 (p : Bool) (d a b : BitVec 7) (s : State) : Result := ldt s p ldtL4 d a b
def execLdt6 (p : Bool) (d a b : BitVec 7) (s : State) : Result := ldt s p ldtL6 d a b
def execLdt8 (p : Bool) (d a b : BitVec 7) (s : State) : Result := ldt s p ldtL8 d a b
def execLdt16 (p : Bool) (d a b : BitVec 7) (s : State) : Result := ldt s p ldtL16 d a b
def execLdt32 (p : Bool) (d a b : BitVec 7) (s : State) : Result := ldt s p ldtL32 d a b

/-! ## Reading memory for an instruction that awaits the home's answer -/

/-- What such a read comes to: its bytes, a state in which the wave waits for a fix, or a deferred error. -/
inductive HomeRead
  | ok (l : List Byte)
  | wait (s : State)
  | err (cause : BitVec 8) (addr : Nat)

/-- The pages of a range. -/
def pagesOf (va n : Nat) : List Nat := (chunks va n).map fun c => c.1 / 4096

/-- A wave waits, its instruction not yet counted, for the answer to a translation fault (17 R364); where the replay
buffer is full it tries again. -/
def State.waitHome (s : State) (u : Nat) (w : Wave) (b : Block) (va : Nat) (write perm : Bool) : State :=
  if replayMax ≤ s.parkedIn (coreDie (unitCore u)) then s
  else
    let (s1, token) := s.faultRecord b.ctx (unitCore u) (waveSource u w b) va write false false perm
    (s1.setWave u { w with wait := .home token, word := s1.ir }).reportFull b.ctx (unitCore u)

def homeRead (s : State) (u : Nat) (w : Wave) (b : Block) (va n : Nat) : HomeRead :=
  let x := s.ctxD b
  let denied := w.denied
  match firstFault s x denied true false [(va, n)] with
  | some (a, p) => .wait (s.waitHome u w b a false p)
  | none =>
    match readFail s x denied va n with
    | some a => .err causePage a
    | none =>
      let l := engineRead s x denied va n
      match (l.zip (List.range n)).find? fun bi => match bi.1 with
          | some (_, p) => p
          | none => true with
      | some bi => .err causePoison (va + bi.2)
      | none => .ok (l.filterMap fun b => b.map (·.1))

/-- A load by such an instruction at the home: the core keeps no older copy of its lines and no older translation (12 R296,
R309), and in compulsory mode it is recorded in their signatures (R314); `none` where it conflicts. -/
def State.recordLoad (s : State) (u : Nat) (b : Block) (va n : Nat) : Option State :=
  let s0 := s.refreshTlb (unitCore u) (s.ctxD b) [] false [(va, n)]
  (linesOf va n).foldl (fun acc l => acc.bind fun st0 =>
    let x := st0.ctxD b
    match via st0 x [] (max va (128 * l)) true false with
    | .ok e =>
      let pa := e.phys (max va (128 * l))
      let st := st0.dropCopy (unitCore u) pa
      if !x.compulsory then some st
      else ((x.sigs.get LineSig.empty (pa / 128)).access (unitNo u) (x.vdOf (coreDie (unitCore u)))
        (homeDie pa = coreDie (unitCore u)) 0 true false none).map fun g =>
          st.onCtx b.ctx fun x => { x with sigs := x.sigs.put LineSig.empty (pa / 128) g }
    | _ => some st0) (some s0)

/-- The wave after an instruction whose home answered. -/
def Wave.answered (w : Wave) : Wave := { w.next with denied := [] }
/-- Such an instruction ends with a deferred error and no other effect. -/
def Wave.answeredErr (w : Wave) (cause : BitVec 8) (addr : Nat) : Wave :=
  { w.answered with deferred := w.deferred ++ [⟨cause, addr, false, w.pc, 0⟩] }

/-! ## Shape records -/

def Desc.shBase (d : Desc) : Nat := d.fld 0 64
def Desc.shDim (d : Desc) (k : Nat) : Nat :=
  match k with
  | 0 => d.fld 64 32 | 1 => d.fld 96 32 | 2 => d.fld 128 32 | 3 => d.fld 160 16 | 4 => d.fld 176 16 | _ => 0
def Desc.shStride (d : Desc) (k : Nat) : Nat :=
  match k with
  | 1 => d.fld 192 32 | 2 => d.fld 224 32 | 3 => d.fld 256 32 | 4 => d.fld 288 32 | _ => 0
def Desc.shFmt (d : Desc) : Nat := d.fld 320 4
def Desc.shMx (d : Desc) : Bool := d.getLsbD 324
def Desc.shEdge (d : Desc) : Nat := d.fld 325 2
def Desc.shSwz (d : Desc) : Bool := d.getLsbD 327
def Desc.shRank (d : Desc) : Nat := d.fld 328 3
def Desc.shScnt (d : Desc) : Nat := d.fld 352 32
def Desc.shFill (d : Desc) : Nat := d.fld 384 32
/-- The size of a dimension; 1 at or beyond RANK. -/
def Desc.dim (d : Desc) (k : Nat) : Nat := if k < d.shRank then d.shDim k else 1

/-- Bits of an element of a format (10 R260). -/
def fmtBits (f : Nat) : Nat :=
  match f with
  | 12 => 1
  | 0 | 9 => 4
  | 1 | 2 => 6
  | 3 | 4 | 10 | 11 => 8
  | 5 | 6 => 16
  | 7 => 32
  | _ => 64
/-- MX blocks per line and bytes of a block (01 R38). -/
def mxPerLine (f : Nat) : Nat := if f = 0 then 8 else if f ≤ 2 then 5 else 4
def mxBlock (f : Nat) : Nat := 4 * fmtBits f

/-- The limits of R260 on an image. -/
def shapeOk (d : Desc) : Bool :=
  let mx := d.shMx
  canonical d.shBase && d.shBase % (if mx then 128 else 16) = 0 && 1 ≤ d.shRank && d.shRank ≤ 5
    && ((List.range 5).all fun k =>
      if k < d.shRank then d.shDim k ≠ 0 && (k = 0 || !mx || d.shStride k % 8 = 0)
      else d.shDim k = 0 && d.shStride k = 0)
    && d.shFmt ≤ 12 && (!mx || d.shFmt ≤ 4) && d.shEdge ≤ 1 && (!mx || d.shEdge = 0) && !(mx && d.shSwz)
    && d.fld 331 21 = 0 && (mx || d.shScnt = 0) && d.fld 416 64 = 0 && d.fld 480 20 = 0 && d.fld 500 12 = 0

/-- The slot a current handle names (10 R259). -/
def Context.shape (x : Context) (slot : Nat) : Shape := x.shapes.get Shape.empty slot
def current (x : Context) (h : Word) : Option Shape :=
  let sh := x.shape (h.toNat % 4096)
  if sh.valid && sh.gen = h.extractLsb' 12 20 then some sh else none
/-- The next generation, skipping 0. -/
def nextGen (g : BitVec 20) : BitVec 20 := if g + 1 = 0 then 1 else g + 1

def staleTrap (s : State) (h : Word) : Trap := wordTrap s causeHandleStale h

def execShset (p : Bool) (d a b : BitVec 7) (s : State) : Result :=
  issue s p ⟨false, noEntry, anywhere, [.sd d 1, .ss a 2, .ss b 1]⟩ fun u w blk =>
    let va := (w.rdS64 a).toNat
    let n := (w.rdS b).toNat
    if 4095 < n then .trap (illegal s 6)
    else if inWindow va then .trap (gateMisuse s (if (s.ctxD blk).nv ≤ windowVd va then 2 else 1))
    else if va % 16 ≠ 0 then .trap (misalignTrap va false 0)
    else if s.globalStores w || s.acquiring w false then .stall
    else match homeRead s u w blk va 64 with
      | .wait s1 => .done s1
      | .err c addr => .done (s.setWave u (w.answeredErr c addr))
      | .ok l =>
        let img : Desc := BitVec.ofNat 512 (leNat l)
        match s.recordLoad u blk va 64 with
        | none => .done (s.setWave u (w.answeredErr causeConflict va))
        | some s1 =>
        if !shapeOk img then .trap (illegal s 7)
        else
          let gen := nextGen ((s.ctxD blk).shape n).gen
          let slot : Shape := ⟨true, gen, img ||| (gen.setWidth 512 <<< 480)⟩
          .done ((s1.setWave u (w.answered.wrS d (gen.setWidth 32 <<< 12 ||| BitVec.ofNat 32 n))).onCtx blk.ctx fun x =>
            { x with shapes := x.shapes.put Shape.empty n slot })

def execShdrop (p : Bool) (a : BitVec 7) (s : State) : Result :=
  issue s p ⟨false, noEntry, anywhere, [.ss a 1]⟩ fun u w blk =>
    let h := w.rdS a
    match current (s.ctxD blk) h with
    | none => .done (s.setWave u w.next)
    | some sh => .done ((s.setWave u w.next).onCtx blk.ctx fun x =>
        { x with shapes := x.shapes.put Shape.empty (h.toNat % 4096) { sh with valid := false, gen := nextGen sh.gen } })

def execShqry (p : Bool) (d a b : BitVec 7) (s : State) : Result :=
  issue s p ⟨false, noEntry, anywhere, [.sd d 1, .ss a 1, .ss b 1]⟩ fun u w blk =>
    match current (s.ctxD blk) (w.rdS a) with
    | none => .trap (staleTrap s (w.rdS a))
    | some sh =>
      let i := (w.rdS b).toNat
      if 15 < i then .trap (illegal s 6) else .done (s.setWave u (w.wrS d (sh.img.extractLsb' (32 * i) 32)).next)

/-! ## The image of a box (10 R264, R265) -/

def CopyDesc.boxk (c : CopyDesc) (k : Nat) : Nat := c.box.getD k 1
def CopyDesc.orgk (c : CopyDesc) (k : Nat) : Nat := c.org.getD k 0
def CopyDesc.esize (c : CopyDesc) : Nat := fmtBits c.shape.shFmt
def CopyDesc.mx (c : CopyDesc) : Bool := c.shape.shMx
/-- Rows of the box. -/
def CopyDesc.rows (c : CopyDesc) : Nat := c.boxk 1 * c.boxk 2 * c.boxk 3 * c.boxk 4
/-- Bytes of an image row. -/
def CopyDesc.rowBytes (c : CopyDesc) : Nat :=
  if c.mx then 128 * ((c.boxk 0 + 32 * mxPerLine c.shape.shFmt - 1) / (32 * mxPerLine c.shape.shFmt))
  else 16 * ((c.boxk 0 * c.esize + 127) / 128)
def CopyDesc.footprint (c : CopyDesc) : Nat := c.rows * c.rowBytes
/-- The coordinate of row j in dimension k ≥ 1; dimension 1 is fastest. -/
def CopyDesc.coord (c : CopyDesc) (j k : Nat) : Nat :=
  let below := (List.range (k - 1)).foldl (fun n i => n * c.boxk (i + 1)) 1
  c.orgk k + j / below % c.boxk k
/-- Whether a row lies inside dimensions 1 to 4. -/
def CopyDesc.inside (c : CopyDesc) (j : Nat) : Bool := [1, 2, 3, 4].all fun k => c.coord j k < c.shape.dim k
/-- The global address of coordinate 0 of dimension 0 in row j. -/
def CopyDesc.rowAddr (c : CopyDesc) (j : Nat) : Nat :=
  (c.shape.shBase + 16 * (([1, 2, 3, 4].map fun k => c.shape.shStride k * c.coord j k).foldl (· + ·) 0)) % 2 ^ 64
/-- Elements of row j inside the edges, from the origin on. -/
def CopyDesc.nin (c : CopyDesc) (j : Nat) : Nat :=
  if c.inside j then min (c.boxk 0) (c.shape.dim 0 - c.orgk 0) else 0
/-- Where an MX = 0 row starts in memory. -/
def CopyDesc.start (c : CopyDesc) (j : Nat) : Nat := (c.rowAddr j + c.orgk 0 * c.esize / 8) % 2 ^ 64
/-- Line q of an MX row in memory. -/
def CopyDesc.line (c : CopyDesc) (j q : Nat) : Nat :=
  (c.rowAddr j + 128 * (c.orgk 0 / (32 * mxPerLine c.shape.shFmt) + q)) % 2 ^ 64
/-- Elements of block slot `slot` of line q of row j that lie inside the box and the edges. -/
def CopyDesc.blockIn (c : CopyDesc) (j q slot : Nat) : Nat :=
  let bi := q * mxPerLine c.shape.shFmt + slot
  if slot < mxPerLine c.shape.shFmt && 32 * bi < c.boxk 0 && c.inside j then
    min 32 (c.shape.dim 0 - (c.orgk 0 + 32 * bi)) else 0

/-- A byte with the bits at or above `n` replaced by those of `fill`. -/
def mixByte (n : Nat) (b fill : Nat) : Byte := BitVec.ofNat 8 (if 8 ≤ n then b else b % 2 ^ n + fill / 2 ^ n % 2 ^ (8 - n) * 2 ^ n)
/-- The fill byte at byte t of a row of `bits` bits: each element the low bits of the pattern, then zero padding
(DEDUCED: log entry 38). -/
def fillByte (pattern esize bits t : Nat) : Nat :=
  ((List.range 8).map fun v =>
    let u := 8 * t + v
    if u < bits && pattern.testBit (u % esize) then 2 ^ v else 0).foldl (· + ·) 0
def CopyDesc.fill (c : CopyDesc) : Nat := if c.shape.shEdge = 1 then c.shape.shFill else 0

/-- Bytes t0 to t0 + n − 1 of an MX = 0 row: memory where an element is inside, fill beyond, zero padding. -/
def CopyDesc.plainRow (s : State) (x : Context) (denied : List Nat) (c : CopyDesc) (j nin t0 n : Nat) : List EByte :=
  let bits := nin * c.esize
  let need := (bits + 7) / 8
  let mem := if t0 < need then engineRead s x denied ((c.start j + t0) % 2 ^ 64) (min n (need - t0)) else []
  (List.range n).map fun i =>
    let t := t0 + i
    let f := fillByte c.fill c.esize (c.boxk 0 * c.esize) t
    if t < need then (mem.getD i none).map fun bp => (mixByte (bits - 8 * t) bp.1.toNat f, bp.2)
    else some (BitVec.ofNat 8 f, false)

/-- Bytes r0 to r0 + n − 1 of line q of an MX row (DEDUCED: log entry 38). -/
def CopyDesc.mxLine (s : State) (x : Context) (denied : List Nat) (c : CopyDesc) (j q r0 n : Nat) : List EByte :=
  let bs := mxBlock c.shape.shFmt
  (List.range n).map fun i =>
    let r := r0 + i
    let bits := c.blockIn j q (r / bs) * c.esize
    if 8 * (r % bs) < bits then
      ((engineRead s x denied ((c.line j q + r) % 2 ^ 64) 1).headD none).map fun bp =>
        (mixByte (bits - 8 * (r % bs)) bp.1.toNat 0, bp.2)
    else some (0, false)
/-- Sideband byte i of line q of an MX row (DEDUCED: log entry 38). -/
def CopyDesc.mxSide (s : State) (x : Context) (denied : List Nat) (c : CopyDesc) (j q i : Nat) : EByte :=
  if mxPerLine c.shape.shFmt ≤ i || c.boxk 0 ≤ 32 * (q * mxPerLine c.shape.shFmt + i) then some (0, false)
  else if c.blockIn j q i = 0 then some (0x7F, false)
  else engineSide s x denied (c.line j q) i

/-- Bytes y to y + n − 1 of the image, n lying within one row of MX = 0 or one line of MX = 1. -/
def CopyDesc.image (s : State) (x : Context) (denied : List Nat) (c : CopyDesc) (y n : Nat) : List EByte :=
  let j := y / c.rowBytes
  let t := y % c.rowBytes
  if c.mx then c.mxLine s x denied j (t / 128) (t % 128) n else c.plainRow s x denied j (c.nin j) t n

/-- The memory ranges that bytes y to y + 15 of the image come from. -/
def CopyDesc.ranges (c : CopyDesc) (y : Nat) : List (Nat × Nat) :=
  let j := y / c.rowBytes
  let t := y % c.rowBytes
  if c.mx then
    if (List.range 16).any fun i =>
        8 * ((t % 128 + i) % mxBlock c.shape.shFmt) < c.blockIn j (t / 128) ((t % 128 + i) / mxBlock c.shape.shFmt) * c.esize
    then [(c.line j (t / 128), 128)] else []
  else
    let need := (c.nin j * c.esize + 7) / 8
    if t < need then [((c.start j + t) % 2 ^ 64, min 16 (need - t))] else []

/-- Where the 16-byte chunk at image offset y lies in scratch (10 R264). -/
def CopyDesc.place (c : CopyDesc) (y : Nat) : Nat :=
  let p := c.off + y
  if c.shape.shSwz then
    let l := p / 128 - c.off / 128
    p / 128 * 128 + 16 * ((p % 128 / 16) ^^^ (l % 8)) + p % 16
  else p

/-- The scratch lines of a footprint. -/
def CopyDesc.lines (c : CopyDesc) : List Nat := linesOf c.off c.footprint
/-- The image offsets of the chunks in a scratch line. -/
def CopyDesc.chunksIn (c : CopyDesc) (line : Nat) : List Nat :=
  let lo := max (128 * line) c.off
  let hi := min (128 * line + 128) (c.off + c.footprint)
  (List.range ((hi - lo) / 16)).map fun i => lo - c.off + 16 * i

/-! ## TCPY, TCPYS and TCPYV at issue -/

/-- The descriptor block as read (10 R262). -/
def copyDescOf (w : Wave) (a : BitVec 7) (shape : Desc) (block off : Nat) : CopyDesc :=
  let r (k : Nat) : Nat := (w.rdSk a k).toNat
  { shape := shape, block := block, off := off
    org := [r 2, r 3, r 4, r 5 % 65536, r 5 / 65536]
    box := [r 6 % 65536, r 6 / 65536, r 7 % 256 + 1, r 7 / 256 % 256 + 1, r 7 / 65536 % 256 + 1] }

/-- Checks 2 to 4 of R263. -/
def checkBox (s : State) (w : Wave) (a : BitVec 7) (c : CopyDesc) : Option Trap :=
  let bpl := mxPerLine c.shape.shFmt
  if (w.rdSk a 7).toNat / 2 ^ 24 ≠ 0 || ((List.range 5).any fun k => c.shape.shRank ≤ k && c.boxk k ≠ 1)
      || c.orgk 0 * c.esize % 8 ≠ 0 || c.boxk 0 * c.esize % 8 ≠ 0
      || (c.mx && (c.orgk 0 % (32 * bpl) ≠ 0 || c.boxk 0 % 32 ≠ 0)) then some (illegal s 6)
  else if 65536 < c.footprint then some (illegal s 6)
  else if c.mx && c.shape.shScnt ≠ (c.shape.dim 0 + 31) / 32 then
    some (wordTrap s causeScaleCount (BitVec.ofNat 32 c.shape.shScnt))
  else none

/-- Copies that hold an entry of a logical cluster's queue of 256 (10 R262). -/
def tensorQueue (s : State) (core : Nat) : Nat :=
  (s.ops.filter fun o => o.core / 4 = core / 4 && match o.kind with
    | .tcpy .. | .tcpys .. | .tcpyv .. => true
    | _ => false).length
def tensorQueueMax : Nat := 256

/-- A scratch address that must exist. -/
def mustExist (s : State) (b : Block) (addr size : Nat) : Except Trap (Nat × Nat) :=
  match scratchTarget s b addr size with
  | some t => .ok t
  | none => .error (scratchTrap addr 0)

/-- What a TCPY or TCPYS does, once checked: the copy, its object (block, offset, address) and its completion word. -/
structure CopyReq where
  c : CopyDesc
  obj : Option (Nat × Nat × Nat)
  word : Option (Nat × Nat × Word)

/-- The checks of R263. -/
def checkCopyReq (s : State) (w : Wave) (b : Block) (d a bf : BitVec 7) : Except Trap CopyReq :=
  match current (s.ctxD b) (w.rdS a) with
  | none => .error (staleTrap s (w.rdS a))
  | some sh =>
    let saddr := (w.rdSk a 1).toNat
    let obj := (w.rdS d).toNat
    let word := (w.rdS bf).toNat
    let c0 := copyDescOf w a sh.img b.uid 0
    match checkBox s w a c0 with
    | some t => .error t
    | none =>
      if saddr % (if c0.mx then 128 else 16) ≠ 0 then .error (misalignTrap saddr true 0)
      else if d ≠ 0 && obj % 16 ≠ 0 then .error (misalignTrap obj true 0)
      else if bf ≠ 0 && word % 4 ≠ 0 then .error (misalignTrap word true 0)
      else
        match (if c0.footprint = 0 then .ok (b.uid, 0) else mustExist s b saddr c0.footprint) with
        | .error t => .error t
        | .ok t =>
          match (if d = 0 then .ok none else (mustExist s b obj 16).map some) with
          | .error e => .error e
          | .ok o =>
            match (if bf = 0 then .ok none else (mustExist s b word 4).map some) with
            | .error e => .error e
            | .ok v =>
              .ok ⟨{ c0 with block := t.1, off := t.2 }, o.map fun k => (k.1, k.2, obj), v.map fun k => (k.1, k.2, w.rdSk bf 1)⟩

/-- The register operands of TCPY and TCPYS. -/
def copyOpnds (d a b : BitVec 7) : List Opnd :=
  [.ss d 1, .ss a 8, .ss b (if b = 0 then 1 else 2)]

def execTcpy (p : Bool) (d a b : BitVec 7) (s : State) : Result :=
  issue s p ⟨false, noEntry, anywhere, copyOpnds d a b⟩ fun u w blk =>
    match checkCopyReq s w blk d a b with
    | .error t => .trap t
    | .ok r =>
      let ls := r.c.lines.map fun l => (r.c.block, l)
      if s.globalStores w || s.acquiring w true || tensorQueueMax ≤ tensorQueue s (unitCore u) then .stall
      else match s.countLines ls with
        | none => .stall
        | some s1 => .done ((s1.setWave u w.next).addOp u w blk (.tcpy r.c r.obj r.word))

/-- The requests of a copy at global memory, each with a number: a row, or a line of an MX row. -/
def CopyDesc.requests (c : CopyDesc) : List (Nat × Nat × Nat) :=
  (List.range c.rows).flatMap fun j =>
    if c.mx then (List.range (c.rowBytes / 128)).filterMap fun q =>
      if c.blockIn j q 0 = 0 then none else some (j * (c.rowBytes / 128) + q, c.line j q, 128)
    else if c.nin j = 0 then [] else [(j, c.start j, (c.nin j * c.esize + 7) / 8)]
/-- The global ranges a TCPYS writes. -/
def CopyDesc.dests (c : CopyDesc) : List (Nat × Nat) := c.requests.map (·.2)

def execTcpys (p : Bool) (d a b : BitVec 7) (s : State) : Result :=
  issue s p ⟨false, noEntry, anywhere, copyOpnds d a b⟩ fun u w blk =>
    match checkCopyReq s w blk d a b with
    | .error t => .trap t
    | .ok r =>
      if s.globalStores w || s.acquiring w true || tensorQueueMax ≤ tensorQueue s (unitCore u) then .stall
      else
        let x := s.ctxD blk
        .done ((s.setWave u w.next).addEngineOp u w blk (pendLines s x none false r.c.dests).eraseDups
          (.tcpys r.c r.obj r.word x.regions none))

/-- TCPYV's own checks, made after those of R263 (10 R268): it runs where registers may be delivered to; the forerunner is
turned away before any operand is looked at (06 R173) (DEDUCED: log entry 10). -/
def checkDirect (s : State) (w : Wave) (b : Block) (d : BitVec 7) (c : CopyDesc) : Option Trap :=
  let n := c.boxk 0 * c.esize
  if w.cpt || !b.rdir then some (illegal s 4)
  else if d.toNat % 8 ≠ 0 || w.width < c.boxk 1 || c.boxk 2 ≠ 1 || c.boxk 3 ≠ 1 || c.boxk 4 ≠ 1 || n % 32 ≠ 0 || 1024 < n then
    some (illegal s 6)
  else none

/-- The keys of the lanes' parts of a register run. -/
def runElems (w : Wave) (first count : Nat) : List Elem :=
  (List.range count).flatMap fun r => (List.range w.count).flatMap fun p =>
    [.v (laneKey (first + r) p), .e (laneKey (first + r) p)]

def execTcpyv (p : Bool) (d a : BitVec 7) (s : State) : Result :=
  issue s p ⟨false, noEntry, notFore, [.vd d 1, .ss a 8]⟩ fun u w blk =>
    let x := s.ctxD blk
    match current x (w.rdS a) with
    | none => .trap (staleTrap s (w.rdS a))
    | some sh =>
      let c := copyDescOf w a sh.img blk.uid 0
      let obj := (w.rdSk a 1).toNat
      match checkBox s w a c with
      | some t => .trap t
      | none =>
        if obj % 16 ≠ 0 then .trap (misalignTrap obj true 0)
        else match mustExist s blk obj 16 with
          | .error t => .trap t
          | .ok t =>
            let R := c.boxk 0 * c.esize / 32
            match checkDirect s w blk d c with
            | some t => .trap t
            | none => match Opnd.window w blk (.vd d R) with
              | some rs => .trap (windowTrap s rs.1 rs.2)
              | none =>
                if (Opnd.vd d R).busy w || s.globalStores w || s.acquiring w true || tensorQueueMax ≤ tensorQueue s (unitCore u) then .stall
                else
                  let w1 := (runElems w (w.phys d 0) R).foldl Wave.kill w
                  let w2 := { w1 with regs := { w1.regs with
                    vBusy := w1.regs.vBusy ++ (List.range R).map fun k => (s.fresh, w.phys d k) } }
                  .done ((s.setWave u w2.next).addOp u w blk (.tcpyv c (t.1, t.2, obj) (w.phys d 0) R))

/-! ## Bulk copies as they are performed -/

/-- Marks in an operation's note that an error has been reported (10 R267: one for a command). -/
def noteErr : Nat := 2 ^ 40
/-- Reports the first error of a command (DEDUCED: log entry 19). -/
def State.noteFail (s : State) (o : Op) (bad : Option Nat) : State × List Nat :=
  match bad with
  | some a => if o.note.contains noteErr then (s, o.note) else (s.deferAt o causePage a, noteErr :: o.note)
  | none => (s, o.note)

/-- The first address of some ranges that cannot be read. -/
def rangesFail (s : State) (x : Context) (denied : List Nat) (rs : List (Nat × Nat)) : Option Nat :=
  rs.findSome? fun r => readFail s x denied r.1 r.2

/-- A sideband byte that a copy lands; one read poisoned poisons the granule it goes with (10 R267). -/
def State.landSide (s : State) (uid line i : Nat) (v : Byte) (p : Bool) : State :=
  (s.writeScratchSide uid line i v).onBlock uid fun b =>
    if p && !b.sidePoisoned line then { b with scrPoison := 8 * line :: b.scrPoison } else b
/-- One scratch line of a TCPY lands, or its request alone waits for a page (10 R265, R267; 12 R309). -/
def landTcpy (s : State) (o : Op) (c : CopyDesc) (line : Nat) : State :=
  match s.ctx o.ctx with
  | none => s.dropOp o.id
  | some x =>
    if !c.lines.contains line || o.note.contains line || o.lineWaits line then s
    else
      let ys := c.chunksIn line
      let rs := (ys.flatMap c.ranges).eraseDups
      match firstFault s x o.denied true false rs with
      | some (va, p) => s.parkLine o line 2 va false p
      | none =>
        let live := match s.block c.block with
          | some b => !b.freed
          | none => false
        let s0 := s.refreshTlb o.core x o.denied false rs
        let s1 := if !live then s0 else ys.foldl (fun st y => st.writeScratchSome c.block (c.place y) (c.image s x o.denied y 16)) s0
        let t := (128 * line - c.off)
        let sides := if c.mx then (List.range 8).map fun i =>
          c.mxSide s x o.denied (t / c.rowBytes) (t % c.rowBytes / 128) i else []
        let s2 := if !live then s1 else (sides.zip (List.range 8)).foldl (fun st bi => match bi.1 with
          | some (b, p) => st.landSide c.block line bi.2 b p
          | none => st) s1
        let bad := match rangesFail s x o.denied rs with
          | some a => some a
          | none => if sides.all Option.isSome then none else some (c.line (t / c.rowBytes) (t % c.rowBytes / 128))
        let (s3, note) := s2.noteFail o bad
        (s3.setOp { o with note := line :: note }).landLine c.block line

/-- A completion word; a block whose scratch is free receives none (10 R255). -/
def State.writeWord (s : State) (word : Option (Nat × Nat × Word)) : State :=
  match word with
  | some (uid, off, v) => match s.block uid with
    | some b => if b.freed then s else s.writeScratch uid off (leBytes 4 v.toNat) false
    | none => s
  | none => s
def State.creditObj (s : State) (o : Op) (obj : Option (Nat × Nat × Nat)) (n : Nat) : State :=
  match obj with
  | some (uid, off, addr) => s.credit o uid off addr n
  | none => s

/-- COPY_WRITE_LANDS: of an ACP, by rank and line, or of a TCPY. -/
def execCopyWriteLands (op line : Nat) (s : State) : Result :=
  match s.op op with
  | some o => match o.kind with
    | .acp lanes size => if inOrder s o then .next (landAcp s o lanes size line).changed else .next s
    | .tcpy c _ _ => if inOrder s o then .next (landTcpy s o c line).changed else .next s
    | _ => .next s
  | none => .next s

/-- TCPY's completion: every line has landed; the credit, then the completion word (10 R265). -/
def execTcpyComplete (op : Nat) (s : State) : Result :=
  match s.op op with
  | some o => match o.kind with
    | .tcpy c obj word =>
      if c.lines.all o.note.contains then
        .next (((s.dropOp op).creditObj o obj c.footprint).writeWord word).changed
      else .next s
    | _ => .next s
  | none => .next s

/-- The source words of a TCPYS: the image, then for MX two words of scales of each line. -/
def CopyDesc.words (c : CopyDesc) : List SrcWord :=
  ((List.range (c.footprint / 4)).map fun k => ⟨c.block, c.place (16 * (k / 4)) + 4 * (k % 4), false⟩) ++
    if c.mx then c.lines.flatMap fun l => [⟨c.block, 8 * l, true⟩, ⟨c.block, 8 * l + 4, true⟩] else []

/-- TCPYS's source release (10 R266): every source word left is read whose line is full, and once all have been the object is
credited. -/
def releaseTcpys (s : State) (o : Op) (c : CopyDesc) (obj : Option (Nat × Nat × Nat)) (word : Option (Nat × Nat × Word))
    (regions : SMap Region) : State :=
  let got := readWords s o.got c.words fun _ => true
  if got.length < c.words.length then s.setOp { o with got := got }
  else
    let n := c.footprint / 4
    let bytes := wordsBytes ((got.take n).map (·.2))
    let sides := wordsBytes ((got.drop n).map (·.2))
    let bad := (got.filter fun kv => kv.2.2).map fun kv =>
      if kv.1 < n then 16 * (kv.1 / 4) else 128 * ((kv.1 - n) / 2)
    let s1 := s.setOp { o with got := [], kind := .tcpys c obj word regions (some (bytes, sides, bad.eraseDups)) }
    (s1.creditObj o obj c.footprint).checkBlock c.block

/-- The source words that a copy out of scratch has still to read before its release. -/
def OpKind.sources : OpKind → List SrcWord
  | .acps lanes size _ _ _ _ none => acpsWords lanes size
  | .tcpys c _ _ _ none => c.words
  | _ => []
/-- One source word is read, if its line is full: each is read for itself at some time before the release, so that a byte
written before that is copied as its old or its new value (07 R204; 10 R266). -/
def State.sourceRead (s : State) (op word : Nat) : State :=
  match s.op op with
  | some o =>
    if inOrder s o && decide (word < o.kind.sources.length) then
      (s.setOp { o with got := readWords s o.got o.kind.sources fun n => decide (n = word) }).changed
    else s
  | none => s

def execTcpysSourceRelease (op : Nat) (s : State) : Result :=
  match s.op op with
  | some o => match o.kind with
    | .tcpys c obj word regions .none =>
      if inOrder s o then .next (releaseTcpys s o c obj word regions).changed else .next s
    | _ => .next s
  | none => .next s

/-- An indivisible write of the low n bits of a byte by an engine (10 R266). -/
def EngW.bits (w : EngW) (c : Nat) (snap : SMap Region) (unit : Option Nat) (denied : List Nat) (va n : Nat) (v : Byte)
    (p : Bool) : EngW :=
  match w.s.ctx c with
  | none => w
  | some x =>
    match via w.s x denied va false true with
    | .ok e =>
      let old := Memory.byte w.s.mem (enginePhys { x with regions := snap } e va none)
      w.write c snap none false unit denied va [some (mixByte n v.toNat old.toNat, p)]
    | _ => w.fail va

/-- A run of `bits` bits written from image bytes. -/
def EngW.run (w : EngW) (c : Nat) (snap : SMap Region) (unit : Option Nat) (denied : List Nat) (va bits : Nat)
    (l : List (Byte × Bool)) : EngW :=
  let full := bits / 8
  let w1 := if full = 0 then w else w.write c snap none false unit denied va ((l.take full).map some)
  if bits % 8 = 0 then w1
  else match l[full]? with
    | some (b, p) => w1.bits c snap unit denied (va + full) (bits % 8) b p
    | none => w1

/-- TCPYS's global writes (10 R266), those of the requests `good`. A line's unused bytes and sideband bytes are written as
zero (01 R39). -/
def CopyDesc.writeOut (c : CopyDesc) (o : Op) (snap : SMap Region) (bytes sides : List Byte) (bad good : List Nat) (w0 : EngW) :
    EngW :=
  let img (y n : Nat) : List (Byte × Bool) :=
    (List.range n).map fun i => (bytes.getD (y + i) 0, bad.contains ((y + i) / 16 * 16))
  (List.range c.rows).foldl (fun w j =>
    if !c.mx then
      if c.nin j = 0 || !good.contains j then w
      else w.run o.ctx snap (some o.unit) o.denied (c.start j) (c.nin j * c.esize) (img (j * c.rowBytes) c.rowBytes)
    else
      (List.range (c.rowBytes / 128)).foldl (fun w q =>
        let per := mxPerLine c.shape.shFmt
        if !good.contains (j * (c.rowBytes / 128) + q) then w else
        let used := per * mxBlock c.shape.shFmt
        let w0 := if used = 128 then w
          else w.write o.ctx snap none false (some o.unit) o.denied (c.line j q + used) (List.replicate (128 - used) (some (0, false)))
        let w1 := (List.range (8 - per)).foldl (fun w i =>
          w.side o.ctx snap none (some o.unit) o.denied (c.line j q) (per + i) (some (0, false))) w0
        (List.range per).foldl (fun w slot =>
          let n := c.blockIn j q slot
          let bs := mxBlock c.shape.shFmt
          if n = 0 then w
          else
            let w1 := w.run o.ctx snap (some o.unit) o.denied (c.line j q + slot * bs) (n * c.esize)
              (img (j * c.rowBytes + 128 * q + slot * bs) bs)
            w1.side o.ctx snap none (some o.unit) o.denied (c.line j q) slot
              (some (sides.getD (8 * (j * (c.rowBytes / 128) + q) + slot) 0, bad.contains (j * c.rowBytes + 128 * q)))) w1) w) w0

/-- TCPYS: its writes, a request that meets a replayable fault waiting alone, then, once all are complete, its completion
word (10 R266, R267; 12 R312). -/
def completeTcpys (s : State) (o : Op) (c : CopyDesc) (word : Option (Nat × Nat × Word)) (regions : SMap Region)
    (bytes sides : List Byte) (bad : List Nat) : State :=
  match s.ctx o.ctx, o.horizon with
  | none, _ => s.dropOp o.id
  | some _, some t => if t ≤ s.pt then (s.dropOp o.id).writeWord word else s
  | some x, none =>
    let todo := c.requests.filter fun r => !o.note.contains r.1
    let (good, faults) := splitFaults s x o true (todo.map fun r => (r.1, [r.2]))
    let w := c.writeOut o regions bytes sides bad good (EngW.start s)
    let rest := todo.filter fun r => !good.contains r.1
    let reached := max o.reached w.horizon
    let (s1, o1) := ((w.s.deferWrites o w).joinRhz o.owner o.ctx o.key w.horizon).keepPend o x (rest.map (·.2))
    if !rest.isEmpty then (s1.setOp { o1 with note := good ++ o.note, reached := reached }).parkLines o.id true faults
    else if reached ≤ s1.pt then (s1.dropOp o.id).writeWord word
    else s1.setOp { o1 with horizon := some reached }

def execTcpysComplete (op : Nat) (s : State) : Result :=
  match s.op op with
  | some o => match o.kind with
    | .tcpys c _ word regions (some (bytes, sides, bad)) =>
      if o.parked.isNone then .next (completeTcpys s o c word regions bytes sides bad).changed else .next s
    | _ => .next s
  | none => .next s

/-- The bytes of lane p of a TCPYV: row p, its MX blocks one after another, or fill (10 R268). -/
def CopyDesc.laneBytes (s : State) (x : Context) (denied : List Nat) (c : CopyDesc) (p : Nat) : List EByte :=
  let nin := if p < c.boxk 1 then c.nin p else 0
  if !c.mx then c.plainRow s x denied p nin 0 (c.boxk 0 * c.esize / 8)
  else
    let bpl := mxPerLine c.shape.shFmt
    let bs := mxBlock c.shape.shFmt
    (List.range (c.boxk 0 / 32)).flatMap fun bi =>
      if p < c.boxk 1 then c.mxLine s x denied p (bi / bpl) (bi % bpl * bs) bs else List.replicate bs (some (0, false))
/-- The scale of block bi of lane p. -/
def CopyDesc.laneScale (s : State) (x : Context) (denied : List Nat) (c : CopyDesc) (p bi : Nat) : EByte :=
  let bpl := mxPerLine c.shape.shFmt
  if !c.mx || c.boxk 1 ≤ p then some (0x7F, false) else c.mxSide s x denied p (bi / bpl) (bi % bpl)

/-- A word with the bytes that could be read, and whether it is now poisoned: one is, or it was and keeps a byte. -/
def patchWord (old : Word) (was : Bool) (l : List EByte) : Word × Bool :=
  (BitVec.ofNat 32 (leNat (((leBytes 4 old.toNat).zip l).map fun b => b.2.elim b.1 (·.1))),
    (was && l.any Option.isNone) || l.any fun b => match b with
      | some (_, p) => p
      | none => false)

/-- A word from four bytes that could be read, and whether one is poisoned. -/
def wordOf (l : List EByte) : Option (Word × Bool) :=
  if l.all Option.isSome then
    some (BitVec.ofNat 32 (leNat (l.filterMap fun b => b.map (·.1))), l.any fun b => match b with
      | some (_, p) => p
      | none => false)
  else none

/-- The write of one lane's registers by a TCPYV. -/
def deliverLane (s : State) (x : Context) (denied : List Nat) (c : CopyDesc) (base count p : Nat) (w : Wave) : Wave :=
  let bytes := c.laneBytes s x denied p
  (List.range count).foldl (fun w r =>
    let key := laneKey (base + r) p
    let part := (bytes.drop (4 * r)).take 4
    let w1 :=
      if part.all Option.isNone then w
      else
        let (v, bad) := patchWord (w.regs.v.get 0 key) (w.regs.vPoison.contains key) part
        let w' := w.storeV key v
        if bad then { w' with regs := { w'.regs with vPoison := key :: w'.regs.vPoison } } else w'
    match c.laneScale s x denied p (4 * r / mxBlock c.shape.shFmt) with
    | some (e, bad) =>
      let w2 := w1.storeE key e
      if bad then { w2 with regs := { w2.regs with ePoison := key :: w2.regs.ePoison } } else w2
    | none => w1) w

/-- The requests of row j of a copy. -/
def CopyDesc.rowRequests (c : CopyDesc) (j : Nat) : List (Nat × Nat × Nat) :=
  let per := if c.mx then c.rowBytes / 128 else 1
  c.requests.filter fun r => r.1 / per = j

/-- TCPYV's delivery (10 R268, R269): the lanes whose rows can be read are written, a request that meets a replayable fault
waits alone (R267), and once every lane has been written the registers are there and the object is credited. -/
def deliverTcpyv (s : State) (o : Op) (c : CopyDesc) (obj : Nat × Nat × Nat) (base count : Nat) : State :=
  match s.ctx o.ctx, s.findOwner o.owner with
  | some x, some w =>
    let todo := (List.range w.count).filter fun p => !o.note.contains p
    let (good, bad) := splitFaults s x o false ((todo.flatMap c.rowRequests).map fun r => (r.1, [r.2]))
    let now := todo.filter fun p => (c.rowRequests p).all fun r => good.contains r.1
    let ranges := (now.flatMap c.rowRequests).map (·.2)
    let w1 := now.foldl (fun w p => deliverLane s x o.denied c base count p w) w
    let done := decide (now.length = todo.length)
    let w2 := if done then { w1 with regs := { w1.regs with vBusy := w1.regs.vBusy.filter fun r => r.1 ≠ o.id } } else w1
    let s1 := (s.refreshTlb o.core x o.denied false ranges).onWave w.uid fun _ => w2
    let (s2, note) := s1.noteFail o (rangesFail s x o.denied ranges)
    if done then (s2.dropOp o.id).credit o obj.1 obj.2.1 obj.2.2 (4 * count * w.width)
    else (s2.setOp { o with note := now ++ note }).parkLines o.id false bad
  | _, _ => s.dropOp o.id

def execTcpyvDelivery (op : Nat) (s : State) : Result :=
  match s.op op with
  | some o => match o.kind with
    | .tcpyv c obj base count =>
      if o.parked.isNone && inOrder s o then .next (deliverTcpyv s o c obj base count).changed else .next s
    | _ => .next s
  | none => .next s

end Sys2Proof.Machine
end

