-- ==== Sys2Proof/Machine/Matrix.lean ====
section
/-!
DEFINITION. The matrix engine (08 R222 to R250; 01 R35 to R44): ownership, the mode word, MMA and MLOOP at issue, the
arithmetic of a K-step, drains and tile writes, and the engine's own steps.
-/
namespace Sys2Proof.Machine

/-! ## The mode word (08 R229, R230) -/

def MatMode.fld (m : MatMode) (lo n : Nat) : Nat := (m.word.extractLsb' lo n).toNat
def MatMode.afmt (m : MatMode) : Nat := m.fld 0 4
def MatMode.bfmt (m : MatMode) : Nat := m.fld 4 4
def MatMode.semi (m : MatMode) : Nat := m.fld 8 3
/-- The group size of gi4 and gi8. -/
def MatMode.group (m : MatMode) : Nat := 32 * 2 ^ m.fld 11 2
def MatMode.zpen (m : MatMode) : Bool := m.word.getLsbD 13
/-- The Hadamard divisor as a power of two. -/
def MatMode.hshift (m : MatMode) : Nat := match m.fld 14 2 with
  | 0 => 0
  | k => 3 + k
def MatMode.acc (m : MatMode) : Nat := m.fld 18 2

def isMx (f : Nat) : Bool := f ≤ 4
def isGi (f : Nat) : Bool := f = 9 || f = 10

/-- The table of legal combinations. -/
def comboOk (a b semi acc : Nat) : Bool :=
  if isMx a && isMx b then semi = 0 && acc = 0
  else if isGi a && isGi b then semi = 0 && (acc = 0 || acc = 2)
  else a = b && match a with
    | 5 | 7 => semi ≤ 3 && acc = 0
    | 6 => semi = 0 && acc = 0
    | 8 => semi = 0 && acc = 1
    | 11 => semi = 0 && (acc = 0 || acc = 2)
    | 12 => (semi = 0 || semi = 4) && acc = 2
    | _ => false

/-- A legal mode word. -/
def MatMode.ok (m : MatMode) : Bool :=
  let gi := isGi m.afmt && isGi m.bfmt
  m.fld 20 12 = 0 && m.afmt ≤ 12 && m.bfmt ≤ 12 && m.semi ≤ 4 && m.acc ≤ 2 && m.fld 11 2 ≤ 2 && m.fld 14 2 ≤ 2
    && (m.fld 11 2 = 0 || isGi m.afmt || isGi m.bfmt)
    && (!m.zpen || gi)
    && (m.fld 14 2 = 0 || (m.acc = 0 && ((isMx m.afmt && isMx m.bfmt) || gi)))
    && (!m.word.getLsbD 16 || m.afmt = 0) && (!m.word.getLsbD 17 || m.bfmt = 0)
    && comboOk m.afmt m.bfmt m.semi m.acc

/-! ## K-step geometry (08 R232, R235) -/

/-- Bits of an element. -/
def matBits (f : Nat) : Nat :=
  match f with
  | 0 | 9 => 4
  | 1 | 2 => 6
  | 3 | 4 | 10 | 11 => 8
  | 5 | 6 => 16
  | 7 => 32
  | 8 => 64
  | _ => 1
def MatMode.stepK (m : MatMode) : Nat :=
  if isGi m.afmt then m.group else if m.afmt = 8 then 16 else if m.afmt = 12 then 256 else 32
/-- A registers of a step. -/
def MatMode.regsA (m : MatMode) : Nat := m.stepK * matBits m.afmt / 32
def alignedA (f base : Nat) : Bool :=
  match f with
  | 0 | 9 => base % 4 = 0
  | 1 | 2 => base % 2 = 0 && base ≤ 122
  | _ => base % 8 = 0
/-- What ASTEP must be a multiple of. -/
def unitA (f : Nat) : Nat :=
  match f with
  | 0 | 9 => 4
  | 1 | 2 => 2
  | _ => 8
/-- Sub-panels, bytes of a column in each, columns per line. -/
def MatMode.subs (m : MatMode) : Nat := if isGi m.bfmt then m.group / 32 else 1
def MatMode.colBytes (m : MatMode) : Nat := (if isGi m.bfmt then 32 else m.stepK) * matBits m.bfmt / 8
def MatMode.perLine (m : MatMode) : Nat := 128 / m.colBytes
/-- Bytes of the lines that hold a column below n. -/
def MatMode.panelBytes (m : MatMode) (n : Nat) : Nat := m.subs * 128 * ((n + m.perLine - 1) / m.perLine)
/-- The byte of column n in sub-panel q. -/
def MatMode.colOff (m : MatMode) (n q col : Nat) : Nat :=
  q * 128 * ((n + m.perLine - 1) / m.perLine) + col / m.perLine * 128 + col % m.perLine * m.colBytes

/-! ## Arithmetic (01 R40 to R44; 08 R237 to R239) -/

/-- Scale of an MX block, or a group table entry (01 R19). -/
inductive MatScale
  | none
  | e8m0 (c : Byte)
  | group (w : Word)

/-- The value of a floating element. -/
def matVal (f : Nat) (c8 : Bool) (cz : Byte) (c : Nat) : FVal :=
  match f with
  | 0 => if c8 then e2m1Val cz c else e2m1.decode c
  | 1 => e2m3.decode c
  | 2 => e3m2.decode c
  | 3 => e4m3.decode c
  | 4 => e5m2.decode c
  | 5 => bf16.decode c
  | 6 => f16.decode c
  | 7 => f32.decode c
  | _ => f64.decode c
def signedBits (n c : Nat) : Int := if 2 ^ (n - 1) ≤ c then (c : Int) - 2 ^ n else c

/-- q − z of a grouped element (01 R20). -/
def groupDiff (f : Nat) (zpen : Bool) (w : Word) (c : Nat) : Int :=
  let n := matBits f
  let read (x : Nat) : Int := if w.getLsbD 24 then signedBits n x else x
  read c - if zpen then read (w.toNat / 2 ^ 16 % 2 ^ n) else 0
/-- A group's scale; reserved bits make it NaN (01 R19). -/
def groupScaleVal (f : Nat) (w : Word) : FVal :=
  if w.toNat / 2 ^ 25 ≠ 0 || (f = 9 && w.toNat / 2 ^ 20 % 16 ≠ 0) then .nan false else bf16.decode (w.toNat % 2 ^ 16)

def ExSum.scale (x : ExSum) (k : Int) : ExSum :=
  match x with
  | .fin s e nz => .fin s (e + k) nz
  | x => x
/-- The exact sum of integer products. -/
def intSum (l : List (Int × Int)) : Int := l.foldl (fun t xy => t + xy.1 * xy.2) 0
def wrap32 (acc : Nat) (x : Int) : Nat := (BitVec.ofNat 32 acc + BitVec.ofInt 32 x).toNat

/-- A value times an integer: `none` is 0 × ∞. -/
def scaledInt (v : FVal) (k : Int) : FVal := (exactMul v (.fin (decide (k < 0)) k.natAbs 0)).getD (.nan false)

/-- The contribution of a group (01 R20, R40) (DEDUCED: log entry 13). -/
def groupSum (fa fb : Nat) (wa wb : Word) (h : Nat) (l : List (Int × Int)) : ExSum :=
  match groupScaleVal fa wa, groupScaleVal fb wb with
  | .fin na ma ea, .fin nb mb eb => .fin (intSum l * signedOf na ma * signedOf nb mb) (ea + eb - h) false
  | va, vb => if va.isNan || vb.isNan then .nan
    else ExSum.sum (l.map fun xy => (scaledInt va xy.1, scaledInt vb xy.2))

/-- Combine (08 R237) over the kv valid elements of a row and a column, given as bit streams. -/
def matCombine (m : MatMode) (kv acc x y : Nat) (sx sy : MatScale) : Nat :=
  let fa := m.afmt
  let fb := m.bfmt
  let ca (j : Nat) : Nat := unpackBits (matBits fa) x j
  let cb (j : Nat) : Nat := unpackBits (matBits fb) y j
  let va (j : Nat) : FVal := matVal fa (m.word.getLsbD 16) m.cza (ca j)
  let vb (j : Nat) : FVal := matVal fb (m.word.getLsbD 17) m.czb (cb j)
  let js := List.range kv
  let both := (js.filter fun j => ca j = 1 && cb j = 1).length
  let wide (f : Nat) (c : Nat) : Nat := if f = 5 then c * 2 ^ 16 else c
  match m.semi with
  | 0 =>
    if isMx fa then
      match sx, sy with
      | .e8m0 a, .e8m0 b =>
        if a = 0xFF || b = 0xFF then f32.nan
        else (accumulate f32 acc ((ExSum.sum (js.map fun j => (va j, vb j))).scale
          ((a.toNat : Int) + b.toNat - 254 - m.hshift))).code
      | _, _ => f32.nan
    else if isGi fa then
      match sx, sy with
      | .group a, .group b =>
        let l := js.map fun j => (groupDiff fa m.zpen a (ca j), groupDiff fb m.zpen b (cb j))
        if m.acc = 2 then wrap32 acc (intSum l) else (accumulate f32 acc (groupSum fa fb a b m.hshift l)).code
      | _, _ => acc
    else match fa with
      | 11 =>
        let t := intSum (js.map fun j => (signedBits 8 (ca j), signedBits 8 (cb j)))
        if m.acc = 2 then wrap32 acc t else (accumulate f32 acc (.fin t 0 false)).code
      | 7 => js.foldl (fun z j => (fpFma f32 .rne (ca j) (cb j) z 0).code) acc
      | 8 => js.foldl (fun z j => (fpFma f64 .rne (ca j) (cb j) z 0).code) acc
      | 12 => (acc + both) % 2 ^ 32
      | _ => (List.range ((kv + 7) / 8)).foldl (fun z g =>
          (accumulate f32 z (ExSum.sum ((js.filter fun j => j / 8 = g).map fun j => (va j, vb j)))).code) acc
  | 1 => js.foldl (fun z j => (fpMinMax f32 false z (fpAdd f32 .rne (wide fa (ca j)) (wide fb (cb j)) 0).code).code) acc
  | 2 => js.foldl (fun z j => (fpMinMax f32 true z (fpAdd f32 .rne (wide fa (ca j)) (wide fb (cb j)) 0).code).code) acc
  | 3 => js.foldl (fun z j => (fpMinMax f32 true z (fpMul f32 .rne (wide fa (ca j)) (wide fb (cb j)) 0).code).code) acc
  | _ => if acc ≠ 0 || 0 < both then 1 else 0

/-- Init (08 R237). -/
def matInit (m : MatMode) : Nat :=
  match m.semi with
  | 1 => f32.inf false
  | 2 | 3 => f32.inf true
  | _ => 0

/-! ## Tiles -/

def tileKey (t row word : Nat) : Nat := 4096 * t + 64 * row + word
def Matrix.tileWord (m : Matrix) (t row word : Nat) : Word := m.tiles.get 0 (tileKey t row word)
/-- An accumulator element (08 R223). -/
def Matrix.elem (m : Matrix) (wide : Bool) (t row col : Nat) : Nat :=
  if wide then (m.tileWord t row (2 * col)).toNat + 2 ^ 32 * (m.tileWord t row (2 * col + 1)).toNat
  else (m.tileWord t row col).toNat

/-- Replaces words of a tile: `f` gives a new word and whether it is poisoned, `none` keeps the old one. -/
def Matrix.setTile (m : Matrix) (t : Nat) (f : Nat → Nat → Option (Word × Bool)) : Matrix :=
  let cells : List (Nat × Word × Bool) := (List.range 4096).map fun i =>
    match f (i / 64) (i % 64) with
    | some x => (4096 * t + i, x)
    | none => (4096 * t + i, m.tiles.get 0 (4096 * t + i), m.poison.contains (4096 * t + i))
  { m with
    tiles := (m.tiles.filter fun kw => kw.1 < 4096 * t) ++ (cells.filterMap fun c => if c.2.1 = 0 then none else some (c.1, c.2.1))
      ++ m.tiles.filter fun kw => 4096 * (t + 1) ≤ kw.1
    poison := (m.poison.filter fun k => k / 4096 ≠ t) ++ (cells.filter fun c => c.2.2).map (·.1) }

/-- A step's reads: a range of the scratch of the block's group. -/
structure ScratchRange where
  block : Block
  off : Nat
  size : Nat

def scratchRange (s : State) (b : Block) (addr size : Nat) : Option ScratchRange :=
  (scratchTarget s b addr size).bind fun t => (s.block t.1).map fun k => ⟨k, t.2, size⟩

def addr32 (n : Nat) : Nat := n % 2 ^ 32

/-- The row of a step's A operand as a bit stream, its poison, and its scale register. -/
def AOperand.row (a : AOperand) (base regs row : Nat) : Nat × Bool :=
  (wordsStream ((List.range regs).map fun r => a.v.get 0 (laneKey (base + r) row)),
    (List.range regs).any fun r => a.vPoison.contains (laneKey (base + r) row))

/-- The column of a panel as a bit stream, and its poison. -/
def panelCol (m : MatMode) (r : ScratchRange) (n col : Nat) : Nat × Bool :=
  let offs := (List.range m.subs).map fun q => r.off + m.colOff n q col
  (leNat (offs.flatMap fun o => r.block.read o m.colBytes), offs.any fun o => r.block.poisoned o m.colBytes)

/-- The element a step writes, from its row and column, and whether it stays poisoned (DEDUCED: log entry 36). -/
def stepElem (md : MatMode) (kv : Nat) (init : Bool) (old : Nat) (oldBad : Bool) (x y : Nat × Bool) (sx sy : MatScale × Bool) :
    Nat × Bool :=
  (matCombine md kv (if init then matInit md else old) x.1 y.1 sx.1 sy.1, x.2 || y.2 || sx.2 || sy.2 || (!init && oldBad))

/-- The flags of 08 R241: a NaN over another value, an infinity over a finite one. -/
def newNan (f : Fmt) (old new : Nat) : Bool := (f.decode new).isNan && !(f.decode old).isNan
def newInf (f : Fmt) (old new : Nat) : Bool :=
  (f.decode new).isInf && match f.decode old with
    | .fin .. => true
    | _ => false

/-- One K-step's effect on the engine (08 R237). `width` rows; `pan`, `ga` and `gb` are the panel and the group tables
(DEDUCED: log entry 36). -/
def Matrix.kstep (m : Matrix) (md : MatMode) (acc : Bool) (t : Nat) (a : AOperand) (base width n kv step : Nat)
    (pan : ScratchRange) (ga gb : Option ScratchRange) : Matrix :=
  let wide := md.acc = 1
  let init := step = 0 && !acc
  let entry (g : Option ScratchRange) (i : Nat) : MatScale × Bool := match g with
    | some r => (.group (r.block.word (r.off + 4 * i)), r.block.poisoned (r.off + 4 * i) 4)
    | none => (.none, false)
  let rows := (List.range width).map fun i =>
    (a.row base md.regsA i, if isMx md.afmt then
        (MatScale.e8m0 (a.e.get 0 (laneKey base i)), a.ePoison.contains (laneKey base i))
      else entry ga i)
  let cols := (List.range n).map fun j =>
    (panelCol md pan n j, if isMx md.bfmt then
        (MatScale.e8m0 (pan.block.sideByte (pan.off / 128 + j / md.perLine) (j % md.perLine)),
          pan.block.sidePoisoned (pan.off / 128 + j / md.perLine))
      else entry gb j)
  let olds : List (List (Nat × Bool)) := (List.range width).map fun i => (List.range n).map fun j =>
    (m.elem wide t i j, if wide then m.poison.contains (tileKey t i (2 * j)) || m.poison.contains (tileKey t i (2 * j + 1))
      else m.poison.contains (tileKey t i j))
  let new : List (List (Nat × Bool)) := (rows.zip olds).map fun ro => (cols.zip ro.2).map fun co =>
    stepElem md kv init co.2.1 co.2.2 ro.1.1 co.1.1 ro.1.2 co.1.2
  let f := if wide then f64 else f32
  let changed := (olds.zip new).flatMap fun on => on.1.zip on.2
  let m1 := m.setTile t fun row word =>
    match (new.getD row [])[if wide then word / 2 else word]? with
    | some (c, bad) => some (BitVec.ofNat 32 (if wide then c / 2 ^ (32 * (word % 2)) else c), bad)
    | none => none
  if md.acc = 2 then m1
  else
    { m1 with
      nanw := m1.nanw || changed.any fun on => newNan f on.1.1 on.2.1
      infw := m1.infw || changed.any fun on => newInf f on.1.1 on.2.1 }

/-! ## Ownership -/

def ownerTrap (s : State) : Trap := wordTrap s causeMatrixOwner 0

/-- Not in the forerunner; MATRIX_OWNER in a compacted path wave (08 R228). -/
def matAllowed (s : State) (w : Wave) : Option Trap :=
  if w.fore then some (illegal s 4) else if w.cpt then some (ownerTrap s) else none

/-- The engine at a grant (08 R224, R225, R241). -/
def Matrix.grant (m : Matrix) (uid c : Nat) : Matrix :=
  let m1 := if m.lastCtx = some c then m else { m with tiles := [], poison := [], writers := [] }
  { m1 with
    mode := none, latch := none, owner := some uid, waiters := m1.waiters.filter fun x => x ≠ uid, lastCtx := some c
    nanw := false, infw := false }

/-- Free: no owner, and no step of the last one left (08 R226). -/
def Matrix.free (m : Matrix) : Bool := m.owner = none && m.queue.isEmpty

def execMacq (p : Bool) (s : State) : Result :=
  issue s p ⟨false, noEntry, matAllowed, []⟩ fun u w b =>
    let m := s.mat (unitCore u)
    if m.owner = some w.uid then .done (s.setWave u w.next)
    else if m.free && m.waiters.isEmpty then
      .done ((s.setWave u w.next).onMat (unitCore u) fun m => m.grant w.uid b.ctx)
    else .done ((s.startWait u w .macq).onMat (unitCore u) fun m => { m with waiters := m.waiters ++ [w.uid] })

/-- The waiting wave that is granted next: the oldest, or in compulsory mode the least by block index and F (08 R225)
(DEDUCED: log entry 36). -/
def nextOwner (s : State) (m : Matrix) : Option Nat :=
  let keyed := m.waiters.filterMap fun uid => (s.findWave uid).bind fun w => (s.block w.block).map fun b =>
    (uid, b.index, w.first, s.cmp b)
  match keyed with
  | [] => none
  | k :: rest =>
    if k.2.2.2 then
      some (rest.foldl (fun best x => if x.2.1 < best.2.1 || (x.2.1 = best.2.1 && x.2.2.1 < best.2.2.1) then x else best) k).1
    else some k.1

def execMatrixGrant (core : Nat) (s : State) : Result :=
  let m := s.mat core
  if !m.free || !s.runs core then .next s
  else match nextOwner s m with
    | none => .next s
    | some uid =>
      match (s.findWave uid).bind fun w => s.block w.block with
      | none => .next s
      | some b => .next ((s.onMat core fun m => m.grant uid b.ctx).onWave uid Wave.resume).changed

/-- A meaning of an owner-only instruction (08 R228). -/
def ownerBody (s : State) (body : Nat → Wave → Block → Eff) (u : Nat) (w : Wave) (b : Block) : Eff :=
  if (s.mat (unitCore u)).owner = some w.uid then body u w b else .trap (ownerTrap s)

def execMrel (p : Bool) (s : State) : Result :=
  issue s p ⟨false, noEntry, matAllowed, []⟩ (ownerBody s fun u w _ =>
    .done ((s.setWave u w.next).onMat (unitCore u) Matrix.release))

def execMmode (p : Bool) (a : BitVec 7) (s : State) : Result :=
  issue s p ⟨false, noEntry, matAllowed, [.ss a 1]⟩ (ownerBody s fun u w _ =>
    let md : MatMode := ⟨w.rdS a, w.csr.cza, w.csr.czb⟩
    if !md.ok then .trap (wordTrap s causeModeInvalid (w.rdS a))
    else .done ((s.setWave u w.next).onMat (unitCore u) fun m =>
      { m with mode := some md, latch := none, nanw := false, infw := false }))

/-! ## MMA and MLOOP at issue (08 R231 to R236, R247) -/

/-- The operand block, with N = 0 read as 64. -/
structure MatOpnds where
  baddr : Nat
  bstride : Nat
  k : Nat
  astep : Nat
  n : Nat
  bgt : Nat
  agt : Nat
  rsv : Bool

def readOpnds (w : Wave) (b : BitVec 7) : MatOpnds :=
  let r (k : Nat) : Nat := (w.rdSk b k).toNat
  { baddr := r 0, bstride := r 1, k := r 2, astep := r 3 % 256, n := if r 3 / 256 % 256 = 0 then 64 else r 3 / 256 % 256
    bgt := r 4, agt := r 5, rsv := r 3 / 65536 ≠ 0 }

/-- Steps of an instruction. -/
def matSteps (md : MatMode) (loop : Bool) (k : Nat) : Nat :=
  if loop then (k + md.stepK - 1) / md.stepK else if k = 0 then 0 else 1

/-- The scratch ranges of step i: the panel, and the group tables. -/
def stepRanges (md : MatMode) (o : MatOpnds) (width i : Nat) : List (Nat × Nat) :=
  (addr32 (o.baddr + i * o.bstride), md.panelBytes o.n) ::
    if isGi md.afmt then [(addr32 (o.bgt + 256 * i), 4 * o.n), (addr32 (o.agt + 256 * i), 4 * width)] else []

/-- The checks of R231 on the values (DEDUCED: log entries 10 and 36). -/
def checkMma (s : State) (w : Wave) (b : Block) (md : MatMode) (o : MatOpnds) (loop : Bool) (a : BitVec 7) : Option Trap :=
  let steps := matSteps md loop o.k
  let gi := isGi md.afmt
  if o.rsv || 1048576 < o.k || 64 < o.n || (md.acc = 1 && 32 < o.n) then some (illegal s 6)
  else if o.baddr % 128 ≠ 0 then some (misalignTrap o.baddr true 0)
  else if loop && o.bstride % 128 ≠ 0 then some (misalignTrap o.bstride true 0)
  else if gi && o.bgt % 4 ≠ 0 then some (misalignTrap o.bgt true 0)
  else if gi && o.agt % 4 ≠ 0 then some (misalignTrap o.agt true 0)
  else
    match ((List.range steps).flatMap fun i => stepRanges md o w.width i).find? fun r => (scratchRange s b r.1 r.2).isNone with
    | some r => some (scratchTrap r.1 0)
    | none =>
      let step := if loop then o.astep else 0
      match (List.range steps).findSome? fun i =>
          if w.phys a 0 + i * step + md.regsA ≤ b.vregs then none else some (max (w.phys a 0 + i * step) b.vregs) with
      | some reg => some (windowTrap s reg false)
      | none =>
        if (List.range steps).any (fun i => !alignedA md.afmt (a.toNat + i * step)) || (1 < steps && step % unitA md.afmt ≠ 0) then
          some (illegal s 6)
        else none

/-- What the wave's registers hold as the instruction issues (DEDUCED: log entry 35). -/
def captureA (w : Wave) (a : BitVec 7) : AOperand :=
  ⟨w.width, w.phys a 0, w.regs.v, w.regs.e, w.regs.vPoison, w.regs.ePoison⟩

/-- The accesses recorded in compulsory mode: every line of the panels and every group table entry (08 R247). -/
def matAccesses (s : State) (b : Block) (md : MatMode) (o : MatOpnds) (width steps : Nat) : List Access :=
  ((List.range steps).flatMap fun i => stepRanges md o width i).flatMap fun r =>
    match scratchRange s b r.1 r.2 with
    | some k => (linesOf k.off k.size).map fun l =>
        let lo := max k.off (128 * l)
        ⟨false, k.block.uid, lo, min (k.off + k.size) (128 * l + 128) - lo, false⟩
    | none => []

/-- The tile's record names another wave (08 R247). -/
def foreignTile (m : Matrix) (w : Wave) (b : Block) (t : Nat) : Bool :=
  match m.writers.find t with
  | some r => r ≠ (b.ctx, b.index, w.first)
  | none => false
def Matrix.setWriter (m : Matrix) (w : Wave) (b : Block) (t : Nat) : Matrix :=
  { m with writers := m.writers.ins t (b.ctx, b.index, w.first) }

/-- Adds a step-queue entry for the current instruction. -/
def State.addMat (s : State) (u : Nat) (w : Wave) (b : Block) (op : MatOp) : State :=
  { s.onMat (unitCore u) fun m => { m with queue := m.queue ++ [⟨s.fresh, w.uid, b.uid, b.record, w.width, w.pc, w.ordLoads, w.ordStores, op⟩] } with
    fresh := s.fresh + 1 }
def matQueueMax : Nat := 8

/-- Whether a TCPYV still writes a register of an A run. -/
def busyA (w : Wave) (md : MatMode) (a : BitVec 7) (steps step : Nat) : Bool :=
  (List.range steps).any fun i => w.regs.vBusy.any fun r =>
    decide (w.phys a 0 + i * step ≤ r.2) && decide (r.2 < w.phys a 0 + i * step + md.regsA)

/-- MMA and MLOOP at issue. The latch counts as valid from here on (DEDUCED: log entry 36). -/
def mma (s : State) (p keep acc loop : Bool) (t : BitVec 3) (a b : BitVec 7) : Result :=
  issue s p ⟨false, noEntry, matAllowed, [.ss b 6]⟩ (ownerBody s fun u w blk =>
    let m := s.mat (unitCore u)
    match m.mode with
    | none => .trap (wordTrap s causeModeInvalid 0)
    | some md =>
      let o := readOpnds w b
      let steps := matSteps md loop o.k
      let step := if loop then o.astep else 0
      match checkMma s w blk md o loop a with
      | some tr => .trap tr
      | none =>
        if loop && 1 < steps && (keep || m.latch.isSome) then .trap (illegal s 6)
        else if steps ≠ 0 && m.latch.any (fun l => l.width ≠ w.width) then .trap (illegal s 6)
        else if steps = 0 then .done (s.setWave u w.next)
        else if s.cmp blk && (acc || w.width < 64 || o.n < 64) && foreignTile m w blk t.toNat then .trap (conflictTrap s)
        else if busyA w md a steps step || matQueueMax ≤ m.queue.length then .stall
        else match scratchConflict s u blk (if s.cmp blk then matAccesses s blk md o w.width steps else []) true false none with
          | none => .trap (conflictTrap s)
          | some s1 =>
            let opA := m.latch.getD (captureA w a)
            let s2 := (s1.setWave u w.next).addMat u w blk
              (.mma md acc t.toNat opA step o.n (if loop then o.k else min o.k md.stepK) o.baddr o.bstride o.bgt o.agt 0)
            .done (s2.onMat (unitCore u) fun m => { m.setWriter w blk t.toNat with latch := if keep then some opA else none }))

def execMma (p k c : Bool) (t : BitVec 3) (a b : BitVec 7) (s : State) : Result := mma s p k c false t a b
def execMloop (p k c : Bool) (t : BitVec 3) (a b : BitVec 7) (s : State) : Result := mma s p k c true t a b

/-! ## Drains and tile writes (08 R242 to R244) -/

/-- The selector of MACC and MACCW: H and G, where they are legal. -/
def selector (w : Wave) (col : Bool) (x : Word) : Option (Nat × Nat) :=
  if x.toNat / 4 ≠ 0 || (x.getLsbD 1 && (!col || w.width = 64)) then none
  else some (x.toNat % 2, x.toNat / 2 % 2)

/-- The tile word that register i of position p holds. -/
def drainKey (t : Nat) (col : Bool) (h g i p : Nat) : Nat :=
  if col then tileKey t (32 * h + i) (32 * g + p) else tileKey t p (32 * h + i)

def execMacc (p : Bool) (d : BitVec 7) (o : Bool) (t : BitVec 3) (b : BitVec 7) (s : State) : Result :=
  issue s p ⟨false, fun w => some (128 * w.width), matAllowed, [.vd d 32, .ss b 1]⟩ (ownerBody s fun u w blk =>
    let m := s.mat (unitCore u)
    match selector w o (w.rdS b) with
    | none => .trap (illegal s 6)
    | some (h, g) =>
      if s.cmp blk && foreignTile m w blk t.toNat then .trap (conflictTrap s)
      else if matQueueMax ≤ m.queue.length then .stall
      else
        let en : Entry :=
          { seq := s.fresh, pc := w.pc, bytes := 128 * w.width
            dests := (List.range w.width).flatMap fun q => (List.range 32).map fun i => .v (laneKey (w.phys d i) q)
            vals := [], waiting := 1, flags := 0, failed := false, sample := .none }
        .done ((s.setWave u (w.pushEntry en).next).next.addMat u w blk (.macc t.toNat o h g (w.phys d 0) en.seq)))

def execMaccw (p o : Bool) (t : BitVec 3) (a b : BitVec 7) (s : State) : Result :=
  issue s p ⟨false, noEntry, matAllowed, [.vall a 32, .ss b 1]⟩ (ownerBody s fun u w blk =>
    let m := s.mat (unitCore u)
    match selector w o (w.rdS b) with
    | none => .trap (illegal s 6)
    | some (h, g) =>
      if s.cmp blk && foreignTile m w blk t.toNat then .trap (conflictTrap s)
      else if matQueueMax ≤ m.queue.length then .stall
      else
        let data : SMap Word := (List.range w.width).foldl (fun acc q => (List.range 32).foldl (fun acc i =>
          SMap.ins acc (drainKey t.toNat o h g i q) (w.rdVk a i q)) acc) []
        .done (((s.setWave u w.next).addMat u w blk (.maccw t.toNat o h g data [])).onMat (unitCore u) fun m =>
          m.setWriter w blk t.toNat))

def execMzero (p : Bool) (t : BitVec 3) (s : State) : Result :=
  issue s p ⟨false, noEntry, matAllowed, []⟩ (ownerBody s fun u w blk =>
    if matQueueMax ≤ (s.mat (unitCore u)).queue.length then .stall
    else .done (((s.setWave u w.next).addMat u w blk (.mzero t.toNat)).onMat (unitCore u) fun m =>
      m.setWriter w blk t.toNat))

/-- MWAIT's condition (08 R245). -/
def execMwait (p : Bool) (s : State) : Result :=
  issue s p ⟨false, noEntry, matAllowed, []⟩ fun u w _ =>
    if (s.mat (unitCore u)).pendingOf w.uid then .stall else .done (s.setWave u w.next)

/-- MQRY's word (08 R246). -/
def mqryWord (m : Matrix) (uid : Nat) (cmp : Bool) : Word :=
  let own := m.owner = some uid
  let bits : List Bool := [own, !cmp && !m.queue.isEmpty, m.latch.isSome, if cmp then own else m.owner.isSome]
  BitVec.ofNat 32 ((bits.zip [1, 2, 4, 8]).foldl (fun n bk => n + if bk.1 then bk.2 else 0) 0
    + (if cmp then 0 else 16 * min m.waiters.length 255) + (if m.nanw then 4096 else 0) + if m.infw then 8192 else 0)

def execMqry (p : Bool) (d : BitVec 7) (s : State) : Result :=
  issue s p ⟨false, noEntry, notFore, [.sd d 1]⟩ fun u w b =>
    let m := s.mat (unitCore u)
    if s.cmp b && m.pendingOf w.uid then .stall
    else .done (s.setWave u (w.wrS d (mqryWord m w.uid (s.cmp b))).next)

/-! ## The engine's steps (08 R237, R240; 07 R185) -/

/-- The operations that the wave of an entry issued before it. -/
def matEarlier (s : State) (e : MatEntry) : List Op :=
  s.ops.filter fun o => decide (o.id < e.id) && (o.owner = e.owner || (s.findOwner e.owner).any fun w => w.owns o.owner)
/-- Whether an operation stores to a range of scratch. -/
def OpKind.storesIn (k : OpKind) (r : ScratchRange) : Bool :=
  k.isStore && k.accesses.any fun a =>
    !a.glob && a.block = r.block.uid && decide (a.addr < r.off + r.size) && decide (r.off < a.addr + a.size)
/-- Whether the reads of a step wait for an earlier operation of the wave: an acquire, or what one orders (12 R298, R300). -/
def matAwaits (s : State) (e : MatEntry) (o : Op) : Bool :=
  o.acquires || s.readsEmpty o || (decide (o.id < e.waitLoads) && o.kind.isLoad) ||
    (decide (o.id < e.waitStores) && o.kind.beforeRelease)
/-- Whether ranges of a step are full and hold every earlier scratch store of the wave, and every acquire that comes before
them is complete (12 R298) (DEDUCED: log entry 27). -/
def matReady (s : State) (e : MatEntry) (rs : List ScratchRange) : Bool :=
  (rs.all fun r => r.block.full r.off r.size && !(matEarlier s e).any fun o => o.kind.storesIn r) &&
    !(matEarlier s e).any (matAwaits s e)

/-- Removes the head entry. -/
def State.finishMat (s : State) (core : Nat) (e : MatEntry) : State :=
  (s.onMat core fun m => { m with queue := m.queue.drop 1 }).checkBlock e.block
def Matrix.wrote (m : Matrix) (c : Nat) : Matrix := { m with lastCtx := some c }

/-- The head entry's next step; a state unchanged where it must wait. -/
def matStep (s : State) (core : Nat) (e : MatEntry) (b : Block) : State :=
  let m := s.mat core
  match e.op with
  | .mzero t => (s.onMat core fun m => (m.setTile t fun _ _ => some (0, false)).wrote b.ctx).finishMat core e
  | .maccw t _ _ _ data bad => (s.onMat core fun m => (m.setTile t fun row word =>
      (data.find (tileKey t row word)).map fun x => (x, bad.contains (tileKey t row word))).wrote b.ctx).finishMat core e
  | .macc t col h g base seq =>
    let cells := (List.range e.width).flatMap fun q => (List.range 32).map fun i =>
      (Elem.v (laneKey (base + i) q), drainKey t col h g i q)
    let s1 :=
      if cells.any fun c => m.poison.contains c.2 then
        (s.defer e.owner b.ctx core ⟨0, 0, b.replay⟩ ⟨causePoison, 0, false, e.pc, 0⟩).onWave e.owner fun w => w.onEntry seq Entry.fail
      else s.deliver e.owner seq (cells.map fun c => (c.1, m.tiles.get 0 c.2))
    s1.finishMat core e
  | .mma md acc t a astep n k baddr bstride bgt agt step =>
    let gi := isGi md.afmt
    match scratchRange s b (addr32 (baddr + step * bstride)) (md.panelBytes n) with
    | none => s.finishMat core e
    | some pan =>
      let table (x cnt : Nat) : Option ScratchRange :=
        if gi then scratchRange s b (addr32 (x + 256 * step)) (4 * cnt) else none
      let ga := table agt e.width
      let gb := table bgt n
      if !matReady s e (pan :: (ga.toList ++ gb.toList)) then s
      else
        let kv := min md.stepK (k - step * md.stepK)
        let s1 := s.onMat core fun m =>
          (m.kstep md acc t a (a.base + step * astep) e.width n kv step pan ga gb).wrote b.ctx
        if k ≤ (step + 1) * md.stepK then s1.finishMat core e
        else s1.onMat core fun m =>
          { m with queue := { e with op := .mma md acc t a astep n k baddr bstride bgt agt (step + 1) } :: m.queue.drop 1 }

/-- The scratch that the next step of an entry reads. -/
def stepReads (s : State) (e : MatEntry) (b : Block) : List ScratchRange :=
  match e.op with
  | .mma md _ _ _ _ n k baddr bstride bgt agt step =>
    (stepRanges md ⟨baddr, bstride, k, 0, n, bgt, agt, false⟩ e.width step).filterMap fun r => scratchRange s b r.1 r.2
  | _ => []
def MatOp.isMma : MatOp → Bool
  | .mma .. => true
  | _ => false
/-- Whether the engine's next step can go (DEDUCED: log entry 58). -/
def State.matGoes (s : State) (core : Nat) : Bool :=
  match (s.mat core).queue with
  | [] => false
  | e :: _ => !e.op.isMma || match s.block e.block with
    | some b => matReady s e (stepReads s e b)
    | none => true

def execMatrixStep (core : Nat) (s : State) : Result :=
  match (s.mat core).queue with
  | [] => .next s
  | e :: _ =>
    if !s.runs core then .next s
    else match s.block e.block with
      | some b => .next (matStep s core e b).changed
      | none => .next (s.finishMat core e).changed

end Sys2Proof.Machine
end

