-- ==== Sys2Proof/Machine/Opt.lean ====
section
/-!
DEFINITION. The optimizer (21 R434 to R441): its descriptor, the tile step's arithmetic, the tile step and the commit.
-/
namespace Sys2Proof.Machine

/-! ## The descriptor (21 R434) -/

/-- A field of n bits from bit lo of an optimizer descriptor. -/
def optF (d : BitVec 1024) (lo n : Nat) : Nat := (d.extractLsb' lo n).toNat
def optAdam (d : BitVec 1024) : Bool := optF d 0 4 = 0
def optNreg (d : BitVec 1024) : Nat := optF d 8 2
def optNelem (d : BitVec 1024) : Nat := optF d 32 32
def optG (d : BitVec 1024) : Nat := optF d 64 64
def optW (d : BitVec 1024) : Nat := optF d 128 64
def optM (d : BitVec 1024) : Nat := optF d 192 64
def optV (d : BitVec 1024) : Nat := optF d 256 64
def optWout (d : BitVec 1024) : Nat := optF d 320 64
def optLflag (d : BitVec 1024) : Nat := optF d 384 64
def optGflag (d : BitVec 1024) : Nat := optF d 448 64
def optT (d : BitVec 1024) : Nat := optF d 832 32
def optReg (d : BitVec 1024) (k : Nat) : Nat := optF d (864 + 12 * k) 12

/-- The limits of R434 (DEDUCED: log entry 49). -/
def optOk (addr : Nat) (d : BitVec 1024) : Bool :=
  let sgd := optF d 0 4 = 1
  addr % 64 = 0 && optF d 0 4 ≤ 1 && optF d 4 4 = 0 && optF d 10 22 = 0 && 1 ≤ optNelem d && optNelem d ≤ 1048576
    && optG d % 4 = 0 && optLflag d % 4 = 0 && optGflag d % 4 = 0
    && ([optG d, optW d, optM d, optV d, optWout d, optLflag d, optGflag d].all canonical)
    && (!sgd || (optV d = 0 && optF d 608 32 = 0 && optF d 640 32 = 0 && optF d 672 32 = 0 && optF d 704 32 = 0))
    && optF d 900 124 = 0

/-! ## The arithmetic (21 R436 to R438) -/

/-- The results of one element, and the scaled gradient that they come from. -/
structure OptOut where
  w : Nat
  m : Nat
  v : Nat
  a : Nat

def finite32 (c : Nat) : Bool :=
  match f32.decode c with
  | .fin .. => true
  | _ => false

def adamW (d : BitVec 1024) (g w m v : Nat) : OptOut :=
  let mul (x y : Nat) : Nat := (fpMul f32 .rne x y 0).code
  let add (x y : Nat) : Nat := (fpAdd f32 .rne x y 0).code
  let sub (x y : Nat) : Nat := (fpSub f32 .rne x y 0).code
  let div (x y : Nat) : Nat := (fpDiv f32 .rne x y 0).code
  let one := 0x3F800000
  let b1 := optF d 576 32
  let b2 := optF d 640 32
  let a := mul g (optF d 736 32)
  let m' := add (mul b1 m) (mul (optF d 608 32) a)
  let v' := add (mul b2 v) (mul (optF d 672 32) (mul a a))
  let mh := div m' (sub one (mul (optF d 768 32) b1))
  let vh := div v' (sub one (mul (optF d 800 32) b2))
  let dd := add (fpSqrt f32 .rne vh 0).code (optF d 704 32)
  let u := add (div mh dd) (mul (optF d 544 32) w)
  let w' := sub w (mul (optF d 512 32) u)
  ⟨w', m', v', a⟩

def sgdMomentum (d : BitVec 1024) (g w m : Nat) : OptOut :=
  let mul (x y : Nat) : Nat := (fpMul f32 .rne x y 0).code
  let add (x y : Nat) : Nat := (fpAdd f32 .rne x y 0).code
  let a := mul g (optF d 736 32)
  let a2 := add a (mul (optF d 544 32) w)
  let m' := add (mul (optF d 576 32) m) a2
  let w' := (fpSub f32 .rne w (mul (optF d 512 32) m') 0).code
  ⟨w', m', 0, a⟩

/-! ## A tile step (21 R435) -/

/-- Four-byte groups of a list. -/
def quads {α : Type} : List α → List (List α)
  | a :: b :: c :: d :: t => [a, b, c, d] :: quads t
  | _ => []

/-- One tensor's range of tile i. -/
def optTile (d : BitVec 1024) (base i : Nat) : Nat × Nat := ((base + 4 * (optNelem d * i)) % 2 ^ 64, 4 * optNelem d)
/-- The tensors a tile step reads, and those it writes. -/
def optReads (d : BitVec 1024) (i : Nat) : List (Nat × Nat) :=
  ([optG d, optW d, optM d] ++ if optAdam d then [optV d] else []).map fun b => optTile d b i
def optWrites (d : BitVec 1024) (i : Nat) : List (Nat × Nat) :=
  ([optW d, optM d] ++ (if optAdam d then [optV d] else []) ++ if optWout d = 0 then [] else [optWout d]).map fun b =>
    optTile d b i

/-- A word a tile step reads or writes, with its poison mark; `none` where it could not be read. -/
abbrev OptWord := Option (Word × Bool)
def tileWords (s : State) (x : Context) (denied : List Nat) (r : Nat × Nat) : List OptWord :=
  (quads (engineRead s x denied r.1 r.2)).map wordOf
def wordBytes (w : Option (Nat × Bool)) : List EByte :=
  match w with
  | some (v, p) => (leBytes 4 v).map fun b => some (b, p)
  | none => List.replicate 4 none

/-- Which results of an element are computed from a poisoned source (21 R436, R437, R441). -/
structure OptPoison where
  w : Bool
  m : Bool
  v : Bool
  a : Bool

def optPoison (adam pg pw pm pv : Bool) : OptPoison :=
  if adam then ⟨pg || pw || pm || pv, pg || pm, pg || pv, pg⟩ else ⟨pg || pw || pm, pg || pw || pm, false, pg⟩

/-- Whether an element is non-finite; what is computed from poison counts as finite (21 R438, R441)
(DEDUCED: log entry 49). -/
def OptOut.nonFinite (r : OptOut) (p : OptPoison) : Bool :=
  (!p.a && !finite32 r.a) || (!p.m && !finite32 r.m) || (!p.v && !finite32 r.v) || (!p.w && !finite32 r.w)

/-- The results of a tile's elements with their poison; `none` where an input could not be read. -/
def tileResults (s : State) (x : Context) (denied : List Nat) (d : BitVec 1024) (i : Nat) : List (Option (OptOut × OptPoison)) :=
  let gs := tileWords s x denied (optTile d (optG d) i)
  let ws := tileWords s x denied (optTile d (optW d) i)
  let ms := tileWords s x denied (optTile d (optM d) i)
  let vs : List OptWord := if optAdam d then tileWords s x denied (optTile d (optV d) i)
    else List.replicate (optNelem d) (some (0, false))
  ((gs.zip ws).zip (ms.zip vs)).map fun e =>
    match e.1.1, e.1.2, e.2.1, e.2.2 with
    | some (g, pg), some (w, pw), some (m, pm), some (v, pv) =>
      some (if optAdam d then adamW d g.toNat w.toNat m.toNat v.toNat else sgdMomentum d g.toNat w.toNat m.toNat,
        optPoison (optAdam d) pg pw pm pv)
    | _, _, _, _ => none

/-- What an OPT action comes to before any write: it parks on a page, it is malformed, or its writes. -/
inductive OptStep
  | park (va : Nat) (write perm : Bool)
  | malformed (s : State)
  | fail (addr : Nat)
  | wrote (w : EngW)

/-- Whether the translation of a range is malformed (21 R441) (DEDUCED: log entry 49). -/
def rangeMalformed (s : State) (x : Context) (r : Nat × Nat) (read write : Bool) : Bool :=
  (chunks r.1 r.2).any fun k => walk s x k.1 read write = .malformed

/-- The first page of reads, then of writes, that must be parked on. -/
def optFault (s : State) (x : Context) (denied : List Nat) (rs ws : List (Nat × Nat)) : Option (Nat × Bool × Bool) :=
  match firstFault s x denied true false rs with
  | some (va, p) => some (va, false, p)
  | none => (firstFault s x denied false true ws).map fun vp => (vp.1, true, vp.2)

/-- The tile step of tile i (DEDUCED: log entry 49). -/
def optTileStep (s : State) (c : Nat) (x : Context) (snap : SMap Region) (denied : List Nat) (d : BitVec 1024) (i : Nat) :
    OptStep :=
  let rs := optReads d i
  let ws := optWrites d i
  if rs.any (fun r => rangeMalformed s x r true false) || ws.any (fun r => rangeMalformed s x r false true) then .malformed s
  else match optFault s x denied rs ws with
    | some (va, w, p) => .park va w p
    | none =>
      let outs := tileResults s x denied d i
      let bad := outs.any fun o => match o with
        | some (r, p) => r.nonFinite p
        | none => false
      let flag := if bad then [(optLflag d, 4)] else []
      if flag.any (fun r => rangeMalformed s x r false true) then .malformed s
      else match firstFault s x denied false true flag with
        | some (va, p) => .park va true p
        | none =>
          let put (w : EngW) (base : Nat) (f : OptOut → Nat) (p : OptPoison → Bool) : EngW :=
            w.write c snap none false none denied (optTile d base i).1
              (outs.flatMap fun o => wordBytes (o.map fun r => (f r.1, p r.2)))
          let w1 := put (put (EngW.start s) (optW d) OptOut.w OptPoison.w) (optM d) OptOut.m OptPoison.m
          let w2 := if optAdam d then put w1 (optV d) OptOut.v OptPoison.v else w1
          let w3 := if optWout d = 0 then w2 else put w2 (optWout d) OptOut.w OptPoison.w
          let w4 := if bad then w3.write c snap none false none denied (optLflag d) (wordBytes (some (0x3F800000, false))) else w3
          .wrote (match rangesFail s x denied rs with
            | some a => w4.fail a
            | none => w4)

/-! ## The commit (21 R439) -/

/-- A region's flip by the device: at once, or in compulsory mode at the end of the conflict interval, which `ends` says a
device barrier's firing has just made (12 R307, R310; 21 R439) (DEDUCED: log entry 44). -/
def State.flipRegion (s : State) (c r : Nat) (ends : Bool) : State :=
  s.onCtx c fun x =>
    let rg := x.regions.get Region.empty r
    let new : Region := if x.compulsory then (if ends then { rg with edge := !rg.edge } else { rg with flips := rg.flips + 1 })
      else { rg with edge := !rg.edge, pct := BitVec.ofNat 64 (s.pt + 258) }
    { x with regions := x.regions.put Region.empty r new }

/-- Publishes regions in order; the first that is not valid makes the commit malformed. -/
def publishAll (c : Nat) (ends : Bool) : List Nat → State → State × Bool
  | [], s => (s, true)
  | r :: rest, s =>
    match s.ctx c with
    | none => (s, false)
    | some x =>
      if (x.regions.get Region.empty r).valid then publishAll c ends rest (s.flipRegion c r ends) else (s, false)

/-- The commit; `ends`: the firing of its gate has ended the conflict interval (21 R439). -/
def optCommit (s : State) (c vd : Nat) (x : Context) (snap : SMap Region) (denied : List Nat) (addr : Nat) (d : BitVec 1024)
    (ends : Bool) : OptStep :=
  let gf := (optGflag d, 4)
  let lf := (optLflag d, 4)
  let ds := (addr + 96, 12)
  if rangeMalformed s x gf true false || rangeMalformed s x lf false true then .malformed s
  else match optFault s x denied [gf] [lf] with
    | some (va, w, p) => .park va w p
    | none =>
      match wordOf (engineRead s x denied gf.1 4) with
      | none => .fail gf.1
      | some (g, _) =>
        let clear (w : EngW) : EngW := w.write c snap none false none denied lf.1 (wordBytes (some (0, false)))
        if g ≠ 0 then
          .wrote (clear (EngW.start (s.gateEvent c vd 8 (BitVec.ofNat 64 addr) (BitVec.ofNat 64 (optT d) ||| (g.setWidth 64 <<< 32)))))
        else if rangeMalformed s x ds false true then .malformed s
        else match firstFault s x denied false true [ds] with
          | some (va, p) => .park va true p
          | none =>
            let (s0, ok) := publishAll c ends ((List.range (optNreg d)).map (optReg d)) s
            let s1 := if x.compulsory && ends then s0.forgetCopies x else s0
            if !ok then .malformed s1
            else
              let start : EngW := { EngW.start s1 with horizon := if x.compulsory || optNreg d = 0 then s.pt else s.pt + 258 }
              let w1 := start.write c snap none false none denied (addr + 104) (wordBytes (some ((optT d + 1) % 2 ^ 32, false)))
              let w2 :=
                if !optAdam d then w1
                else
                  let q1 := (fpMul f32 .rne (optF d 768 32) (optF d 576 32) 0).code
                  let q2 := (fpMul f32 .rne (optF d 800 32) (optF d 640 32) 0).code
                  w1.write c snap none false none denied (addr + 96) (wordBytes (some (q1, false)) ++ wordBytes (some (q2, false)))
              .wrote (clear w2)

/-- An OPT action (21 R434, R441): the descriptor is read, then the tile step or the commit (DEDUCED: log entry 44). -/
def optAction (s : State) (c vd : Nat) (x : Context) (snap : SMap Region) (denied : List Nat) (addr i : Nat) (ends : Bool) :
    OptStep :=
  if rangeMalformed s x (addr, 128) true false then .malformed s
  else match firstFault s x denied true false [(addr, 128)] with
    | some (va, p) => .park va false p
    | none =>
      match readFail s x denied addr 128 with
      | some a => .fail a
      | none =>
        match cleanNat (engineRead s x denied addr 128) with
        | none => .malformed s
        | some n =>
          let d : BitVec 1024 := BitVec.ofNat 1024 n
          if !optOk addr d then .malformed s
          else if i = 2 ^ 32 - 1 then optCommit s c vd x snap denied addr d ends
          else optTileStep s c x snap denied d i

end Sys2Proof.Machine
end

