-- ==== Sys2Proof/Machine/Net.lean ====
section
/-!
DEFINITION. Gates, counters and messages as instructions (20 R413 to R418; 12 R307, R308), and the actions of gates (20
R410, R411, R421).
-/
namespace Sys2Proof.Machine

/-! ## Counters and gates -/

def badRef (s : State) : Trap := gateMisuse s 2

/-- The address of a counter in the window (20 R405). -/
def counterAddr (vd ctr : Nat) : Nat := windowBase + 0x40000 * vd + 4 * ctr

/-- Whether a descriptor's scratch flag lies in scratch (20 R408). -/
def flagPlaceOk (s : State) (b : Block) (d : Desc) : Bool :=
  d.act ≠ actFlag || !d.getLsbD 256 || (scratchTarget s b (d.fld 160 32) 4).isSome

/-- The unexpected arrivals that a receive gate matches, in arrival order (20 R422). -/
def matching (x : Context) (vd : Nat) (d : Desc) : List Arrival :=
  x.unexp.filter fun a => a.vd = vd && d.fld 256 16 = a.tag && d.fld 272 16 = a.tile &&
    (d.fld 288 10 = a.source || d.fld 288 10 = 1023)

/-- The delivery of unexpected arrivals through a gate while it stays armed. -/
def State.deliverList (c g : Nat) (denied : List Nat) : List Arrival → State → State
  | [], s => s
  | a :: rest, s =>
    match s.ctx c with
    | none => s
    | some x =>
      if (x.gate a.vd g).state = .armed && x.unexp.contains a then
        State.deliverList c g denied rest
          ((s.onCtx c fun x => { x with unexp := x.unexp.erase a, unexpFull := false }).deliverArrival c g a denied)
      else s

/-- The gate as GPOST leaves it. -/
def postedGate (d : Desc) (b : Block) (lines : List Nat) : Gate :=
  { state := .armed, desc := d, thr := d.thr, delivered := 0, block := b.uid, epend := lines }

/-- GPOST's effect at the gate's die, after its checks (20 R412, R414). -/
def State.armGate (s : State) (c vd g : Nat) (d : Desc) (b : Block) (denied : List Nat) : State :=
  let lines := match s.ctx c with
    | some x => (pendLines s x none (d.act = actFlag) (actDest d)).eraseDups
    | none => []
  let s1 := (s.setPend c lines).onCtx c fun x => x.setGate vd g (postedGate d b lines)
  if d.act = actRecv then
    let l := match s1.ctx c with
      | some x => matching x vd d
      | none => []
    State.deliverList c g denied l s1
  else
    let (s2, rs) := s1.evaluate c vd d.ctr
    s2.applyRaises c rs

def execGpost (p : Bool) (a b : BitVec 7) (s : State) : Result :=
  issue s p ⟨false, noEntry, notReplaySafe, [.ss a 2, .ss b 1]⟩ fun u w blk =>
    let x := s.ctxD blk
    let D := (w.rdS64 a).toNat
    if s.globalStores w || s.acquiring w false then .stall
    else if D % 64 ≠ 0 then .trap (misalignTrap D false 0)
    else match checkRef x.nv 14 (w.rdS b) with
      | none => .trap (badRef s)
      | some (vd, g) =>
        match homeRead s u w blk D 64 with
        | .wait s1 => .done s1
        | .err cause _ => .done (s.setWave u (w.answeredErr cause D))
        | .ok l =>
          let d : Desc := BitVec.ofNat 512 (leNat l)
          if !d.ok x.nv || !flagPlaceOk s blk d then .trap (gateMisuse s 4)
          else if (x.gate vd g).state ≠ .free then .trap (gateMisuse s 3)
          else
            let y := postedGate d blk []
            let rs := if d.act = actRecv then (matching x vd d).map (arrivalRange y) else []
            match firstFault s x w.denied false true rs with
            | some (va, perm) => .done (s.waitHome u w blk va true perm)
            | none =>
              if !linesSettled s x none false rs then .stall
              else .done ((s.setWave u w.answered).armGate blk.ctx vd g d blk w.denied)

def execGcancel (p : Bool) (d a : BitVec 7) (s : State) : Result :=
  issue s p ⟨false, noEntry, notReplaySafe, [.sd d 1, .ss a 1]⟩ fun u w blk =>
    let x := s.ctxD blk
    match checkRef x.nv 14 (w.rdS a) with
    | none => .trap (badRef s)
    | some (vd, g) =>
      let y := x.gate vd g
      if y.state ≠ .armed then .done (s.setWave u (w.wrS d 0).next)
      else
        let s1 := s.setWave u (w.wrS d 1).next
        if s.ops.any fun o => o.gateOf = some (blk.ctx, vd, g) then
          .done (s1.onCtx blk.ctx fun x => x.setGate vd g { y with state := .draining })
        else .done (s1.freeGate blk.ctx vd g)

/-- GADD: an add through the counter window, performed once its release may be (20 R416). -/
def execGadd (p : Bool) (a b : BitVec 7) (s : State) : Result :=
  issue s p ⟨false, noEntry, notReplaySafe, [.ss a 1, .ss b 1]⟩ fun u w blk =>
    match checkRef (s.ctxD blk).nv 16 (w.rdS a) with
    | none => .trap (badRef s)
    | some (vd, ctr) =>
      .done ((s.setWave u w.next).addOp u w blk
        (.atomic ⟨true, 0, counterAddr vd ctr, 4, false⟩ .add32 (w.rdS b).toNat 0 [] none .commutative .device))

/-- Whether an earlier access of a wave to a counter's location, or an earlier acquire of it, is still to be performed: its
accesses to one location are performed in program order, and none before an earlier acquire (12 R298). -/
def State.counterBusy (s : State) (w : Wave) (vd ctr : Nat) : Bool :=
  s.acquiring w false || s.ops.any fun o => w.owns o.owner &&
    o.kind.accesses.any (Access.overlap ⟨true, 0, counterAddr vd ctr, 4, false⟩)

def execGrd (p : Bool) (d a : BitVec 7) (s : State) : Result :=
  issue s p ⟨false, noEntry, notReplaySafe, [.sd d 1, .ss a 1]⟩ fun u w blk =>
    let x := s.ctxD blk
    match checkRef x.nv 16 (w.rdS a) with
    | none => .trap (badRef s)
    | some (vd, ctr) =>
      if x.compulsory then .trap (conflictTrap s)
      else if s.counterBusy w vd ctr then .stall
      else .done (s.setWave u ((w.observe s).wrS d (x.counters.get 0 (ctrKey vd ctr))).next)

def execGset (p : Bool) (a b : BitVec 7) (s : State) : Result :=
  issue s p ⟨false, noEntry, notReplaySafe, [.ss a 1, .ss b 1]⟩ fun u w blk =>
    let x := s.ctxD blk
    match checkRef x.nv 16 (w.rdS a) with
    | none => .trap (badRef s)
    | some (vd, ctr) =>
      if !s.released w .device then .stall
      else if x.compulsory && x.changed.has (ctrKey vd ctr) then .trap (conflictTrap s)
      else .done ((s.setWave u w.next).setCounter blk.ctx vd ctr (w.rdS b)
        ⟨w.uid, w.pc, unitCore u, if w.fore then 1 else 0, eventSlot u w, blk.replay⟩)

/-! ## Messages (20 R417, R418) -/

/-- COMM_ONLY (20 R413). -/
def commOnly (s : State) (w : Wave) : Option Trap :=
  if w.fore then none else if w.cpt || !w.csr.comm then some (wordTrap s causeCommOnly 0) else none

/-- The register limits of R417, in their order. -/
def checkMessage (s : State) (x : Context) (w : Wave) (a : BitVec 7) (get : Bool) : Option Trap :=
  let r (k : Nat) : Nat := (w.rdSk a k).toNat
  let tagged := r 4 / 2 ^ 24 % 2 = 1
  let laddr := r 0 + 2 ^ 32 * r 1
  let raddr := r 2 + 2 ^ 32 * r 3
  if r 4 / 2 ^ 25 ≠ 0 || r 5 / 2 ^ 12 % 16 ≠ 0 || r 7 / 2 ^ 18 % 2 ^ 13 ≠ 0 || r 4 % 4 ≠ 0 || (get && (tagged || r 6 ≠ 0))
      || (tagged && r 5 / 2 ^ 16 ≠ 0) || r 5 % 2 ^ 10 = 1023 then some (gateMisuse s 5)
  else if r 7 / 2 ^ 31 = 1 && x.nv ≤ r 7 / 2 ^ 16 % 4 then some (gateMisuse s 2)
  else if laddr % 4 ≠ 0 then some (misalignTrap laddr false 0)
  else if !tagged && raddr % 4 ≠ 0 then some (misalignTrap raddr false 0)
  else none

/-- The local completion counter's key. -/
def localCtr (w : Wave) (a : BitVec 7) : Option Nat :=
  let r := (w.rdSk a 7).toNat
  if r / 2 ^ 31 = 1 then some (ctrKey (r / 2 ^ 16 % 4) (r % 2 ^ 16)) else none

/-- A message of a wave ends: its EPEND clears and its local completion counter is raised (20 R417). -/
def State.endNet (s : State) (o : Op) (local_ : Option Nat) : State :=
  let s1 := (s.dropOp o.id).clearPend o.ctx o.epend
  match local_ with
  | some k => s1.raise o.ctx (k / 65536) (k % 65536) 1 []
  | none => s1

/-- The virtual die of an operation's core. -/
def opVd (x : Context) (o : Op) : Nat := x.vdOf (coreDie o.core)

/-- The address an undeliverable message's event names. -/
def NetOp.addr (n : NetOp) : DWord :=
  match n with
  | .put _ _ raddr .. => raddr
  | .get _ raddr .. => raddr
  | .flag .. => 0

/-- An undeliverable message of a wave (20 R419, R426). -/
def State.undeliverable (s : State) (x : Context) (o : Op) (n : NetOp) (local_ : Option Nat) : State :=
  (s.gateEvent o.ctx (opVd x o) 1 0xFFFFFFFF n.addr).endNet o local_

/-- The offsets of a payload's poisoned words. -/
def poisonedWords (l : List EByte) : List Nat :=
  ((l.zip (List.range l.length)).filterMap fun bi => match bi.1 with
    | some (_, true) => some (bi.2 / 4 * 4)
    | _ => none).eraseDups
def payloadBytes (l : List EByte) : List Byte := l.map fun b => (b.map (·.1)).getD 0

/-- An RPUT reads its payload at its homes and leaves; an RFLAG leaves after its release, or raises a local counter
(DEDUCED: log entry 47). -/
def sendNet (s : State) (o : Op) (n : NetOp) (regions : SMap Region) (local_ : Option Nat) : State :=
  match s.ctx o.ctx with
  | none => s.dropOp o.id
  | some x =>
    let sent (s : State) : State := s.setOp { o with kind := .net n true regions local_ }
    match n with
    | .put tagged laddr raddr len peer rvd rctr radd =>
      match firstFault s x o.denied true false [(laddr, len)] with
      | some (va, p) => s.park o 5 va false true p
      | none =>
        match readFail s x o.denied laddr len with
        | some a => (s.deferOp o causePage a false).endNet o local_
        | none =>
          if !reachable s x peer then s.undeliverable x o n local_
          else
            let data := engineRead s x o.denied laddr len
            sent { s with link := s.link ++
              [.put x.linktag peer tagged raddr rvd rctr radd (payloadBytes data) (poisonedWords data) o.id] }
    | .get _ raddr len peer =>
      if !reachable s x peer then s.undeliverable x o n local_
      else sent { s with link := s.link ++ [.get x.linktag peer raddr len o.id] }
    | .flag peer rvd rctr radd =>
      if peer = s.boot.accel.toNat then (s.dropOp o.id).raise o.ctx rvd rctr radd []
      else if !reachable s x peer then s.undeliverable x o n local_
      else sent { s with link := s.link ++ [.flag x.linktag peer rvd rctr radd o.id] }

def execRput (p : Bool) (a : BitVec 7) (s : State) : Result :=
  issue s p ⟨false, noEntry, bothAllowed notReplaySafe commOnly, [.ss a 8]⟩ fun u w blk =>
    match checkMessage s (s.ctxD blk) w a false with
    | some t => .trap t
    | none =>
      let r (k : Nat) : Nat := (w.rdSk a k).toNat
      if s.globalStores w then .stall
      else .done ((s.setWave u w.next).addOp u w blk
        (.net (.put (r 4 / 2 ^ 24 % 2 = 1) (w.rdS64 a).toNat (w.rdSk a 3 ++ w.rdSk a 2) (r 4 % 2 ^ 24) (r 5 % 2 ^ 10)
          (r 5 / 2 ^ 10 % 4) (r 5 / 2 ^ 16) (w.rdSk a 6)) false [] (localCtr w a)))

def execRget (p : Bool) (a : BitVec 7) (s : State) : Result :=
  issue s p ⟨false, noEntry, bothAllowed notReplaySafe commOnly, [.ss a 8]⟩ fun u w blk =>
    let x := s.ctxD blk
    match checkMessage s x w a true with
    | some t => .trap t
    | none =>
      let r (k : Nat) : Nat := (w.rdSk a k).toNat
      let laddr := (w.rdS64 a).toNat
      let len := r 4 % 2 ^ 24
      if s.globalStores w then .stall
      else .done ((s.setWave u w.next).addEngineOp u w blk (pendLines s x none false [(laddr, len)]).eraseDups
        (.net (.get laddr (w.rdSk a 3 ++ w.rdSk a 2) len (r 5 % 2 ^ 10)) false x.regions (localCtr w a)))

def execRflag (p : Bool) (a b : BitVec 7) (s : State) : Result :=
  issue s p ⟨false, noEntry, notReplaySafe, [.ss a 1, .ss b 1]⟩ fun u w blk =>
    let r := (w.rdS a).toNat
    let peer := r % 2 ^ 10
    let vd := r / 2 ^ 10 % 4
    if r / 2 ^ 12 % 16 ≠ 0 || peer = 1023 then .trap (gateMisuse s 5)
    else if peer = s.boot.accel.toNat && (s.ctxD blk).nv ≤ vd then .trap (badRef s)
    else if s.globalStores w then .stall
    else .done ((s.setWave u w.next).addOp u w blk (.net (.flag peer vd (r / 2 ^ 16) (w.rdS b)) false [] none))

/-- STORE_PERFORM: a store or an engine's write at its home, or a message that leaves (DESIGN CHOICE: log entry 75). -/
def execStorePerform (op : Nat) (useTlb : Bool) (s : State) : Result :=
  match s.op op with
  | some o => match o.kind with
    | .store a data => if inOrder s o then .next (performStore s o a data useTlb).changed else .next s
    | .acps lanes size ob oo oa ok (some read) =>
      if inOrder s o then .next (writeAcps s o lanes size ob oo oa ok read).changed else .next s
    | .net n false regions loc => if inOrder s o then .next (sendNet s o n regions loc).changed else .next s
    | _ => .next s
  | none => .next s

/-! ## PUBLISH and PUBQ (12 R307 to R310) -/

def execPublish (p : Bool) (d a : BitVec 7) (s : State) : Result :=
  issue s p ⟨false, noEntry, notReplaySafe, [.sd d 2, .ss a 1]⟩ fun u w blk =>
    let x := s.ctxD blk
    let n := (w.rdS a).toNat
    if 4095 < n then .trap (illegal s 6)
    else if !s.released w .device then .stall
    else if !(x.regions.get Region.empty n).valid then .trap (illegal s 7)
    else
      let t := s.pt + 258
      let pair : DWord := if x.compulsory then 0 else BitVec.ofNat 64 t
      let w1 := (w.wrS64 d pair).next
      let w2 : Wave := if x.compulsory then w1 else { w1 with csr := { w1.csr with rhz := max w1.csr.rhz t } }
      let s1 := (s.setWave u w2).flipRegion blk.ctx n false
      .done (if x.compulsory then s1 else s1.joinRhz w.uid blk.ctx blk.record t)

def execPubq (p : Bool) (d a : BitVec 7) (s : State) : Result :=
  issue s p ⟨false, noEntry, notReplaySafe, [.sd d 1, .ss a 1]⟩ fun u w blk =>
    let x := s.ctxD blk
    let n := (w.rdS a).toNat
    if 4095 < n then .trap (illegal s 6)
    else if s.acquiring w false then .stall
    else
      let rg := x.regions.get Region.empty n
      if !rg.valid then .trap (illegal s 7)
      else
        let settled := !x.compulsory && decide (rg.pct.toNat ≤ s.pt)
        let w1 := if settled then w.observe s else w
        .done (s.setWave u (w1.wrS d (0#30 ++ bit settled ++ bit rg.edge)).next)

/-! ## Gate actions (20 R410, R411, R421) -/

/-- Reports what writes of a gate's action failed (12 R315; 20 R421). -/
def State.actionErrors (s : State) (c vd g : Nat) (w : EngW) : State :=
  let s1 := w.withheld.eraseDups.foldl (fun st l => st.gateEvent c vd 1 (gateRef vd g) (BitVec.ofNat 64 l)) s
  match w.err with
  | some a => s1.gateEvent c vd 1 (gateRef vd g) (BitVec.ofNat 64 a)
  | none => s1

/-- The EPEND of a gate that holds no other action and fires no more clears: the last write has been performed (12 R315). -/
def State.lastWrite (s : State) (o : Op) (vd g : Nat) : State :=
  match s.ctx o.ctx with
  | none => s
  | some x =>
    let y := x.gate vd g
    if y.state ≠ .draining || s.ops.any (fun p => p.id ≠ o.id && p.gateOf = some (o.ctx, vd, g)) then s
    else (s.clearPend o.ctx y.epend).onCtx o.ctx fun x => x.setGate vd g { y with epend := [] }

/-- An action's writes have been performed; it completes once package time has reached them all (12 R312). -/
def State.actionWrote (s : State) (o : Op) (vd g : Nat) (w : EngW) : State :=
  let s1 := ((s.actionErrors o.ctx vd g w).clearPend o.ctx o.epend).lastWrite o vd g
  let o1 := { o with epend := [] }
  if w.horizon ≤ s1.pt then s1.gateDone o1 true else s1.setOp { o1 with horizon := some w.horizon }

/-- An action that could not read what it needs, or reach its peer. -/
def State.actionFailed (s : State) (o : Op) (vd g : Nat) (addr : DWord) : State :=
  (s.gateEvent o.ctx vd 1 (gateRef vd g) addr).gateDone o true

/-- REDUCE's elements in order: each one read-modify-write at its home (DEDUCED: log entry 44). -/
def reduceElems (c : Nat) (snap : SMap Region) (denied : List Nat) (src dst : Nat) : List Nat → EngW → EngW
  | [], w => w
  | i :: rest, w =>
    match w.s.ctx c with
    | none => w.fail dst
    | some x =>
      let a := dst + 4 * i
      let old : OptWord := match via w.s x denied a false true with
        | .ok e =>
          let pa := enginePhys { x with regions := snap } e a none
          some (BitVec.ofNat 32 (w.s.readNat pa 4), w.s.poisoned pa 4)
        | _ => none
      match old, wordOf (engineRead w.s x denied (src + 4 * i) 4) with
      | some (v, pv), some (y, py) =>
        let r := (fpAdd f32 .rne v.toNat y.toNat 0).code
        reduceElems c snap denied src dst rest (w.write c snap none false none denied a (wordBytes (some (r, pv || py))))
      | none, _ => reduceElems c snap denied src dst rest (w.fail a)
      | _, none => reduceElems c snap denied src dst rest (w.fail (src + 4 * i))

/-- A scratch word written by a FLAG action, in a block that is resident or saved; one that has retired discards it. -/
def State.flagScratch (s : State) (uid addr : Nat) (v : Word) : State :=
  match s.block uid with
  | some b =>
    if b.ended then s
    else match scratchTarget s b addr 4 with
      | some (t, off) => s.writeScratch t off (leBytes 4 v.toNat) false
      | none => s
  | none => s

/-- An OPT action whose descriptor could not be read as it started: its destinations are known and checked now, against those
of every action of the interval, since one that started after it was checked against none of them (21 R429); `none` where
it may be performed. -/
def optRecheck (s : State) (o : Op) (x : Context) (vd g : Nat) (d : Desc) (acq : List Nat) : Option State :=
  let (dst, flag) := optDest s x d
  if !x.compulsory || dst.isEmpty || !(x.started.any fun e => e.id = o.id && e.dst.isEmpty) then none
  else match unordered { x with started := x.started.filter fun e => e.id ≠ o.id } (65536 * vd + g) d.act dst flag acq with
    | some e => some (((s.dropOp o.id).gateEvent o.ctx vd 10 (gateRef vd g) (BitVec.ofNat 64 e.ref)).advanceGate o.ctx vd g)
    | none =>
      let lines := (pendLines s x none false (dst ++ flag)).eraseDups
      some (((s.setPend o.ctx lines).setOp { o with epend := lines }).onCtx o.ctx fun x =>
        { x with started := x.started.map fun e => if e.id = o.id then { e with dst := dst, flag := flag } else e })

/-- The performing of an action that has started. -/
def performAction (s : State) (o : Op) (x : Context) (vd g : Nat) (d : Desc) (block : Nat) (snap : SMap Region)
    (acq : List Nat) : State :=
  let a1 := d.fld 160 64
  let a2 := d.fld 224 64
  let len := d.fld 288 24
  let planned (s : State) : State := s.setOp { o with note := [2] }
  match d.act with
  | 1 =>
    match firstFault s x o.denied true false [(a1, len)] with
    | some (va, p) => s.park o 5 va false true p
    | none =>
      match readFail s x o.denied a1 len with
      | some a => s.actionFailed o vd g (BitVec.ofNat 64 a)
      | none =>
        let peer := d.fld 320 10
        if !reachable s x peer then s.actionFailed o vd g (BitVec.ofNat 64 a2)
        else
          let data := engineRead s x o.denied a1 len
          planned { s with link := s.link ++ [.put x.linktag peer (d.getLsbD 312) (BitVec.ofNat 64 a2) (d.fld 330 2) (d.fld 336 16)
            (d.extractLsb' 352 32) (payloadBytes data) (poisonedWords data) o.id] }
  | 2 =>
    let peer := d.fld 320 10
    if !reachable s x peer then s.actionFailed o vd g (BitVec.ofNat 64 a2)
    else planned { s with link := s.link ++ [.get x.linktag peer (BitVec.ofNat 64 a2) len o.id] }
  | 3 =>
    match optFault s x o.denied [(a1, len)] [(a2, len)] with
    | some (va, w, p) => s.park o 5 va w true p
    | none =>
      let w := (EngW.start s).write o.ctx snap none false none o.denied a2 (engineRead s x o.denied a1 len)
      w.s.actionWrote o vd g (match readFail s x o.denied a1 len with
        | some a => w.fail a
        | none => w)
  | 4 =>
    match optFault s x o.denied [(a1, 4 * len)] [(a2, 4 * len)] with
    | some (va, w, p) => s.park o 5 va w true p
    | none =>
      let w := reduceElems o.ctx snap o.denied a1 a2 (List.range len) (EngW.start s)
      w.s.actionWrote o vd g w
  | 5 =>
    match optRecheck s o x vd g d acq with
    | some s1 => s1
    | none =>
      match optAction s o.ctx vd x snap o.denied a1 (d.fld 224 32) d.dbar with
      | .park va w p => s.park o 5 va w true p
      | .malformed s1 => (s1.gateEvent o.ctx vd 9 (gateRef vd g) (BitVec.ofNat 64 a1)).gateDone o true
      | .fail a => s.actionFailed o vd g (BitVec.ofNat 64 a)
      | .wrote w => w.s.actionWrote o vd g w
  | 6 =>
    let amt : Word := d.extractLsb' 224 32
    let own := d.getLsbD 178 && d.fld 192 10 = s.boot.accel.toNat
    if !d.getLsbD 178 || (own && decide (d.fld 176 2 < x.nv)) then
      (s.raise o.ctx (d.fld 176 2) (d.fld 160 16) amt (o.id :: acq)).gateDone o true
    else if own then s.actionFailed o vd g 0
    else match s.sendFlag x (d.fld 192 10) (d.fld 176 2) (d.fld 160 16) amt o.id with
      | some s1 => planned s1
      | none => s.actionFailed o vd g 0
  | 7 => (s.gateEvent o.ctx vd 0 (BitVec.ofNat 64 (d.fld 160 32) ||| (gateRef vd g <<< 32)) (d.extractLsb' 192 64)).gateDone o true
  | 8 =>
    let s1 : State := { s with irqs := s.irqs ++ [.gate (gateRef vd g).toNat (d.extractLsb' 160 32)] }
    s1.gateDone o true
  | 9 =>
    let v : Word := d.extractLsb' 224 32
    if d.getLsbD 256 then (s.flagScratch block (d.fld 160 32) v).gateDone o true
    else match firstFault s x o.denied false true [(a1, 4)] with
      | some (va, p) => s.park o 5 va true true p
      | none =>
        let w := (EngW.start s).write o.ctx snap none true none o.denied a1 (wordBytes (some (v.toNat, false)))
        w.s.actionWrote o vd g w
  | _ => s.gateDone o true

def execGateActionComplete (op : Nat) (s : State) : Result :=
  match s.op op with
  | some o => match o.kind, s.ctx o.ctx with
    | .gate vd g d block (some snap) acq, some x =>
      if o.parked.isSome || !o.note.isEmpty then .next s
      else match o.horizon with
        | some t => if t ≤ s.pt then .next (s.gateDone o true).changed else .next s
        | none => .next (performAction s o x vd g d block snap acq).changed
    | _, _ => .next s
  | none => .next s

end Sys2Proof.Machine
end

