-- ==== Sys2Proof/Machine/Arrive.lean ====
section
/-!
DEFINITION. Messages as they arrive from peers and as peers answer (20 R417 to R423; 21 R431 to R433): RPUT and RFLAG
arrivals, requests for bytes, responses, acknowledgements, undeliverable messages and the failure of a port.
-/
namespace Sys2Proof.Machine

/-- The context that a message's LINKTAG names (21 R431). -/
def linkCtx (s : State) (link : Half) : Option (Nat × Context) :=
  if link = 0 then none else s.ctxs.find? fun c => c.2.linktag = link

def State.answer (s : State) (m : LinkMsg) : State := { s with link := s.link ++ [m] }
def State.refuse (s : State) (source : Nat) : State := s.answer (.refuse source)
def State.acknowledge (s : State) (source : Nat) : State := s.answer (.ack source)

/-- A message that must wait for a page: its fault is recorded and the message is not accepted (17 R364)
(DEDUCED: log entry 39). -/
def State.arrivalFault (s : State) (c : Nat) (x : Context) (vd va : Nat) (write perm : Bool) : State :=
  (s.faultRecord c (vdCore x vd) ⟨5, 0, false⟩ va write false true perm).1

/-- Pages whose fault was answered FAIL are forgotten once the message that met it is answered. -/
def State.forgetDenied (s : State) (c : Nat) (ranges : List (Nat × Nat)) : State :=
  let pages := ranges.flatMap fun r => pagesOf r.1 r.2
  s.onCtx c fun x => { x with arrDenied := x.arrDenied.filter fun p => !pages.contains p }

/-! ## RPUT -/

/-- An arrival that cannot be performed yet holds EPEND on the lines it will write (12 R315) (DEDUCED: log entry 39). -/
def State.holdArrival (s : State) (c : Nat) (x : Context) (m : RputMessage) (range : Nat × Nat) : State :=
  let lines := (pendLines s x none false [range]).eraseDups
  if lines.isEmpty || x.arriving.any (fun k => k.1 = m) then s
  else (s.setPend c lines).onCtx c fun x => { x with arriving := (m, lines) :: x.arriving }
/-- It is performed, or given up. -/
def State.endArrival (s : State) (c : Nat) (m : RputMessage) : State :=
  match (s.ctx c).bind fun x => x.arriving.find? fun k => k.1 = m with
  | some k => (s.clearPend c k.2).onCtx c fun x => { x with arriving := x.arriving.erase k }
  | none => s
/-- An untagged payload: written at RADDR, then the counter is raised (20 R417). -/
def putUntagged (s : State) (c : Nat) (x : Context) (m : RputMessage) : State :=
  let vd := m.rvd.toNat
  let range := (m.raddr.toNat, m.bytes.length)
  match firstFault s x x.arrDenied false true [range] with
  | some (va, p) => (s.arrivalFault c x (if vd < x.nv then vd else 0) va true p).holdArrival c x m range
  | none =>
    if x.nv ≤ vd || cannotWrite s x x.arrDenied range then ((s.endArrival c m).forgetDenied c [range]).refuse m.source.toNat
    else if !linesSettled s x none false [range] then s.holdArrival c x m range
    else
      let a : Arrival := ⟨vd, m.source.toNat, 0, 0, 0, 0, m.bytes, m.poison⟩
      let w := (EngW.start s).write c x.regions none false none x.arrDenied range.1 a.payload
      let s1 := (w.s.arrivalErrors c vd w).endArrival c m
      ((s1.raise c vd m.rctr.toNat m.radd []).forgetDenied c [range]).acknowledge m.source.toNat

/-- The entries an arrival occupies in the unexpected list, and those the area holds (20 R423). -/
def Arrival.entries (a : Arrival) : Nat := (a.bytes.length + 32 + 255) / 256
def unexpUsed (x : Context) : Nat := (x.unexp.map Arrival.entries).foldl (· + ·) 0
def unexpRoom (x : Context) : Nat := x.unexpArea.2 / 256

/-- An arrival that matches no gate is listed where there is room (20 R422, R423). -/
def listArrival (s : State) (c : Nat) (x : Context) (a : Arrival) : State :=
  if unexpUsed x + a.entries ≤ unexpRoom x then
    (s.onCtx c fun x => { x with unexp := x.unexp ++ [a], unexpFull := false }).acknowledge a.source
  else if x.unexpFull then s
  else
    (s.onCtx c fun x => { x with unexpFull := true }).post (x.table.getD a.vd 0) false none
      [mkEvent s 9 1 c a.vd 0 0 5 false x.unexpArea.1 (BitVec.ofNat 64 (unexpUsed x))]

/-- A tagged payload: delivered through the receive gate it matches (20 R422). -/
def putTagged (s : State) (c : Nat) (x : Context) (m : RputMessage) : State :=
  let vd := m.rvd.toNat
  let a : Arrival :=
    ⟨vd, m.source.toNat, m.raddr.toNat % 2 ^ 16, m.raddr.toNat / 2 ^ 16 % 2 ^ 16, m.raddr.toNat / 2 ^ 32, m.radd, m.bytes, m.poison⟩
  if x.nv ≤ vd then s.refuse a.source
  else match matchGate x a with
    | none => listArrival s c x a
    | some g =>
      let range := arrivalRange (x.gate vd g) a
      match firstFault s x x.arrDenied false true [range] with
      | some (va, p) => (s.arrivalFault c x vd va true p).holdArrival c x m range
      | none =>
        if cannotWrite s x x.arrDenied range then ((s.endArrival c m).forgetDenied c [range]).refuse a.source
        else if !linesSettled s x none false [range] then s.holdArrival c x m range
        else (((s.endArrival c m).deliverArrival c g a x.arrDenied).forgetDenied c [range]).acknowledge a.source

/-- RPUT_ARRIVAL. A message that is not accepted stays with the fabric, which presents it again
(DEDUCED: log entry 39). -/
def execRputArrival (m : RputMessage) (s : State) : Result :=
  match linkCtx s m.link with
  | none => .next (s.refuse m.source.toNat).changed
  | some (c, x) => .next (if m.tagged then putTagged s c x m else putUntagged s c x m).changed

/-- RFLAG_ARRIVAL: a raise (20 R418); a virtual die that the context has not makes it undeliverable. -/
def execRflagArrival (m : RflagMessage) (s : State) : Result :=
  match linkCtx s m.link with
  | none => .next (s.refuse m.source.toNat).changed
  | some (c, x) =>
    if x.nv ≤ m.rvd.toNat then .next (s.refuse m.source.toNat).changed
    else .next ((s.raise c m.rvd.toNat m.rctr.toNat m.radd []).acknowledge m.source.toNat).changed

/-! ## RGET -/

/-- RGET_REQUEST_ARRIVAL: the bytes at RADDR are returned (20 R417; 21 R431, R432) (DEDUCED: log entry 47). -/
def execRgetRequestArrival (m : RgetRequest) (s : State) : Result :=
  match linkCtx s m.link with
  | none => .next (s.refuse m.source.toNat).changed
  | some (c, x) =>
    let range := (m.raddr.toNat, m.len.toNat)
    match firstFault s x x.arrDenied true false [range] with
    | some (va, p) => .next (s.arrivalFault c x 0 va false p).changed
    | none =>
      match readFail s x x.arrDenied range.1 range.2 with
      | some _ => .next ((s.forgetDenied c [range]).refuse m.source.toNat).changed
      | none =>
        let data := engineRead s x x.arrDenied range.1 range.2
        .next ((s.forgetDenied c [range]).answer
          (.data m.source.toNat m.token (payloadBytes data) (poisonedWords data))).changed

/-- The local writes of an RGET: the batch, or the page it parks on. The words at the offsets `poison` came from poisoned
bytes (17 R374; 20 R421). -/
def getWrites (s : State) (o : Op) (x : Context) (snap : SMap Region) (unit : Option Nat) (laddr : Nat) (bytes : List Byte)
    (poison : List Nat) : Except (Nat × Bool) EngW :=
  match firstFault s x o.denied false true [(laddr, bytes.length)] with
  | some vp => .error vp
  | none => .ok ((EngW.start s).write o.ctx snap none false unit o.denied laddr
      ((bytes.zip (List.range bytes.length)).map fun bi => some (bi.1, poison.contains (bi.2 / 4 * 4))))

/-- The bytes of a wave's RGET arrive; its counter is raised once its writes are complete (12 R312; 20 R417). -/
def finishGet (s : State) (o : Op) (x : Context) (n : NetOp) (regions : SMap Region) (loc : Option Nat) (laddr : Nat)
    (bytes : List Byte) (poison : List Nat) : State :=
  match getWrites s o x regions (some o.unit) laddr bytes poison with
  | .error (va, p) => s.park o 5 va true true p
  | .ok w =>
    let s1 := (w.s.deferWrites o w).clearPend o.ctx o.epend
    let o1 := { o with epend := [] }
    if w.horizon ≤ s1.pt then s1.endNet o1 loc
    else s1.setOp { o1 with horizon := some w.horizon, kind := .net n true regions loc }

/-- RGET_RESPONSE: the whole of the bytes asked for; of an RGET whose writes are performed, its completion
(DEDUCED: log entry 39). -/
def execRgetResponse (op : Nat) (data : GetData) (s : State) : Result :=
  let bytes := data.bytes
  let poison := data.poison
  match s.op op with
  | none => .next s
  | some o =>
    match s.ctx o.ctx with
    | none => .next s
    | some x =>
      if o.parked.isSome then .next s
      else match o.kind with
        | .net (.get laddr raddr len peer) true regions loc =>
          (match o.horizon with
          | some t => if t ≤ s.pt then .next (s.endNet o loc).changed else .next s
          | none =>
            if bytes.length ≠ len then .next s
            else .next (finishGet s o x (.get laddr raddr len peer) regions loc laddr bytes poison).changed)
        | .gate vd g d _ (some snap) _ =>
          if d.act ≠ actRget || o.note ≠ [2] || o.horizon.isSome || bytes.length ≠ d.fld 288 24 then .next s
          else match getWrites s o x snap none (d.fld 160 64) bytes poison with
            | .error (va, p) => .next (s.park o 5 va true true p).changed
            | .ok w => .next (w.s.actionWrote { o with note := [] } vd g w).changed
        | _ => .next s

/-! ## Answers of peers -/

/-- RPUT_ACKNOWLEDGE: of an RPUT, a raise, a gate's action or its chain step (20 R410, R417). -/
def execRputAcknowledge (op : Nat) (s : State) : Result :=
  match s.op op with
  | none => .next s
  | some o =>
    match o.kind with
    | .net (.get ..) .. => .next s
    | .net _ true _ loc => .next (s.endNet o loc).changed
    | .gate _ _ d _ (some _) _ =>
      if o.note = [1] then .next (s.gateDone o false).changed
      else if o.note = [2] && d.act ≠ actRget then .next (s.gateDone o true).changed
      else .next s
    | _ => .next s

/-- MESSAGE_UNDELIVERABLE (20 R419): the event, and what waits for the message goes on. -/
def execMessageUndeliverable (op : Nat) (s : State) : Result :=
  match s.op op with
  | none => .next s
  | some o =>
    match o.kind, s.ctx o.ctx with
    | .net n true _ loc, some x =>
      if o.horizon.isSome then .next s else .next (s.undeliverable x o n loc).changed
    | .gate vd g d _ (some _) _, some _ =>
      let addr : DWord := if d.act = actRput || d.act = actRget then BitVec.ofNat 64 (d.fld 224 64) else 0
      if o.note = [1] then .next ((s.gateEvent o.ctx vd 1 (gateRef vd g) 0).gateDone o false).changed
      else if o.note = [2] then .next (s.actionFailed o vd g addr).changed
      else .next s
    | _, _ => .next s

/-- UALINK_PORT_FAILURE: the port is fenced; messages go by other ports, which shows in nothing here (21 R433). -/
def execUalinkPortFailure (port : Nat) (s : State) : Result :=
  if 32 ≤ port then .next s
  else .next { s with boot := { s.boot with fenced := s.boot.fenced ||| (1#32 <<< port) } }.changed

end Sys2Proof.Machine
end

