-- ==== Sys2Proof/Machine/Records.lean ====
section
/-!
DEFINITION. Continuation records (11 R271 to R289): their fields, acceptance, the tree of graphs, phases and jobs, JOIN,
cancel and completion; the instructions SPAWN, JOIN, EVT and CANCEL; RINKQ, VDIE and HOPS (14 R324 to R327).
-/
namespace Sys2Proof.Machine

/-! ## The record (11 R271) -/

def Desc.code (d : Desc) : Nat := d.fld 0 64
def Desc.frame (d : Desc) : DWord := d.extractLsb' 64 64
def Desc.shx (d : Desc) : Nat := d.fld 160 32
def Desc.shy (d : Desc) : Nat := d.fld 192 16
def Desc.shz (d : Desc) : Nat := d.fld 208 16
def Desc.width (d : Desc) : Nat := d.fld 224 8
def Desc.waves (d : Desc) : Nat := d.fld 232 6
def Desc.vregs (d : Desc) : Nat := 8 * d.fld 240 8
def Desc.sregs (d : Desc) : Nat := 8 * d.fld 248 5
def Desc.cluster (d : Desc) : Nat := d.fld 253 2 + 1
def Desc.scratch (d : Desc) : Nat := 128 * d.fld 256 14
def Desc.prio (d : Desc) : Nat := d.fld 272 3
def Desc.rCmp (d : Desc) : Bool := d.getLsbD 275
def Desc.rSafe (d : Desc) : Bool := d.getLsbD 276
def Desc.rDir (d : Desc) : Bool := d.getLsbD 277
def Desc.ract (d : Desc) : BitVec 2 := d.extractLsb' 278 2
def Desc.gact (d : Desc) : BitVec 2 := d.extractLsb' 280 2
def Desc.pact (d : Desc) : BitVec 2 := d.extractLsb' 282 2
def Desc.jact (d : Desc) : BitVec 2 := d.extractLsb' 284 2
def Desc.sealG (d : Desc) : Bool := d.getLsbD 286
def Desc.sealP (d : Desc) : Bool := d.getLsbD 287
def Desc.sealJ (d : Desc) : Bool := d.getLsbD 288
def Desc.rState (d : Desc) : Nat := d.fld 296 8
def Desc.nsucc (d : Desc) : Nat := d.fld 304 8
def Desc.succ (d : Desc) : Nat := d.fld 320 64
def Desc.graph (d : Desc) : Nat := d.fld 384 12
def Desc.phase (d : Desc) : Nat := d.fld 396 8
def Desc.job (d : Desc) : Nat := d.fld 404 4
/-- NBLOCKS (11 R273). -/
def Desc.blocks (d : Desc) : Nat := d.shx * d.shy * d.shz
/-- The coordinates of block i (11 R273). -/
def Desc.coords (d : Desc) (i : Nat) : Word × Word × Word :=
  (BitVec.ofNat 32 (i % d.shx), BitVec.ofNat 32 (i / d.shx % d.shy), BitVec.ofNat 32 (i / (d.shx * d.shy)))

/-- Check 3 of R274, the reserved bits inside RES0 among its RSV fields. PRIO has three bits and cannot be out of range
(DEDUCED: log entry 50). -/
def Desc.recordOk (d : Desc) : Bool :=
  d.fld 238 2 = 0 && d.fld 255 1 = 0 && d.fld 270 2 = 0 && d.fld 289 7 = 0 && d.fld 312 8 = 0 && d.fld 408 8 = 0 && d.fld 480 32 = 0
    && 1 ≤ d.shx && 1 ≤ d.shy && 1 ≤ d.shz && d.blocks < 2 ^ 32 && (d.nsucc = 0 || d.succ % 8 = 0)

def stIdle : Nat := 0
def stWaiting : Nat := 1
def stQueued : Nat := 2
def stRunning : Nat := 3
def stDone : Nat := 4
def stCancelled : Nat := 5
def stFaulted : Nat := 6

/-- Writes of the device at a record's home. -/
def State.writeState (s : State) (pa st : Nat) : State := s.writeBytes (homeDie pa) (pa + 37) [BitVec.ofNat 8 st] false
def State.writeKey (s : State) (pa key : Nat) : State := s.writeBytes (homeDie pa) (pa + 52) (leBytes 8 key) false
def State.joinc (s : State) (pa : Nat) : Nat := s.readNat (pa + 16) 4

/-- The die that holds a context's sequencer (11, introduction). -/
def seqDie (x : Context) : Nat := x.table.headD 0

/-- The sequencer as the source of an event. -/
def seqSource : EventSource := ⟨6, 0, false⟩

/-- A record fault event (17 R384 class 3) (DEDUCED: log entry 50). -/
def State.recordFault (s : State) (c reason addr : Nat) : State :=
  match s.ctx c with
  | some x => s.post (seqDie x) true none [mkEvent s 3 reason c 0 0 0 6 false (BitVec.ofNat 64 addr) 0]
  | none => s

/-! ## Graphs, phases and jobs (11 R284 to R286) -/

def Context.graph (x : Context) (i : Nat) : Node := x.graphs.get Node.idle i
def Context.phase (x : Context) (i : Nat) : Node := x.phases.get Node.idle i
def Context.job (x : Context) (i : Nat) : Node := x.jobs.get Node.idle i

/-- An action (11 R286): an event where bit 0 is set, an interrupt where bit 1 is (DEDUCED: log entry 52). -/
def State.takeAction (s : State) (c level : Nat) (act : BitVec 2) (id : Nat) (cancelled faulted : Bool) : State :=
  let s1 := if act.getLsbD 1 then { s with irqs := s.irqs ++ [.completion c level id cancelled faulted] } else s
  match s.ctx c with
  | some x =>
    if act.getLsbD 0 then
      s1.post (seqDie x) false none
        [mkEvent s 4 level c 0 0 0 6 false (BitVec.ofNat 64 id) ((bit faulted ++ bit cancelled).setWidth 64)]
    else s1
  | none => s1

/-- Check 5 of R274. -/
def Context.treeOk (x : Context) (d : Desc) : Bool :=
  let g := x.graph d.graph
  let p := x.phase d.phase
  !(g.live && g.parent ≠ d.phase) && !(p.live && p.parent ≠ d.job)

/-- A member enters an entry. -/
def Node.enter (n : Node) (more : Nat) (parent : Nat) (act : BitVec 2) (closes : Bool) : Node :=
  { n with live := true, out := n.out + more, parent := parent, action := n.action ||| act, sealed := n.sealed || closes }

/-- Enter (11 R285). -/
def Context.enter (x : Context) (d : Desc) : Context :=
  let g := x.graph d.graph
  let p := x.phase d.phase
  let opensG := if g.live then 0 else 1
  let opensP := if g.live || p.live then 0 else 1
  { x with
    graphs := x.graphs.put Node.idle d.graph (g.enter 1 d.phase d.gact d.sealG)
    phases := x.phases.put Node.idle d.phase (p.enter opensG d.job d.pact d.sealP)
    jobs := x.jobs.put Node.idle d.job ((x.job d.job).enter opensP 0 d.jact d.sealJ) }

/-- Member done (11 R285): the entry after it, and whether it completes. -/
def Node.leave (n : Node) (cancelled faulted : Bool) : Node :=
  { n with out := n.out - 1, cancelled := n.cancelled || cancelled, faulted := n.faulted || faulted }
def Node.over (n : Node) : Bool := n.out = 0 && n.sealed

def State.jobDone (s : State) (c id : Nat) (cancelled faulted : Bool) : State :=
  match s.ctx c with
  | none => s
  | some x =>
    let n := (x.job id).leave cancelled faulted
    if n.over then (s.onCtx c fun x => { x with jobs := x.jobs.del id }).takeAction c 3 n.action id n.cancelled n.faulted
    else s.onCtx c fun x => { x with jobs := x.jobs.put Node.idle id n }
def State.phaseDone (s : State) (c id : Nat) (cancelled faulted : Bool) : State :=
  match s.ctx c with
  | none => s
  | some x =>
    let n := (x.phase id).leave cancelled faulted
    if n.over then
      ((s.onCtx c fun x => { x with phases := x.phases.del id }).takeAction c 2 n.action id n.cancelled n.faulted).jobDone c
        n.parent n.cancelled n.faulted
    else s.onCtx c fun x => { x with phases := x.phases.put Node.idle id n }
def State.graphDone (s : State) (c id : Nat) (cancelled faulted : Bool) : State :=
  match s.ctx c with
  | none => s
  | some x =>
    let n := (x.graph id).leave cancelled faulted
    if n.over then
      ((s.onCtx c fun x => { x with graphs := x.graphs.del id }).takeAction c 1 n.action id n.cancelled n.faulted).phaseDone c
        n.parent n.cancelled n.faulted
    else s.onCtx c fun x => { x with graphs := x.graphs.put Node.idle id n }

/-! ## JOIN at the home (11 R277, R278) -/

/-- A WAITING record enters its queue (DEDUCED: log entry 51). -/
def Context.queueRec (t pa : Nat) (x : Context) : Context :=
  { x with recs := x.recs.map fun r =>
      if r.pa = pa && r.state = .waiting then { r with state := .queued, queued := t } else r }

/-- The counter goes down by n, or is too small (DEDUCED: log entry 51). -/
def State.joinAt (s : State) (pa n : Nat) : Except Nat State :=
  let c := s.joinc pa
  if c < n then .error c
  else
    let s1 := s.writeBytes (homeDie pa) (pa + 16) (leBytes 4 (c - n)) false
    if c - n = 0 && s.readNat (pa + 37) 1 = stWaiting then
      let s2 := s1.writeState pa stQueued
      .ok { s2 with ctxs := s2.ctxs.map fun kx => (kx.1, kx.2.queueRec s.pt pa) }
    else .ok s1

/-! ## Cancel (11 R287, R288) -/

/-- A wave ends as if every live lane had executed WEXIT. -/
def Wave.exitAll (w : Wave) : Wave :=
  { w with exited := w.exited ||| lowMask w.count, regs := { w.regs with m := w.regs.m.put 0 0 0 } }

/-- Whether a wave belongs to a record. -/
def State.inRec (s : State) (c key : Nat) (w : Wave) : Bool :=
  match s.block w.block with
  | some b => b.ctx = c && b.record = key
  | none => false

/-- Ends a stopped wave (11 R288). -/
def State.endStopped (s : State) (u : Nat) : State :=
  match s.wave u with
  | some w => if w.run = .stopped then s.endWave u w.exitAll else s
  | none => s

/-- A hard cancel reaches the waves and forerunner contexts of a record: those that are stopped end, the others take the
CANCEL trap at their next boundary. -/
def State.deliverCancel (s : State) (c key : Nat) (word : Word) : State :=
  let mark (w : Wave) : Wave := if s.inRec c key w then { w with cancel := some word } else w
  let s1 : State := { s with
    waves := s.waves.map fun uw => (uw.1, mark uw.2)
    blocks := s.blocks.map fun kb => (kb.1, { kb.2 with stack := kb.2.stack.map fun e =>
      { e with saved := e.saved.map fun sw => { sw with wave := mark sw.wave } } }) }
  ((s1.waves.filter fun uw => s1.inRec c key uw.2).map (·.1)).foldl State.endStopped s1

/-- A cancel of one record (11 R287, R289) (DEDUCED: log entry 52). -/
def State.cancelRec (s : State) (c key : Nat) (hard : Bool) (word : Word) : State :=
  match (s.ctx c).bind fun x => x.rec? key with
  | none => s
  | some r =>
    let strength := if hard then 2 else 1
    let up (st : RecState) : State := s.onCtx c fun x => x.onRec key fun r =>
      { r with state := st, cancel := max r.cancel strength, word := if r.cancel < strength then word else r.word }
    match r.state with
    | .waiting | .queued => up .completing
    | .running =>
      let s1 := up .running
      if hard && r.cancel < 2 then s1.deliverCancel c key word else s1
    | .completing => s

/-- The strength recorded in an entry; an IDLE one records nothing. -/
def Node.strengthen (n : Node) (strength : Nat) (word : Word) : Node :=
  if n.live && n.cancel < strength then { n with cancel := strength, word := word } else n

/-- CANCEL's control word. -/
def ctlLevel (w : Word) : Nat := (w.extractLsb' 0 2).toNat
def ctlHard (w : Word) : Bool := w.getLsbD 2
def ctlId (w : Word) : Nat := (w.extractLsb' 4 12).toNat
/-- The limits of the control word (11 R287): an ID that its level's table has not, or one at level 0, fails as RSV does, at
check 6 (DEDUCED: log entry 51). -/
def ctlOk (w : Word) : Bool :=
  !w.getLsbD 3 && w.extractLsb' 16 16 = 0#16 && match ctlLevel w with
    | 0 => ctlId w = 0
    | 1 => true
    | 2 => ctlId w < 256
    | _ => ctlId w < 16

/-- The records a cancel names; at level 0 the one at the physical address, whichever mapping names it (DEDUCED: log
entry 51). -/
def cancelTargets (s : State) (x : Context) (word : Word) (addr : Nat) : List Nat :=
  let id := ctlId word
  let named (r : Rec) : Bool := match ctlLevel word with
    | 0 => match walk s x addr false false with
      | .ok e => r.pa = e.phys addr
      | _ => r.addr = addr
    | 1 => r.img.graph = id
    | 2 => r.img.phase = id
    | _ => r.img.job = id
  (x.recs.filter named).map (·.key)

/-- The strength goes into the entry a cancel names. -/
def Context.recordCancel (x : Context) (word : Word) : Context :=
  let id := ctlId word
  let k := if ctlHard word then 2 else 1
  match ctlLevel word with
  | 0 => x
  | 1 => { x with graphs := x.graphs.put Node.idle id ((x.graph id).strengthen k word) }
  | 2 => { x with phases := x.phases.put Node.idle id ((x.phase id).strengthen k word) }
  | _ => { x with jobs := x.jobs.put Node.idle id ((x.job id).strengthen k word) }

/-- CANCEL's effect at the sequencer. -/
def State.applyCancel (s : State) (c : Nat) (word : Word) (addr : Nat) : State :=
  match s.ctx c with
  | none => s
  | some x =>
    (cancelTargets s x word addr).foldl (fun st key => st.cancelRec c key (ctlHard word) word)
      (s.onCtx c fun x => x.recordCancel word)
/-- A cancel whose turn it is at the sequencer: one that finds the context descheduled is applied at its restore (17
R372). -/
def State.cancelNow (s : State) (c : Nat) (word : Word) (addr : Nat) : State :=
  match s.ctx c with
  | none => s
  | some x =>
    if x.live then s.applyCancel c word addr
    else s.onCtx c fun x => { x with cancels := x.cancels ++ [(word, addr)] }
/-- A cancel as it arrives: it is applied after what was submitted for the context before it (19 R394). -/
def State.cancel (s : State) (c : Nat) (word : Word) (addr : Nat) : State :=
  match s.ctx c with
  | none => s
  | some x =>
    if x.subs.isEmpty then s.cancelNow c word addr
    else s.onCtx c fun x => { x with subs := x.subs ++ [⟨[], none, [], 0, 0, some (word, addr)⟩] }

/-- Whether an operation is a read of scratch that waits on an empty line (07 R185) (DEDUCED: log entry 25). -/
def State.waitsEmpty (s : State) (o : Op) : Bool :=
  match o.kind with
  | .load .. | .ldt .. | .atomic .. => o.kind.accesses.any fun a => !a.glob && !scratchReady s a
  | k => (k.sources.zip (List.range k.sources.length)).any fun kn => !o.got.has kn.2 && !kn.1.full s
/-- The same of a matrix step's fetches (DEDUCED: log entry 25). -/
def State.matWaitsEmpty (s : State) (e : MatEntry) : Bool :=
  (s.block e.block).any fun b => (stepReads s e b).any fun k => !k.block.full k.off k.size
/-- The return-buffer entry that an operation delivers to. -/
def OpKind.entry : OpKind → Option Nat
  | .load _ _ _ entry => some entry
  | .ldt _ _ _ _ _ _ entry => some entry
  | .atomic _ _ _ _ _ entry _ _ => entry
  | _ => none
/-- Hard CANCEL ends a wave's waits on empty lines: the reads are not made, and leave what they would have written (07
R186) (DEDUCED: log entry 25). -/
def State.endLineWaits (s : State) (u : Nat) (w : Wave) : State :=
  let s1 := (s.ops.filter fun o => w.owns o.owner && s.waitsEmpty o).foldl (fun st o =>
    let st1 := (st.clearPend o.ctx o.epend).dropOp o.id
    match o.kind.entry with
    | some n => st1.onWave o.owner fun w => w.onEntry n Entry.fail
    | none => st1) s
  s1.onMat (unitCore u) fun m => { m with queue := m.queue.filter fun e => !(w.owns e.owner && s.matWaitsEmpty e) }

/-- A wave takes its pending CANCEL trap (11 R287, R288; 17 R355): as at any trap it parks, and a pending deferred error
comes first. A wave that the trap stops ends (DEDUCED: log entry 16). -/
def State.takeCancel (s0 : State) (u : Nat) (w0 : Wave) (word : Word) : State :=
  let s := s0.endLineWaits u w0
  let w := (s.wave u).getD w0
  if !w.arrived || !w.regs.vBusy.isEmpty then s.stall u
  else
    let w1 := { w.commit with wait := .none }
    let s1 := s.onMat (unitCore u) fun m => { m with waiters := m.waiters.filter fun x => x ≠ w.uid }
    let s2 := match w1.deferred with
      | d :: more => s1.enterTrap u { w1 with deferred := [] } ((d.lowest more).trap w.pc)
      | [] => s1.enterTrap u { w1 with cancel := none } ⟨causeCancel, word, 0⟩
    (s2.endStopped u).changed

/-- Whether a wave may take its CANCEL now: one that runs its handler holds it until ERET (04 R126), one that awaits a
home's answer receives it first (DEDUCED: log entry 16). -/
def Wave.cancelDue (w : Wave) : Option Word :=
  match w.cancel with
  | none => none
  | some word =>
    match w.wait with
    | .home _ => none
    | _ => if w.csr.hnd || w.run ≠ .running then none else some word

/-- A wave of a hard-cancelled record that stops later ends too (11 R288). -/
def State.reap (s : State) (u : Nat) : State :=
  match s.wave u with
  | some w =>
    if w.run ≠ .stopped then s
    else match s.block w.block with
      | some b => match (s.ctx b.ctx).bind fun x => x.rec? b.record with
        | some r => if r.cancel = 2 then (s.endStopped u).changed else s
        | none => s
      | none => s
  | none => s

/-! ## Acceptance (11 R274 to R276) -/

/-- The record as the tables of the sequencer hold it. -/
def newRec (key addr pa : Nat) (d : Desc) (st : RecState) (t : Nat) : Rec :=
  { key := key, addr := addr, pa := pa, img := d, state := st, queued := t, header := none, next := 0, live := 0
    cancel := 0, word := 0, faulted := false, held := [], contribs := [], rhz := 0, succ := 0, parked := none
    denied := [], replays := [] }

/-- The strongest cancel of the entries a record enters. -/
def Context.entered (x : Context) (d : Desc) : Nat × Word :=
  [x.graph d.graph, x.phase d.phase, x.job d.job].foldl (fun k n => if k.1 < n.cancel then (n.cancel, n.word) else k) (0, 0)

/-- Acceptance of a record that passes the checks (11 R275, R287). -/
def State.acceptRecord (s : State) (c : Nat) (x : Context) (a pa : Nat) (d : Desc) : State :=
  let key := x.keys + 1
  let ready := s.joinc pa = 0
  let s1 := (s.writeKey pa key).writeState pa (if ready then stQueued else stWaiting)
  let s2 := s1.onCtx c fun x =>
    let x1 := x.enter d
    { x1 with keys := key, recs := x1.recs ++ [newRec key a pa d (if ready then .queued else .waiting) s.pt] }
  let k := (x.enter d).entered d
  if k.1 = 0 then s2 else s2.cancelRec c key (k.1 = 2) k.2

/-- One record: the state after it, and the token it is parked on, if any (DEDUCED: log entries 12 and 50). -/
def acceptOne (s : State) (c : Nat) (x : Context) (denied : List Nat) (a : Nat) : State × Option Nat :=
  if a % 64 ≠ 0 then (s.recordFault c 1 a, none)
  else match via s x denied a true true with
    | .bad => (s.recordFault c 1 a, none)
    | .fault perm =>
      let (s1, token) := s.faultRecord c (vdCore x 0) seqSource a true false true perm
      (s1, some token)
    | .ok e =>
      let pa := e.phys a
      let d : Desc := BitVec.ofNat 512 (s.readNat pa 64)
      if d.rState ≠ stIdle then (s.recordFault c 2 a, none)
      else if !d.recordOk then ((s.writeState pa stFaulted).recordFault c 3 a, none)
      else if d.rCmp ≠ x.compulsory then ((s.writeState pa stFaulted).recordFault c 4 a, none)
      else if !x.treeOk d then ((s.writeState pa stFaulted).recordFault c 5 a, none)
      else (s.acceptRecord c x a pa d, none)

/-- The records of a batch in order; the rest of it waits with a parked one. -/
def acceptAll (c key block : Nat) : List Nat → List Nat → State → State
  | [], _, s => s
  | a :: rest, denied, s =>
    match s.ctx c with
    | none => s
    | some x =>
      match acceptOne s c x denied a with
      | (s1, some token) => s1.onCtx c fun x => { x with subs := ⟨a :: rest, some token, denied, key, block, none⟩ :: x.subs }
      | (s1, none) => acceptAll c key block rest [] s1

/-- RECORD_ACCEPTANCE: the sequencer accepts a context's oldest submission, or applies a cancel whose turn has come. -/
def execRecordAcceptance (ctx : Nat) (s : State) : Result :=
  match (s.ctx ctx).bind fun x => x.subs.head? with
  | none => .next s
  | some b =>
    if b.parked.isSome then .next s
    else
      let s1 := s.onCtx ctx fun x => { x with subs := x.subs.drop 1 }
      match b.cancel with
      | some (word, addr) => .next (s1.cancelNow ctx word addr).changed
      | none => .next ((acceptAll ctx b.key b.block b.addrs b.denied s1).checkBlock b.block).changed

/-! ## The instructions (11 R277, R287) -/

/-- SPAWN: submitted, or held for the record's completion or, in a replay-safe record, the block's retirement (11 R276;
17 R380). -/
def execSpawn (p : Bool) (a : BitVec 7) (s : State) : Result :=
  issue s p ⟨false, noEntry, notFore, [.ss a 2]⟩ fun u w blk =>
    let A := (w.rdS64 a).toNat
    if A % 64 ≠ 0 then .trap (misalignTrap A false 0)
    else if !s.released w .device then .stall
    else
      let s1 := s.setWave u w.next
      let h : HeldSpawn := ⟨blk.index, w.lanes.headD 0, w.csr.retired.toNat, A, blk.uid⟩
      if s.cmp blk || blk.rsafe then
        .done (s1.onCtx blk.ctx fun x => x.onRec blk.record fun r => { r with held := r.held ++ [h] })
      else .done (s1.onCtx blk.ctx fun x => { x with subs := x.subs ++ [⟨[A], none, [], 0, blk.uid, none⟩] })

/-- JOIN: waits for the home's answer (DEDUCED: log entry 51). -/
def execJoin (p : Bool) (a b : BitVec 7) (s : State) : Result :=
  issue s p ⟨false, noEntry, bothAllowed notFore notReplaySafe, [.ss a 2, .ss b 1]⟩ fun u w blk =>
    let A := (w.rdS64 a).toNat
    let n := (w.rdS b).toNat
    if A % 64 ≠ 0 then .trap (misalignTrap A false 0)
    else if n = 0 then .done (s.setWave u w.next)
    else if !s.released w .device then .stall
    else match via s (s.ctxD blk) w.denied A true true with
      | .bad => .done (s.setWave u (w.answeredErr causePage A))
      | .fault perm => .done (s.waitHome u w blk A true perm)
      | .ok e => match s.joinAt (e.phys A) n with
        | .error c => .trap (wordTrap s causeJoinUnderflow (BitVec.ofNat 32 c))
        | .ok s1 => .done (s1.setWave u w.answered)

/-- EVT: a pair of program events; the wave waits while its die has no room for them (11 R277; 17 R385, R387). -/
def execEvt (p : Bool) (a b : BitVec 7) (s : State) : Result :=
  issue s p ⟨false, noEntry, notFore, [.ss a 1, .ss b 1]⟩ fun u w blk =>
    let die := coreDie (unitCore u)
    let head := waveEvent s u w 5 0 (w.rdS b ++ w.rdS a) blk.recAddr
    let tail := waveEvent s u w 5 1 (BitVec.ofNat 32 (w.first / w.width) ++ BitVec.ofNat 32 blk.index) 0
    .done ((s.setWave u { w.next with evtHeld := !s.eventRoom die 2 }).post die true (some w.uid) [head, tail])

/-- CANCEL. -/
def execCancel (p : Bool) (a b : BitVec 7) (s : State) : Result :=
  issue s p ⟨false, noEntry, bothAllowed notFore notReplaySafe, [.ss a 1, .ss b 2]⟩ fun u w blk =>
    let word := w.rdS a
    let A := (w.rdS64 b).toNat
    if !ctlOk word then .trap (illegal s 6)
    else if ctlLevel word = 0 && A % 64 ≠ 0 then .trap (misalignTrap A false 0)
    else if !s.released w .device then .stall
    else .done ((s.setWave u w.next).cancel blk.ctx word A)

/-! ## Completion (11 R283) -/

/-- Writes that a record's completion waits for: stores and atomics, and the engine writes its waves issued, those into
scratch and registers among them (DEDUCED: log entry 52). -/
def OpKind.completes : OpKind → Bool
  | .store .. | .atomic .. | .faddo .. | .acp .. | .acps .. | .tcpy .. | .tcpys .. | .tcpyv .. | .teasel .. => true
  | .net (.get ..) .. => true
  | _ => false

/-- No placed block is left and none is to be placed. -/
def Rec.spent (r : Rec) : Bool :=
  r.live = 0 && match r.state with
    | .completing => true
    | .running => r.cancel ≠ 0 || r.faulted || (r.next = r.img.blocks && r.replays.isEmpty)
    | _ => false

/-- The order of held SPAWNs in compulsory mode (11 R276). -/
def HeldSpawn.before (a b : HeldSpawn) : Bool :=
  decide (a.index < b.index) || (a.index = b.index && (decide (a.first < b.first) || (a.first = b.first &&
    (decide (a.retired < b.retired) || (a.retired = b.retired && decide (a.addr ≤ b.addr))))))

/-- What a step of a completion comes to: it parks, or goes on. -/
inductive SuccStep
  | park (va : Nat) (write perm : Bool)
  | done (s : State)

/-- Step 4 for the successor at address a. -/
def succOne (s : State) (c : Nat) (x : Context) (r : Rec) (a : Nat) : SuccStep :=
  if a % 64 ≠ 0 then .done (s.recordFault c 1 a)
  else match via s x r.denied a true true with
    | .bad => .done (s.recordFault c 1 a)
    | .fault perm => .park a true perm
    | .ok e =>
      if r.faulted || r.cancel ≠ 0 then
        .done ((x.recs.filter fun q => q.pa = e.phys a).foldl (fun st q => st.cancelRec c q.key false 0) s)
      else match s.joinAt (e.phys a) 1 with
        | .ok s1 => .done s1
        | .error _ => .done (s.recordFault c 7 a)

/-- The entry of the successor list that comes next, read as the record completes (11 R272) (DEDUCED: log entry 50). -/
def succNext (s : State) (c : Nat) (x : Context) (r : Rec) : SuccStep :=
  let at_ := r.img.succ + 8 * (r.succ - 1)
  match via s x r.denied at_ true false with
  | .bad => .done (s.recordFault c 1 at_)
  | .fault perm => .park at_ false perm
  | .ok e => succOne s c x r (s.readNat (e.phys at_) 8)

/-- Step 4: the successors that are left, in list order. -/
def succAll (c key : Nat) : Nat → State → State
  | 0, s => s
  | n + 1, s =>
    match s.ctx c with
    | none => s
    | some x =>
      match x.rec? key with
      | none => s
      | some r =>
        if r.img.nsucc < r.succ then s
        else match succNext s c x r with
          | .park va write perm =>
            let (s1, token) := s.faultRecord c (vdCore x 0) seqSource va write false true perm
            s1.onCtx c fun x => x.onRec key fun r => { r with parked := some token }
          | .done s1 => succAll c key n (s1.onCtx c fun x => x.onRec key fun r => { r with succ := r.succ + 1, denied := [] })

/-- Steps 5 and 6, and the end of the conflict interval (12 R313) (DEDUCED: log entry 52). -/
def State.closeRec (s : State) (c : Nat) (r : Rec) : State :=
  let can := r.cancel ≠ 0 && !r.faulted
  let s1 := s.onCtx c fun x => { x with recs := x.recs.filter fun q => q.key ≠ r.key }
  ((s1.takeAction c 0 r.img.ract r.addr can r.faulted).graphDone c r.img.graph can r.faulted).endInterval c

/-- The STATE that step 3 writes: 6 of a record faulted by the loss of a core (17 R381); a record that faulted before any
block was placed (its header was never accepted) has its 6 already, and step 3 leaves it. -/
def Rec.endState (r : Rec) : Option Nat :=
  if r.faulted then (if r.header.isSome then some stFaulted else none) else some (if r.cancel ≠ 0 then stCancelled else stDone)

/-- Steps 3 to 6. -/
def State.finishRec (s : State) (c : Nat) (r : Rec) : State :=
  let s1 :=
    if r.succ = 0 then
      (match r.endState with
        | some st => s.writeState r.pa st
        | none => s).onCtx c fun x =>
        x.onRec r.key fun r => { r with succ := 1 }
    else s
  let s2 := succAll c r.key 256 s1
  match (s2.ctx c).bind fun x => x.rec? r.key with
  | some r2 => if r2.parked.isNone && r2.img.nsucc < r2.succ then s2.closeRec c r2 else s2
  | none => s2

/-- Steps 1 and 2: what is still outstanding is waited for, contributions are applied. In compulsory mode the interval
that ends here is a release of the whole context (12 R313) (DEDUCED: log entry 52). -/
def State.settleRec (s : State) (c : Nat) (x : Context) (r : Rec) : State :=
  if x.subs.any (fun b => b.key = r.key) || s.ops.any (fun o => o.ctx = c && o.key = r.key && o.kind.completes)
      || s.pt < r.rhz || !s.quiet c then s
  else if r.contribs.isEmpty then s.finishRec c r
  else
    let (s1, t) := applyContribs s r.contribs
    s1.onCtx c fun x => { x.onRec r.key fun r => { r with contribs := [], rhz := max r.rhz t } with faddoFull := false }

/-- RECORD_COMPLETION: a completion goes as far as it can. In compulsory mode the held SPAWNs are submitted first (11
R276). -/
def execRecordCompletion (ctx key : Nat) (s : State) : Result :=
  match s.ctx ctx with
  | none => .next s
  | some x =>
    match x.rec? key with
    | none => .next s
    | some r =>
      if !r.spent || r.parked.isSome || !(x.live || x.destroying.isSome) then .next s
      else
        let l := (sortBy HeldSpawn.before r.held).map (·.addr)
        let s1 := s.onCtx ctx fun x =>
          let x1 := x.onRec key fun r => { r with state := .completing, held := [] }
          { x1 with subs := if l.isEmpty then x1.subs else x1.subs ++ [⟨l, none, [], key, 0, none⟩] }
        match s1.ctx ctx with
        | some x1 => .next (s1.settleRec ctx x1 { r with state := .completing, held := [] }).changed
        | none => .next s1

/-! ## RINKQ, VDIE and HOPS (14 R324 to R327) -/

/-- The query of a selector with an argument below its limit. -/
def rinkQuery (s : State) (x : Context) (sel n : Nat) : Option Word :=
  let die := x.table.getD n 0
  let limit := if sel = 6 then 32 * x.nv else x.nv
  if 6 < sel || (sel ≠ 0 && limit ≤ n) then none
  else
    let cmp := x.compulsory
    let half (m : SMap (BitVec 36)) (hi : Bool) : Word :=
      let v := m.get 0 die
      if hi then (v.extractLsb' 32 4).setWidth 32 else v.extractLsb' 0 32
    some (match sel with
      | 0 => BitVec.ofNat 32 x.nv
      | 1 => BitVec.ofNat 32 (if cmp then n else die)
      | 2 => if cmp then 0xFFFFFFFF else half s.boot.harvest false
      | 3 => if cmp then 0 else half s.boot.harvest true
      | 4 => if cmp then 0 else half s.boot.spare false
      | 5 => if cmp then 0 else half s.boot.spare true
      | _ => BitVec.ofNat 32 (if cmp then n % 32 else 
          (s.boot.lct.find (32 * x.table.getD (n / 32) 0 + n % 32)).getD Config.unsetCore.toNat))

def execRinkq (p : Bool) (d a b : BitVec 7) (s : State) : Result :=
  issue s p ⟨false, noEntry, anywhere, [.sd d 1, .ss a 1, .ss b 1]⟩ fun u w blk =>
    match rinkQuery s (s.ctxD blk) (w.rdS a).toNat (w.rdS b).toNat with
    | some v => .done (s.setWave u (w.wrS d v).next)
    | none => .trap (illegal s 6)

/-- The home of an address as VDIE reports it. -/
def homeOf (s : State) (x : Context) (va : Nat) : Word :=
  match walk s x va false false with
  | .ok e => if homeDie (e.phys va) = 4 then 4 else BitVec.ofNat 32 (x.vdOf (homeDie (e.phys va)))
  | _ => 0xFFFFFFFF

def execVdie (p : Bool) (d a : BitVec 7) (s : State) : Result :=
  issue s p ⟨false, noEntry, anywhere, [.sd d 1, .ss a 2]⟩ fun u w blk =>
    let x := s.ctxD blk
    if x.compulsory then .trap (conflictTrap s)
    else .done (s.setWave u (w.wrS d (homeOf s x (w.rdS64 a).toNat)).next)

/-- The number of set bits. -/
def popcount2 (n : Nat) : Nat := n % 2 + n / 2 % 2

def execHops (p : Bool) (d a b : BitVec 7) (s : State) : Result :=
  issue s p ⟨false, noEntry, anywhere, [.sd d 1, .ss a 1, .ss b 1]⟩ fun u w blk =>
    let nv := (s.ctxD blk).nv
    let i := (w.rdS a).toNat
    let j := (w.rdS b).toNat
    if nv ≤ i || nv ≤ j then .trap (illegal s 6)
    else .done (s.setWave u (w.wrS d (BitVec.ofNat 32 (popcount2 (i ^^^ j)))).next)

end Sys2Proof.Machine
end

