-- ==== Sys2Proof/Machine/Place.lean ====
section
/-!
DEFINITION. Dispatch (11 R279 to R282): the kernel header and its checks (03 R99 to R101), the choice of context and
record, the placement of blocks and groups (06 R164, R165; 10 R253, R254, R257) and launch (02 R63; 01 R26).
-/
namespace Sys2Proof.Machine

/-! ## The kernel header (03 R99, R100) -/

abbrev Header := BitVec 128

def Header.fld (h : Header) (lo n : Nat) : Nat := (h.extractLsb' lo n).toNat
def Header.width (h : Header) : Nat := Header.fld h 0 8
def Header.waves (h : Header) : Nat := Header.fld h 8 6
def Header.commWave (h : Header) : Option Nat := if h.getLsbD 53 then some (Header.fld h 48 5) else none
def Header.foreOff (h : Header) : Nat := Header.fld h 64 32

/-- The ranges of the header's fields (DEDUCED: log entry 50). -/
def Header.ok (h : Header) : Bool :=
  let fore := Header.foreOff h
  [8, 16, 32, 64].contains (Header.width h) && 1 ≤ Header.waves h && Header.waves h ≤ 32 && Header.fld h 14 2 = 0
    && 1 ≤ Header.fld h 16 8 && Header.fld h 16 8 ≤ 32 && 1 ≤ Header.fld h 24 5 && Header.fld h 24 5 ≤ 16
    && !h.getLsbD 31 && Header.fld h 32 14 ≤ 8192 && Header.fld h 46 2 = 0 && Header.fld h 54 10 = 0
    && (fore = 0 || (16 ≤ fore && fore % 4 = 0)) && Header.fld h 96 32 = 0
    && match Header.commWave h with
      | some k => k < Header.waves h
      | none => true
/-- The header's resources equal the record's. -/
def Header.agrees (h : Header) (d : Desc) : Bool := Header.fld h 0 32 = d.fld 224 32 && Header.fld h 32 14 = d.fld 256 14

/-! ## What a core has free (06 R164, R165) -/

/-- Wave slots and lane-registers of a slice. -/
structure SliceFree where
  slots : List Nat
  regs : Nat

def sliceRegs : Nat := 32768
/-- Blocks that have not retired. -/
def coreBlocks (s : State) (core : Nat) : List Block :=
  (s.blocks.filter fun kb => kb.2.core = core && !kb.2.ended).map (·.2)
/-- Slots of running waves and of the meeting waves that a multi-way branch has saved. -/
def usedSlots (s : State) (core : Nat) : List Nat :=
  ((s.waves.filter fun uw => unitCore uw.1 = core && !uw.2.fore).map fun uw => unitSlot uw.1)
    ++ (coreBlocks s core).flatMap fun b => b.stack.flatMap fun e => e.saved.map SavedWave.slot
def coreFree (s : State) (core : Nat) : List SliceFree :=
  let used := usedSlots s core
  let bs := coreBlocks s core
  (List.range 8).map fun k =>
    ⟨((List.range 4).map (4 * k + ·)).filter fun n => !used.contains n,
      sliceRegs - (bs.map fun b => b.laneRegs.getD k 0).foldl (· + ·) 0⟩
def emptyCore : List SliceFree := (List.range 8).map fun k => ⟨(List.range 4).map (4 * k + ·), sliceRegs⟩

/-- The spans of a block: how many waves each holds. -/
def spanWaves (d : Desc) : List Nat :=
  let per := if d.width ≤ 16 then 4 else if d.width = 32 then 2 else 1
  (List.range ((d.waves + per - 1) / per)).map fun i => min per (d.waves - per * i)

/-- A span goes into the first slice with room for it. -/
def takeSpan (n regs : Nat) : List SliceFree → Option (List Nat × List SliceFree)
  | [] => none
  | f :: t =>
    if n ≤ f.slots.length && regs ≤ f.regs then some (f.slots.take n, ⟨f.slots.drop n, f.regs - regs⟩ :: t)
    else (takeSpan n regs t).map fun r => (r.1, f :: r.2)
/-- The slots of a block's waves, in increasing WAVEID. -/
def placeSpans (per : Nat) : List Nat → List SliceFree → Option (List Nat)
  | [], _ => some []
  | n :: rest, f => (takeSpan n (n * per) f).bind fun r => (placeSpans per rest r.2).map (r.1 ++ ·)

/-- Whether an empty core has room for a block: its slots, lane-registers and scratch (06 R165). -/
def fitsEmpty (d : Desc) : Bool := d.scratch ≤ 2 ^ 20 && (placeSpans (d.width * d.vregs) (spanWaves d) emptyCore).isSome

/-- A physical die's logical core has a core behind it (14 R322, R323). -/
def coreSet (s : State) (core : Nat) : Bool := s.boot.lct.has core

/-- Whether a block keeps its scratch from other blocks: until its last wave has ended (06 R164), in a group until all of
it has (10 R255) (DEDUCED: log entry 29). -/
def holdsScratch (s : State) (b : Block) : Bool :=
  !b.freed && (1 < b.groupSize || !b.stack.isEmpty || s.waves.any fun uw => uw.2.block = b.uid && !uw.2.fore)

/-- A block's slots on a core where it fits. Nothing is launched on a core that is stopped for its temperature (19 R401). -/
def fitsOn (s : State) (core : Nat) (d : Desc) : Option (List Nat) :=
  let held := ((s.blocks.filter fun kb => kb.2.core = core && holdsScratch s kb.2).map fun kb => kb.2.scratch).foldl (· + ·) 0
  if coreSet s core && s.runs core && (coreBlocks s core).length < 8 && held + d.scratch ≤ 2 ^ 20 then
    placeSpans (d.width * d.vregs) (spanWaves d) (coreFree s core)
  else none

/-! ## Preparing a record (11 R282) -/

/-- A record that cannot be placed: FAULTED, completing with no blocks. -/
def State.failRec (s : State) (c : Nat) (r : Rec) : State :=
  ((s.writeState r.pa stFaulted).recordFault c 6 r.addr).onCtx c fun x => x.onRec r.key fun r =>
    { r with state := .completing, faulted := true }

/-- The header at a record's first placement, read and checked once (11 R282; 03 R100; 10 R253): the state after it, and
the header where the record may be placed (DEDUCED: log entry 50). -/
def State.readHeader (s : State) (c : Nat) (x : Context) (r : Rec) : State × Option Header :=
  let a := r.img.code
  match r.header with
  | some h => (s, some h)
  | .none =>
    if a % 16 ≠ 0 || r.img.blocks % r.img.cluster ≠ 0 then (s.failRec c r, .none)
    else match via s x r.denied a true false with
      | .fault perm =>
        let (s1, token) := s.faultRecord c (vdCore x 0) seqSource a false false true perm
        (s1.onCtx c fun x => x.onRec r.key fun r => { r with parked := some token }, .none)
      | .bad => (s.failRec c r, .none)
      | .ok e =>
        let h : Header := BitVec.ofNat 128 (s.readNat (e.phys a) 16)
        if Header.ok h && Header.agrees h r.img then
          (s.onCtx c fun x => x.onRec r.key fun r => { r with header := some h, denied := [] }, some h)
        else (s.failRec c r, .none)

/-! ## The choice of record (11 R279, R280) -/

/-- The effective priority. -/
def Rec.prio (pt : Nat) (r : Rec) : Nat := min 7 (r.img.prio + (pt - r.queued) / 1000000)
/-- Whether a goes before b in default mode. -/
def Rec.ahead (pt : Nat) (a b : Rec) : Bool :=
  decide (b.prio pt < a.prio pt) || (a.prio pt = b.prio pt &&
    (decide (a.queued < b.queued) || (a.queued = b.queued && decide (a.key < b.key))))

/-- The first of a list by an order. -/
def bestRec (before : Rec → Rec → Bool) : List Rec → Option Rec
  | [] => none
  | r :: rest => match bestRec before rest with
    | some q => if before q r then some q else some r
    | none => some r

/-- Whether blocks of a running record are still to be placed. -/
def Rec.placing (r : Rec) : Bool :=
  r.state = .running && r.cancel = 0 && !r.faulted && (!r.replays.isEmpty || r.next < r.img.blocks)

/-- The record at the head of a context's order. -/
def Context.head (x : Context) (pt : Nat) : Option Rec :=
  match x.recs.find? Rec.placing with
  | some r => some r
  | .none =>
    let queued := x.recs.filter fun r => r.state = .queued
    if x.compulsory then
      if x.recs.any fun r => r.state = .running || r.state = .completing then .none
      else bestRec (fun a b => decide (a.key < b.key)) queued
    else bestRec (Rec.ahead pt) queued

/-! ## Where the next block or group goes (11 R282; 10 R254) -/

/-- The placement of a block or group: the first block, its cores and the waves' slots of each, and the pointer. -/
structure Placement where
  first : Nat
  cores : List (Nat × List Nat)
  ptr : Nat
  replay : Bool

/-- The physical core of a rink-wide logical core. -/
def physCore (x : Context) (l : Nat) : Nat := 32 * x.table.getD (l / 32) 0 + l % 32
/-- Every block of a group on consecutive cores from rink core l on. -/
def groupOn (s : State) (x : Context) (d : Desc) (l : Nat) : Option (List (Nat × List Nat)) :=
  (List.range d.cluster).foldr (fun r acc => acc.bind fun t =>
    (fitsOn s (physCore x (l + r)) d).map fun slots => (physCore x (l + r), slots) :: t) (some [])
/-- A group needs a free cluster barrier. -/
def barrierFree (s : State) (x : Context) (l : Nat) : Bool :=
  ((s.groups.filter fun g => g.2.base = physCore x (l / 4 * 4)).length) < 4

/-- Whether a block fits an empty core and a group an empty logical cluster of the rink: one with enough consecutive set
cores, from the first on in compulsory mode (10 R253, R254; 11 R282). -/
def placeable (s : State) (x : Context) (d : Desc) : Bool :=
  let g := d.cluster
  let holds (l : Nat) : Bool := (List.range g).all fun r => coreSet s (physCore x (l + r))
  fitsEmpty d && (g = 1 || (List.range (8 * x.nv)).any fun cl =>
    (List.range (if x.compulsory then 1 else 4 - g + 1)).any fun o => holds (4 * cl + o))

/-- A place that starts at rink core l. -/
def placeAt (s : State) (x : Context) (d : Desc) (l : Nat) : Option (List (Nat × List Nat)) :=
  if 1 < d.cluster && !barrierFree s x l then none else groupOn s x d l

/-- The next block or group of a record, where it fits. -/
def nextPlace (s : State) (x : Context) (r : Rec) : Option Placement :=
  let d := r.img
  let g := d.cluster
  let n := 32 * x.nv
  match r.replays with
  | (b, l) :: _ => (placeAt s x d l).map fun cs => ⟨b, cs, x.ptr, true⟩
  | [] =>
    if x.compulsory then
      let l := if g = 1 then r.next % n else 4 * (r.next / g % (n / 4))
      (placeAt s x d l).map fun cs => ⟨r.next, cs, x.ptr, false⟩
    else if g = 1 then
      ((List.range n).findSome? fun i =>
        let l := (x.ptr + i) % n
        (placeAt s x d l).map fun cs => ⟨r.next, cs, (l + 1) % n, false⟩)
    else
      ((List.range (n / 4)).findSome? fun i =>
        let cl := (x.ptr / 4 + i) % (n / 4)
        (List.range (4 - g + 1)).findSome? fun o =>
          (placeAt s x d (4 * cl + o)).map fun cs => ⟨r.next, cs, 4 * (cl + 1) % n, false⟩)

/-! ## Launch (02 R63; 03 R101; 06 R173) -/

def Csrs.launch : Csrs :=
  { wpart := 0, retired := 0, rhz := 0, clockHi := 0, retiredHi := 0, rhzHi := 0, fsticky := 0, ftrapen := 0, seed := 0
    cza := 0x80, czb := 0x80, zpair := 0, winbase := 0, comm := false, hnd := false, trapcause := 0, trappc := 0
    info0 := 0, info1 := 0 }

/-- The scalar registers at launch: s4:s5 hold the frame pointer. -/
def launchScalars (d : Desc) : SMap Word :=
  SMap.put 0 (SMap.put 0 [] 4 (d.frame.extractLsb' 0 32)) 5 (d.frame.extractLsb' 32 32)

/-- A wave at launch, of width W and first lane F; W is 0 for a forerunner context. -/
def launchWave (uid block W F : Nat) (pc : DWord) (d : Desc) (comm : Bool) : Wave :=
  let lanes := (List.range W).map (F + ·)
  { uid := uid, kin := [], block := block, fore := W = 0, width := W, cpt := false, lanes := lanes, first := F, exited := 0
    pc := pc
    regs :=
      { v := [], e := [], s := launchScalars d, m := SMap.put 0 [] 0 (lowMask W)
        gen := (lanes.zip (List.range W)).foldl (fun m qp => SMap.put 0 m qp.2 (seedLane 0 qp.1)) []
        vPoison := [], ePoison := [], sPoison := [], vBusy := [] }
    csr := { Csrs.launch with comm := comm }
    rb := [], deferred := [], run := .running, wait := .none, word := 0, parking := false, trapping := false, cancel := none, dqPos := 0
    tags := List.replicate 8 none, ctag := none, faddoN := [], ordLoads := 0, ordStores := 0, seen := 0, evtHeld := false
    denied := [], fetchDenied := false }

/-- Lane-registers of each slice that a block's launch waves take. -/
def launchRegs (d : Desc) (slots : List Nat) : List Nat :=
  (List.range 8).map fun k => (slots.filter fun n => n / 4 = k).length * (d.width * d.vregs)

/-- One block on a core. -/
def launchBlock (s : State) (c : Nat) (r : Rec) (h : Header) (index rank group : Nat)
    (core : Nat) (slots : List Nat) (replay : Bool) : State :=
  let d := r.img
  let uid := s.fresh
  let slot := ((List.range 8).find? fun k => !(coreBlocks s core).any fun b => b.slot = k).getD 0
  let code : DWord := BitVec.ofNat 64 d.code
  let b : Block :=
    { uid := uid, ctx := c, record := r.key, index := index, coord := d.coords index, core := core, slot := slot
      group := group, rank := rank, groupSize := d.cluster, vregs := d.vregs, sregs := d.sregs, scratch := d.scratch
      data := [], side := [], fe := [], scrPoison := [], barriers := [], dq := [], dqBase := 0, stack := []
      scrRecords := [], replay := replay, recAddr := BitVec.ofNat 64 r.addr, nblocks := BitVec.ofNat 32 d.blocks
      rsafe := d.rSafe, rdir := d.rDir, lanes := d.width * d.waves, laneRegs := launchRegs d slots, ended := false
      horizon := 0, freed := false }
  let s1 := (slots.zip (List.range slots.length)).foldl (fun st ki =>
    st.setWave (64 * core + ki.1)
      (launchWave (uid + 1 + ki.2) uid d.width (d.width * ki.2) (code + 16) d (Header.commWave h = some ki.2))) (s.setBlock b)
  let s2 :=
    if Header.foreOff h = 0 then s1
    else s1.setWave (64 * core + 32 + slot)
      (launchWave (uid + 1 + slots.length) uid 0 0 (code + BitVec.ofNat 64 (Header.foreOff h)) d false)
  let s3 := { s2 with fresh := uid + 2 + slots.length }
  s3.newInterval b

/-- A block or group starts in one dispatch step. -/
def State.place (s : State) (c : Nat) (r : Rec) (h : Header) (p : Placement) : State :=
  let group := s.fresh
  let s1 := (p.cores.zip (List.range p.cores.length)).foldl (fun st ci =>
    launchBlock st c r h (p.first + ci.2) ci.2 group ci.1.1 ci.1.2 p.replay) s
  let n := p.cores.length
  let base := (p.cores.headD (0, [])).1 / 4 * 4
  let taken := (s.groups.filter fun g => g.2.base = base).map fun g => g.2.slot
  let s2 : State :=
    if n < 2 then s1
    else
      let slot := ((List.range 4).find? fun k => !taken.contains k).getD 0
      { s1 with groups := s1.groups.ins group ⟨base, slot, Barrier.launch⟩ }
  let s3 := s2.onCtx c fun x =>
    { x.onRec r.key fun r =>
        { r with
          state := .running, live := r.live + n, next := if p.replay then r.next else r.next + n
          replays := if p.replay then r.replays.drop 1 else r.replays } with
      ptr := p.ptr }
  if r.state = .queued then s3.writeState r.pa stRunning else s3

/-! ## A dispatch step (11 R281) -/

/-- A context that asks for a dispatch step: its head record and the place of that record's next block or group. -/
structure Bid where
  c : Nat
  x : Context
  r : Rec
  p : Placement

/-- The bid of a resident context. -/
def eligible (s : State) (kx : Nat × Context) : Option Bid :=
  if kx.2.residency ≠ .resident then none
  else (kx.2.head s.pt).bind fun r =>
    if r.parked.isSome then none else (nextPlace s kx.2 r).map fun p => ⟨kx.1, kx.2, r, p⟩

/-- The greatest credit once weights are added; the lowest number wins a tie. -/
def winner (l : List Bid) : Option Bid :=
  l.foldl (fun acc e => match acc with
    | none => some e
    | some w => if w.x.credit + w.x.weight < e.x.credit + e.x.weight then some e else some w) none

/-- The records that no empty core or cluster could hold never get a step: they fail at the head of their order. -/
def State.refuseHeads (s : State) : State :=
  s.ctxs.foldl (fun st kx =>
    if kx.2.residency ≠ .resident then st
    else match kx.2.head st.pt with
      | some r => if r.header.isNone && r.parked.isNone && !placeable st kx.2 r.img then st.failRec kx.1 r else st
      | none => st) s

/-- The dies whose contexts compete with those of the given dies for cores (11 R281). -/
def sharedDies (s : State) : Nat → List Nat → List Nat
  | 0, ds => ds
  | n + 1, ds => sharedDies s n ((ds ++ s.ctxs.flatMap fun kx =>
      if kx.2.residency = .resident && kx.2.table.any ds.contains then kx.2.table else []).eraseDups)

/-! ### Cores that are not set (17 R382) -/

/-- The host or the device asks for the pre-emption of a context: no block is placed and no instruction issues. -/
def State.startPreempt (s : State) (c : Nat) : State :=
  s.onCtx c fun x => if x.residency = .resident then { x with residency := .preempting } else x

/-- A0 of a core event: the physical core and die; a job fault's names the job too (DEDUCED: log entry 55). -/
def coreWord (die p job : Nat) : DWord := BitVec.ofNat 64 (p + 64 * die + 2 ^ 32 * job)

/-- A compulsory context whose next block is due on a core that is not set: the record and the logical core. The context
is pre-empted by the device and reported (17 R382). -/
def dueOnUnset (s : State) (x : Context) : Option (Rec × Nat) :=
  if !x.compulsory || x.residency ≠ .resident then none
  else (x.head s.pt).bind fun r =>
    let g := r.img.cluster
    let n := 32 * x.nv
    let first := match r.replays with
      | (_, l) :: _ => l
      | [] => if g = 1 then r.next % n else 4 * (r.next / g % (n / 4))
    (((List.range g).map fun i => physCore x (first + i)).find? fun k => !coreSet s k).map fun k => (r, k)
def State.preemptUnset (s : State) : State :=
  s.ctxs.foldl (fun st kx => match dueOnUnset s kx.2 with
    | some (r, k) =>
      (st.startPreempt kx.1).post (seqDie kx.2) false none
        [mkEvent st 8 1 kx.1 0 0 0 7 false (coreWord (coreDie k) (s.boot.lastCore.get (k % 32) k) 0) (BitVec.ofNat 64 r.addr)]
    | none => st) s

/-- One dispatch step among the contexts that share the cores of the given dies (11 R281) (DEDUCED: log entry 52). -/
def State.dispatchAmong (s : State) (dies : List Nat) : State :=
  let l := (s.ctxs.filter fun kx => kx.2.table.any dies.contains).filterMap (eligible s)
  match winner l with
  | none => s
  | some e =>
    match s.readHeader e.c e.x e.r with
    | (s1, none) => s1
    | (s1, some h) =>
      let total : Int := (l.map fun e => (e.x.weight : Int)).foldl (· + ·) 0
      (l.foldl (fun st b => st.onCtx b.c fun y =>
        { y with credit := y.credit + y.weight - if b.c = e.c then total else 0 }) s1).place e.c e.r h e.p

/-- DISPATCH_STEP: a step for the contexts of each group of dies that share cores (DEDUCED: log entry 52). -/
def execDispatchStep (s : State) : Result :=
  let s1 := s.refuseHeads.preemptUnset
  .next ((List.range 4).foldl (fun st d =>
    let dies := sharedDies s1 4 [d]
    if dies.any (· < d) then st else st.dispatchAmong dies) s1).changed

end Sys2Proof.Machine
end

