-- ==== Sys2Proof/Machine/Stash.lean ====
section
/-!
DEFINITION. The stash codec (16 R340 to R346): the encoding of 64 values into a block and the decoding of a block.
-/
namespace Sys2Proof.Machine

/-- The two forms of a block (16 R340): bytes and magnitude bits. -/
structure StashForm where
  size : Nat
  f : Nat
def stash64 : StashForm := ⟨64, 6⟩
def stash32 : StashForm := ⟨32, 2⟩

/-- The types a stash holds (16 R349). -/
def stashFmt (t : Nat) : Fmt := if t = 0 then bf16 else if t = 1 then f16 else f32

/-! ## The check bits (16 R342) -/

def crcBit (c : Nat) : Nat := if 2 * c < 2 ^ 24 then 2 * c else (2 * c) ^^^ 0x1864CFB
def crcByte (c : Nat) (b : Byte) : Nat := (List.range 8).foldl (fun c _ => crcBit c) (c ^^^ (b.toNat * 2 ^ 16))
def crc24 (l : List Byte) : Nat := l.foldl crcByte 0xB704CE
/-- The CRC of a stash-64 block. -/
def blockCrc (l : List Byte) : Nat := crc24 (l.take 5 ++ l.drop 8)

/-! ## Encoding (16 R344) -/

/-- The magnitude of a finite value, as m × 2^e. -/
def FVal.mag : FVal → Nat × Int
  | .fin _ m e => (m, e)
  | _ => (0, 0)
/-- x < y for magnitudes. -/
def magLt (x y : Nat × Int) : Bool :=
  let e := min x.2 y.2
  decide (x.1 * 2 ^ (x.2 - e).toNat < y.1 * 2 ^ (y.2 - e).toNat)
def maxMag (l : List FVal) : Nat × Int := l.foldl (fun a v => if magLt a v.mag then v.mag else a) (0, 0)

/-- The least e ≥ −125 with M < (2^f − 1/2) × 2^(e − f). -/
def leastExp (f : Nat) (M : Nat × Int) : Int :=
  if M.1 = 0 then -125
  else
    let e := (Nat.log2 M.1 : Int) + M.2 + 1
    max (-125) (if magLt M (2 ^ (f + 1) - 1, e - f - 1) then e else e + 1)

/-- The eight sub-blocks. -/
def subBlocks {α : Type} (l : List α) : List (List α) := (List.range 8).map fun k => (l.drop (8 * k)).take 8

/-- The code of an element under a sub-block's effective exponent. -/
def stashCode (f : Nat) (es : Int) (v : FVal) : Nat :=
  let (m, e) := v.mag
  (roundInt .rne false m (e - (es - f)) 0).1.toNat + if v.isNeg then 2 ^ f else 0

/-- A block's shared exponent, shifts and element codes; `none` where it holds a non-finite input. -/
def stashFields (f : Nat) (x : List FVal) : Option (Nat × List Nat × List Nat) :=
  if x.any fun v => v.isNan || v.isInf then none
  else
    let subs := subBlocks x
    let es := subs.map fun l => leastExp f (maxMag l)
    let E := es.foldl max (-125)
    let sh := es.map fun e => min 7 (E - e).toNat
    some ((E + 125).toNat, sh, (subs.zip sh).flatMap fun ls => ls.1.map (stashCode f (E - ls.2)))

/-- A block from its fields (16 R341, R343). -/
def stashBlock (k : StashForm) (itype ecode : Nat) (sh codes : List Nat) : List Byte :=
  let bits (w : Nat) (l : List Nat) : Nat := l.foldr (fun c acc => acc * 2 ^ w + c) 0
  let head := ecode + 2 ^ 8 * bits 3 sh
  if k.f = 6 then
    let n := head + 2 ^ 32 * itype + 2 ^ 64 * bits 7 codes
    leBytes 64 (n + 2 ^ 40 * blockCrc (leBytes 64 n))
  else leBytes 32 (head + 2 ^ 32 * bits 3 codes)

/-- StashBlock: the bytes, and whether the block is non-finite. -/
def stashEncode (k : StashForm) (itype : Nat) (x : List FVal) : List Byte × Bool :=
  match stashFields k.f x with
  | some (e, sh, codes) => (stashBlock k itype e sh codes, false)
  | none => (stashBlock k itype 0xFF (List.replicate 8 0) (List.replicate 64 0), true)

/-! ## Decoding (16 R345, R346) -/

/-- A block fails its check. -/
def stashBad (k : StashForm) (l : List Byte) : Bool :=
  let n := leNat l
  (k.f = 6 && (blockCrc l ≠ n / 2 ^ 40 % 2 ^ 24 || n / 2 ^ 32 % 4 = 3 || n / 2 ^ 34 % 2 ^ 6 ≠ 0))
    || (k.f = 2 && n / 2 ^ 224 ≠ 0)
    || (n % 2 ^ 8 = 0xFF && (n / 2 ^ 8 % 2 ^ 24 ≠ 0 || n / 2 ^ (if k.f = 6 then 64 else 32) ≠ 0))

/-- RestoreBlock: the 64 codes of the output type, and whether the block is corrupt. -/
def stashDecode (k : StashForm) (out : Fmt) (l : List Byte) : List Nat × Bool :=
  let n := leNat l
  if stashBad k l then (List.replicate 64 out.nan, true)
  else if n % 2 ^ 8 = 0xFF then (List.replicate 64 out.nan, false)
  else
    let E : Int := (n % 2 ^ 8 : Nat) - (125 : Int)
    let base := if k.f = 6 then 64 else 32
    ((List.range 64).map fun j =>
      let c := n / 2 ^ (base + (k.f + 1) * j) % 2 ^ (k.f + 1)
      let s := n / 2 ^ (8 + 3 * (j / 8)) % 8
      (out.round .rne true (decide (2 ^ k.f ≤ c)) (c % 2 ^ k.f) (E - s - k.f) false 0).code, false)

end Sys2Proof.Machine
end

