-- ==== Sys2Proof/Machine/Teasel.lean ====
section
/-!
DEFINITION. Teasel commands (14 R331 to R337; 16 R348 to R353): TGATH, TRED, TCVT, STASH and RESTORE at issue, as they run
at the stack of their source, and their completion.
-/
namespace Sys2Proof.Machine

/-! ## Descriptors (14 R332 to R335; 16 R349) -/

def Desc.tCmpl (d : Desc) : Nat := d.fld 4 2
def Desc.tAdds (d : Desc) : Bool := d.getLsbD 4
def Desc.tFlags (d : Desc) : Bool := d.getLsbD 5
/-- The face of the data destinations. -/
def Desc.tFace (d : Desc) : Option Nat := if d.fld 6 2 = 0 then none else some (d.fld 6 2 - 1)
def Desc.tScratchFlag (d : Desc) : Bool := d.tFlags && d.getLsbD 8
def Desc.tSrc (d : Desc) : Nat := d.fld 192 64
def Desc.tIdx (d : Desc) : Nat := d.fld 256 64
def Desc.tDst (d : Desc) : Nat := d.fld 320 64
/-- STASH and RESTORE: the destination, the element count, the type's format and the form. -/
def Desc.sDst (d : Desc) : Nat := d.fld 256 64
def Desc.sCount (d : Desc) : Nat := d.fld 320 32
def Desc.sFmt (d : Desc) : Fmt := stashFmt (d.fld 352 2)
def Desc.sForm (d : Desc) : StashForm := if d.getLsbD 354 then stash32 else stash64

/-- The limits of the header for a command (14 R332). -/
def Desc.teaselOk (nv op : Nat) (d : Desc) : Bool :=
  d.fld 0 4 = op && d.fld 6 2 ≠ 3 && d.fld 9 23 = 0 && d.fld 50 14 = 0 && (!d.tAdds || d.fld 48 2 < nv)
    && (!d.tFlags || d.fld 128 64 % 4 = 0)
/-- The limits of a command's own table. -/
def Desc.ownOk (op : Nat) (d : Desc) : Bool :=
  match op with
  | 1 => d.tSrc % 16 = 0 && d.tIdx % 4 = 0 && d.tDst % 16 = 0
    && d.fld 448 32 % 16 = 0 && 16 ≤ d.fld 448 32 && d.fld 448 32 ≤ 65536
  | 2 => d.tSrc % 16 = 0 && d.tIdx % 4 = 0 && d.tDst % 16 = 0 && 1 ≤ d.fld 448 16 && d.fld 448 16 ≤ 16384 && d.fld 466 14 = 0
  | 3 => d.fld 257 2 ≠ 3 && d.fld 260 4 = 0 && d.fld 272 16 = 0 && d.fld 320 160 = 0
  | 4 => d.tSrc % 16 = 0 && d.sDst % 64 = 0 && d.fld 352 2 ≠ 3 && !d.getLsbD 355 && d.fld 356 28 = 0 && d.fld 448 32 = 0
  | _ => d.tSrc % 64 = 0 && d.sDst % 16 = 0 && d.fld 352 2 ≠ 3 && d.fld 356 28 = 0 && d.fld 448 32 = 0

/-- The whole tensor of a shape record. -/
def Desc.whole (d : Desc) : CopyDesc :=
  { shape := d, block := 0, off := 0, org := [], box := (List.range 5).map d.dim }
/-- Blocks of 32 in a row. -/
def Desc.rowBlocks (d : Desc) : Nat := (d.dim 0 + 31) / 32

/-- Whether TCVT converts between two records (14 R335), the MX one of which declares its scales. -/
def cvtPairOk (d src dst : Desc) : Bool :=
  let plain (x : Desc) : Bool := !x.shMx && (x.shFmt = 5 || x.shFmt = 7)
  let mx (x : Desc) : Bool := x.shMx && x.shFmt ≤ 4
  src.shRank = dst.shRank && ((List.range 5).all fun k => src.dim k = dst.dim k)
    && ((plain src && mx dst && (!d.getLsbD 259 || dst.shFmt = 0)) || (mx src && plain dst && d.fld 256 4 = 0))
def cvtScales (src dst : Desc) : Nat × Nat := ((if src.shMx then src else dst).shScnt, dst.rowBlocks)

/-! ## Issue (14 R331) -/

/-- The stack that homes an address: three to a die (14 R330); stack 0 of the issuer's die for the second tier and where
the address has no translation (DEDUCED: log entry 53). -/
def stackOf (s : State) (x : Context) (die va : Nat) : Nat :=
  match walk s x va false false with
  | .ok e =>
    let pa := e.phys va
    if homeDie pa = 4 then 3 * die else 3 * homeDie pa + pa % 2 ^ 40 / 4096 % 3
  | _ => 3 * die
def stackQueueMax : Nat := 64
/-- The commands of a stack: an operation's first note names its stack. -/
def stackQueue (s : State) (stack : Nat) : Nat :=
  (s.ops.filter fun o => o.note.head? = some stack && match o.kind with
    | .teasel .. => true
    | _ => false).length

/-- The global ranges that a tensor of rows occupies: lines of an MX one. -/
def CopyDesc.tensor (c : CopyDesc) : List (Nat × Nat) := c.dests
/-- The data destinations of a command. -/
def teaselDests (d dst : Desc) : List (Nat × Nat) :=
  match d.fld 0 4 with
  | 1 => [(d.tDst, d.fld 384 32 * d.fld 448 32)]
  | 2 => [(d.tDst, 4 * d.fld 448 16 * d.fld 416 32)]
  | 3 => dst.whole.tensor
  | 4 => [(d.sDst, (d.sCount + 63) / 64 * d.sForm.size)]
  | _ => [(d.sDst, d.sCount * (d.sFmt.bits / 8))]

/-- The handles of a TCVT, or its failing check (DEDUCED: log entry 53). -/
def cvtHandles (s : State) (x : Context) (d : Desc) : Except Trap (Desc × Desc) :=
  let hs : Word := d.extractLsb' 192 32
  let hd : Word := d.extractLsb' 224 32
  match current x hs, current x hd with
  | none, _ => .error (staleTrap s hs)
  | _, none => .error (staleTrap s hd)
  | some a, some b =>
    let scales := cvtScales a.img b.img
    if !cvtPairOk d a.img b.img then .error (illegal s 7)
    else if scales.1 ≠ scales.2 then .error (wordTrap s causeScaleCount (BitVec.ofNat 32 scales.1))
    else .ok (a.img, b.img)

/-- A Teasel command (DEDUCED: log entry 53). -/
def teasel (s : State) (p : Bool) (a : BitVec 7) (op : Nat) : Result :=
  issue s p ⟨false, noEntry, anywhere, [.ss a 2]⟩ fun u w blk =>
    let x := s.ctxD blk
    let D := (w.rdS64 a).toNat
    if s.globalStores w || s.acquiring w false then .stall
    else if D % 64 ≠ 0 then .trap (misalignTrap D false 0)
    else match homeRead s u w blk D 64 with
      | .wait s1 => .done s1
      | .err cause _ => .done (s.setWave u (w.answeredErr cause D))
      | .ok l =>
        let d : Desc := BitVec.ofNat 512 (leNat l)
        if !(d.teaselOk x.nv op && d.ownOk op) then .trap (illegal s 7)
        else if d.tScratchFlag && (scratchTarget s blk (d.fld 128 32) 4).isNone then .trap (scratchTrap (d.fld 128 32) 0)
        else match (if op = 3 then cvtHandles s x d else .ok (0, 0)) with
          | .error t => .trap t
          | .ok (src, dst) =>
            let stack := stackOf s x (coreDie (unitCore u)) (if op = 3 then src.shBase else d.tSrc)
            if stackQueueMax ≤ stackQueue s stack then .stall
            else
              let lines := (pendLines s x d.tFace false (teaselDests d dst)).eraseDups
              let s1 := (s.setWave u w.answered).addEngineOp u w blk lines (.teasel D d src dst x.regions)
              let note (o : Op) : Op := if o.id = s.fresh then { o with note := [stack] } else o
              .done { s1 with ops := s1.ops.map note }

def execTgath (p : Bool) (a : BitVec 7) (s : State) : Result := teasel s p a 1
def execTred (p : Bool) (a : BitVec 7) (s : State) : Result := teasel s p a 2
def execTcvt (p : Bool) (a : BitVec 7) (s : State) : Result := teasel s p a 3
def execStash (p : Bool) (a : BitVec 7) (s : State) : Result := teasel s p a 4
def execRestore (p : Bool) (a : BitVec 7) (s : State) : Result := teasel s p a 5

/-! ## A running command -/

/-- The data writes of a command so far, with what its status word and result fields say. -/
structure TRun where
  w : EngW
  bl : Bool := false
  nv : Bool := false
  err : Bool := false
  skip : Bool := false
  first : Nat := 2 ^ 32 - 1
  count : Nat := 0

/-- How a command accesses memory. -/
structure TEnv where
  o : Op
  d : Desc
  x : Context
  snap : SMap Region

def TEnv.read (e : TEnv) (s : State) (va n : Nat) : List EByte := engineRead s e.x e.o.denied va n
/-- A word, with its poison mark. -/
def TEnv.word (e : TEnv) (s : State) (va : Nat) : OptWord := wordOf (e.read s va 4)
def TEnv.put (e : TEnv) (w : EngW) (va : Nat) (l : List EByte) : EngW :=
  w.write e.o.ctx e.snap e.d.tFace false (some e.o.unit) e.o.denied va l
/-- Bytes that were not read, or were poisoned. -/
def tainted (l : List EByte) : Bool := l.any fun b => match b with
  | some (_, p) => p
  | none => true
def TRun.put (r : TRun) (e : TEnv) (va : Nat) (l : List EByte) : TRun :=
  { r with w := e.put r.w va l, err := r.err || tainted l }
def poisonAll (l : List EByte) : List EByte := l.map fun b => b.map fun v => (v.1, true)
def cleanBytes (l : List Byte) : List EByte := l.map fun b => some (b, false)

/-! ### TGATH (14 R333) -/

def tgathRow (e : TEnv) (j : Nat) (r : TRun) : TRun :=
  let n := e.d.fld 448 32
  let at_ := (e.d.tDst + j * n) % 2 ^ 64
  match e.word r.w.s (e.d.tIdx + 4 * j) with
  | none => { r with err := true }
  | some (i, bad) =>
    if e.d.fld 416 32 ≤ i.toNat then
      let zero := cleanBytes (List.replicate n 0)
      { r.put e at_ (if bad then poisonAll zero else zero) with skip := true }
    else
      let row := e.read r.w.s ((e.d.tSrc + i.toNat * n) % 2 ^ 64) n
      r.put e at_ (if bad then poisonAll row else row)
def tgathRun (e : TEnv) (r : TRun) : TRun := (List.range (e.d.fld 384 32)).foldl (fun r j => tgathRow e j r) r
def tgathReads (e : TEnv) (s : State) : List (Nat × Nat) :=
  let n := e.d.fld 448 32
  (e.d.tIdx, 4 * e.d.fld 384 32) :: (List.range (e.d.fld 384 32)).filterMap fun j =>
    match e.word s (e.d.tIdx + 4 * j) with
    | some (i, _) => if e.d.fld 416 32 ≤ i.toNat then none else some ((e.d.tSrc + i.toNat * n) % 2 ^ 64, n)
    | none => none

/-! ### TRED (14 R334) -/

/-- One step of a segment's element: the running value with its poison, `none` once an input could not be read. -/
def tredStep (sum : Bool) (acc : OptWord) (y : OptWord) : OptWord :=
  match acc, y with
  | some (m, pm), some (v, pv) =>
    some (BitVec.ofNat 32 ((if sum then fpAdd f32 .rne m.toNat v.toNat 0 else fpMinMax f32 true m.toNat v.toNat).code), pm || pv)
  | _, _ => none
/-- A result: a NaN is canonical (DEDUCED: log entry 54). -/
def tredResult (v : Word) : Nat := if (f32.decode v.toNat).isNan then f32.nan else v.toNat
def tredRun (e : TEnv) (r : TRun) : TRun :=
  let n := e.d.fld 448 16
  let rows := e.d.fld 384 32
  let nseg := e.d.fld 416 32
  let s := r.w.s
  let segs : List (Nat × Option Nat) := (List.range rows).map fun k =>
    (k, match e.word s (e.d.tIdx + 4 * k) with
      | some (v, false) => some v.toNat
      | _ => none)
  let sum := !e.d.getLsbD 464
  let start (t i : Nat) : OptWord :=
    if e.d.getLsbD 465 then e.word s (e.d.tDst + 4 * n * t + 4 * i) else some (if sum then 0 else 0xFF800000, false)
  let elem (t i : Nat) : OptWord := (segs.filter fun k => k.2 = some t).foldl (fun acc k =>
    tredStep sum acc (e.word s (e.d.tSrc + 4 * n * k.1 + 4 * i))) (start t i)
  let r1 : TRun := { r with
    err := r.err || segs.any (fun k => k.2.isNone)
    skip := segs.any fun k => match k.2 with
      | some t => nseg ≤ t
      | none => false }
  (List.range nseg).foldl (fun r t => r.put e ((e.d.tDst + 4 * n * t) % 2 ^ 64)
    ((List.range n).flatMap fun i => wordBytes ((elem t i).map fun v => (tredResult v.1, v.2)))) r1
def tredReads (e : TEnv) (s : State) : List (Nat × Nat) :=
  let n := e.d.fld 448 16
  let row (k : Nat) : Option (Nat × Nat) := match e.word s (e.d.tIdx + 4 * k) with
    | some (v, false) => if v.toNat < e.d.fld 416 32 then some ((e.d.tSrc + 4 * n * k) % 2 ^ 64, 4 * n) else none
    | _ => none
  (e.d.tIdx, 4 * e.d.fld 384 32) :: (List.range (e.d.fld 384 32)).filterMap row ++
    if e.d.getLsbD 465 then [(e.d.tDst, 4 * n * e.d.fld 416 32)] else []

/-! ### TCVT (14 R335) -/

/-- Bytes of an element of the MX = 0 record. -/
def plainSize (d : Desc) : Nat := if d.shFmt = 5 then 2 else 4
/-- A binary32 code from an element's bytes: bfloat16 widened. -/
def widen (n : Nat) (l : List EByte) : Option (Nat × Bool) :=
  if l.all Option.isSome then
    some (leNat (l.filterMap fun b => b.map (·.1)) * (if n = 2 then 2 ^ 16 else 1), tainted l)
  else none

def mxFmtOf (f : Nat) : Fmt :=
  match f with
  | 0 => e2m1
  | 1 => e2m3
  | 2 => e3m2
  | 3 => e4m3
  | _ => e5m2

/-- Whether every element of a block could be read, with its poison. -/
def blockWords (l : List (Option (Nat × Bool))) : Option (List Nat × Bool) :=
  if l.all Option.isSome then
    some (l.filterMap fun v => v.map (·.1), l.any fun v => match v with
      | some (_, p) => p
      | none => false)
  else none

/-- One quantised block of row j; elements beyond the row are written as code 0, and a block beyond it is unused and written
zero (01 R39). -/
def quantBlock (e : TEnv) (src dst : Desc) (j b : Nat) (r : TRun) : TRun :=
  let c := dst.whole
  let bpl := mxPerLine dst.shFmt
  let bs := mxBlock dst.shFmt
  let line := c.line j (b / bpl)
  let at_ := (line + b % bpl * bs) % 2 ^ 64
  let side (r : TRun) (v : EByte) : TRun := { r with w := r.w.side e.o.ctx e.snap e.d.tFace (some e.o.unit) e.o.denied line (b % bpl) v }
  let nb := dst.rowBlocks
  if nb ≤ b then side (r.put e at_ (cleanBytes (List.replicate bs 0))) (some (0, false))
  else
    let n := plainSize src
    let base := src.whole.start j
    let elem (i : Nat) : Option (Nat × Bool) :=
      if src.dim 0 ≤ 32 * b + i then some (0, false) else widen n (e.read r.w.s ((base + n * (32 * b + i)) % 2 ^ 64) n)
    match blockWords ((List.range 32).map elem) with
    | none => { r with err := true }
    | some (xs, bad) =>
      let rm : RqRound := if e.d.getLsbD 256 then .rsr else .rne
      let had : HadOpt := if e.d.fld 257 2 = 1 then .h16 else if e.d.fld 257 2 = 2 then .h32 else .none
      let cz : Option Byte := if e.d.getLsbD 259 then some (e.d.extractLsb' 264 8) else none
      let f := dst.shFmt
      let q := requantise (mxFmtOf f) (f = 0) (f = 4) xs rm had cz (seedLane (e.d.extractLsb' 288 32) (j * nb + b))
      let bytes := leBytes bs (((q.codes.take (src.dim 0 - 32 * b)).zip (List.range 32)).foldl (fun t ci =>
        t + ci.1 * 2 ^ (fmtBits f * ci.2)) 0)
      let r1 := r.put e at_ (if bad then poisonAll (cleanBytes bytes) else cleanBytes bytes)
      let r2 := side r1 (some (BitVec.ofNat 8 q.scale, bad))
      { r2 with bl := r2.bl || q.flags &&& flagBL ≠ 0, nv := r2.nv || xs.any fun v => (f32.decode v).isSnan }

/-- The unused bytes of a line: behind the blocks, and the sideband bytes behind theirs (DEDUCED: log entry 54). -/
def quantTail (e : TEnv) (dst : Desc) (j q : Nat) (r : TRun) : TRun :=
  let bpl := mxPerLine dst.shFmt
  let used := bpl * mxBlock dst.shFmt
  let line := dst.whole.line j q
  let r1 := if used < 128 then r.put e ((line + used) % 2 ^ 64) (cleanBytes (List.replicate (128 - used) 0)) else r
  { r1 with w := (List.range (8 - bpl)).foldl (fun w i =>
      w.side e.o.ctx e.snap e.d.tFace (some e.o.unit) e.o.denied line (bpl + i) (some (0, false))) r1.w }

def quantRun (e : TEnv) (src dst : Desc) (r : TRun) : TRun :=
  let bpl := mxPerLine dst.shFmt
  let lines := (dst.rowBlocks + bpl - 1) / bpl
  (List.range dst.whole.rows).foldl (fun r j =>
    (List.range lines).foldl (fun r q =>
      quantTail e dst j q ((List.range bpl).foldl (fun r i => quantBlock e src dst j (bpl * q + i) r) r)) r) r

/-- One dequantised element: its code with its poison. -/
def dequantElem (e : TEnv) (s : State) (src : Desc) (out : Fmt) (j i : Nat) : Option (Nat × Bool) :=
  let bpl := mxPerLine src.shFmt
  let bs := mxBlock src.shFmt
  let b := i / 32
  let line := src.whole.line j (b / bpl)
  let n := fmtBits src.shFmt
  let lo := n * (i % 32)
  let bytes := e.read s ((line + b % bpl * bs + lo / 8) % 2 ^ 64) ((lo % 8 + n + 7) / 8)
  match engineSide s e.x e.o.denied line (b % bpl) with
  | none => none
  | some (sc, ps) =>
    if bytes.all Option.isSome then
      let code := leNat (bytes.filterMap fun b => b.map (·.1)) / 2 ^ (lo % 8) % 2 ^ n
      let v := match (mxFmtOf src.shFmt).decode code with
        | .fin g m ex => if sc = 0xFF then FVal.nan false else .fin g m (ex + sc.toNat - 127)
        | v => if sc = 0xFF then FVal.nan false else v
      some ((fpOfVal out .rne false v 0).code, ps || tainted bytes)
    else none
def dequantRun (e : TEnv) (src dst : Desc) (r : TRun) : TRun :=
  let n := plainSize dst
  let out := if n = 2 then bf16 else f32
  (List.range dst.whole.rows).foldl (fun r j =>
    let s := r.w.s
    r.put e (dst.whole.start j) ((List.range (dst.dim 0)).flatMap fun i => match dequantElem e s src out j i with
      | some (v, p) => (leBytes n v).map fun b => some (b, p)
      | none => List.replicate n none)) r

/-! ### STASH and RESTORE (16 R344 to R352) -/

/-- The elements of stash block i of a STASH. -/
def stashInput (e : TEnv) (s : State) (i : Nat) : Option (List Nat × Bool) :=
  let n := e.d.sFmt.bits / 8
  blockWords ((List.range 64).map fun j =>
    let k := 64 * i + j
    if e.d.sCount ≤ k then some (0, false)
    else
      let l := e.read s ((e.d.tSrc + n * k) % 2 ^ 64) n
      if l.all Option.isSome then some (leNat (l.filterMap fun b => b.map (·.1)), tainted l) else none)
/-- FIRST and COUNT with one more block. -/
def TRun.note (r : TRun) (i : Nat) : TRun := { r with first := min r.first i, count := min (r.count + 1) (2 ^ 32 - 1) }

/-- STASH (16 R350), block after block in ascending order, so that a command whose source overlaps its destination reads what
it has written; a block with poisoned input counts by the bytes under the mark (DEDUCED: log entry 54). -/
def stashRun (e : TEnv) (r : TRun) : TRun :=
  let k := e.d.sForm
  (List.range ((e.d.sCount + 63) / 64)).foldl (fun r i =>
    match stashInput e r.w.s i with
    | none => { r with err := true }
    | some (xs, bad) =>
      let (bytes, odd) := stashEncode k (e.d.fld 352 2) (xs.map e.d.sFmt.decode)
      let r1 := r.put e ((e.d.sDst + k.size * i) % 2 ^ 64) (if bad then poisonAll (cleanBytes bytes) else cleanBytes bytes)
      if odd then r1.note i else r1) r

/-- RESTORE (16 R351), block after block in ascending order, as STASH goes (DEDUCED: log entry 54). -/
def restoreRun (e : TEnv) (r : TRun) : TRun :=
  let k := e.d.sForm
  let f := e.d.sFmt
  let n := f.bits / 8
  (List.range ((e.d.sCount + 63) / 64)).foldl (fun r i =>
    let l := e.read r.w.s ((e.d.tSrc + k.size * i) % 2 ^ 64) k.size
    if !l.all Option.isSome then { r with err := true }
    else
      let (codes, bad) := stashDecode k f (l.filterMap fun b => b.map (·.1))
      let bytes := cleanBytes ((codes.take (e.d.sCount - 64 * i)).flatMap fun c => leBytes n c)
      let poisoned := tainted l
      let r1 := r.put e ((e.d.sDst + n * 64 * i) % 2 ^ 64) (if poisoned then poisonAll bytes else bytes)
      if bad && !poisoned then r1.note i else r1) r

/-! ## Running and completing -/

/-- What a command reads. -/
def teaselReads (e : TEnv) (s : State) (src : Desc) : List (Nat × Nat) :=
  match e.d.fld 0 4 with
  | 1 => tgathReads e s
  | 2 => tredReads e s
  | 3 => src.whole.tensor
  | 4 => [(e.d.tSrc, e.d.sCount * (e.d.sFmt.bits / 8))]
  | _ => [(e.d.tSrc, (e.d.sCount + 63) / 64 * e.d.sForm.size)]

def teaselRun (e : TEnv) (src dst : Desc) (r : TRun) : TRun :=
  match e.d.fld 0 4 with
  | 1 => tgathRun e r
  | 2 => tredRun e r
  | 3 => if src.shMx then dequantRun e src dst r else quantRun e src dst r
  | 4 => stashRun e r
  | _ => restoreRun e r

/-- The status word (14 R336). A destination write that a conflict withholds sets no ERR (DEDUCED: log entry 53). -/
def TRun.status (r : TRun) : Nat :=
  let b (c : Bool) (k : Nat) : Nat := if c then 2 ^ k else 0
  1 + b r.bl 1 + b r.nv 2 + b (r.err || r.w.err.isSome) 3 + b r.skip 4

/-- A completion write: it reaches the visible face; bytes that cannot be written stay as they are
(DEDUCED: log entry 53). -/
def State.signal (s : State) (x : Context) (denied : List Nat) (va : Nat) (l : List Byte) : State :=
  (chunks va l.length).foldl (fun st k => match via st x denied k.1 false true with
    | .ok e => st.writeBytes (homeDie (e.phys k.1)) (e.phys k.1) ((l.drop (k.1 - va)).take k.2) false
    | _ => st) s

/-- Step 4 of R336, the last: the flag. -/
def flagTeasel (s : State) (o : Op) (x : Context) (d : Desc) : State :=
  if d.tScratchFlag then (s.dropOp o.id).flagScratch o.block (d.fld 128 32) (d.extractLsb' 96 32)
  else if d.tFlags then
    match firstFault s x o.denied false true [(d.fld 128 64, 4)] with
    | some (va, p) => s.park o 4 va true true p
    | none => (s.dropOp o.id).signal x o.denied (d.fld 128 64) (leBytes 4 (d.fld 96 32))
  else s.dropOp o.id

/-- The stack that runs a command, three to a die: the source of its stash event, which names no core (17 R383)
(DEDUCED: log entry 55). -/
def teaselStack (o : Op) : Nat := o.note.headD 0

/-- Steps 2 to 4 of R336, each when the one before is done: FIRST and COUNT with the status word, the stash event (16
R350, R351), the counter add; the flag. A fifth note says that only the flag is left (DEDUCED: log entry 53). -/
def finishTeasel (s : State) (o : Op) (x : Context) (D : Nat) (d : Desc) (stat first count : Nat) : State :=
  let codec := 4 ≤ d.fld 0 4
  match firstFault s x o.denied false true [(D + (if codec then 48 else 60), if codec then 16 else 4)] with
  | some (va, p) => s.park o 4 va true true p
  | none =>
    let s1 := if codec then s.signal x o.denied (D + 48) (leBytes 8 (first + 2 ^ 32 * count)) else s
    let s2 := s1.signal x o.denied (D + 60) (leBytes 4 stat)
    let s3 :=
      if codec && count ≠ 0 then
        s2.post (teaselStack o / 3) false none
          [mkEvent s2 6 (d.fld 0 4) o.ctx (x.vdOf (teaselStack o / 3)) 0 0 4 o.replay (BitVec.ofNat 64 D)
            (BitVec.ofNat 64 (first + 2 ^ 32 * count))]
      else s2
    let o1 := { o with note := o.note ++ [1] }
    let s4 := s3.setOp o1
    let s5 := if d.tAdds then s4.raise o.ctx (d.fld 48 2) (d.fld 32 16) (d.extractLsb' 64 32) [] else s4
    match s5.ctx o.ctx with
    | some y => flagTeasel s5 o1 y d
    | none => s5.dropOp o.id

/-- The data writes of a command, performed; then it completes once package time has reached them all. -/
def runTeasel (s : State) (o : Op) (x : Context) (D : Nat) (d src dst : Desc) (snap : SMap Region) : State :=
  let e : TEnv := ⟨o, d, x, snap⟩
  let idx : List (Nat × Nat) := if d.fld 0 4 ≤ 2 then [(d.tIdx, 4 * d.fld 384 32)] else []
  match firstFault s x o.denied true false idx with
  | some (va, p) => s.park o 4 va false true p
  | none =>
    match optFault s x o.denied (teaselReads e s src) (teaselDests d dst) with
    | some (va, w, p) => s.park o 4 va w true p
    | none =>
      let r := teaselRun e src dst { w := EngW.start s }
      let s1 := r.w.withheld.eraseDups.foldl (fun st l => st.deferAt o causeConflict l) r.w.s
      let s2 := if d.fld 0 4 = 5 && d.getLsbD 355 && r.count ≠ 0 then s1.deferAt o causeStashCorrupt D else s1
      let o1 := { o with epend := [], horizon := some r.w.horizon, note := o.note.take 1 ++ [r.status, r.first, r.count] }
      (s2.clearPend o.ctx o.epend).setOp o1

/-- TEASEL_COMMAND_COMPLETE. -/
def execTeaselCommandComplete (op : Nat) (s : State) : Result :=
  match s.op op with
  | none => .next s
  | some o =>
    match o.kind, s.ctx o.ctx with
    | .teasel D d src dst snap, some x =>
      if o.parked.isSome then .next s
      else match o.horizon, o.note with
        | some t, [_, stat, first, count] =>
          if t ≤ s.pt then .next (finishTeasel s o x D d stat first count).changed else .next s
        | some _, [_, _, _, _, _] => .next (flagTeasel s o x d).changed
        | _, _ => .next (runTeasel s o x D d src dst snap).changed
    | .teasel .., none => .next (s.dropOp op).changed
    | _, _ => .next s

end Sys2Proof.Machine
end

