-- ==== Sys2Proof/Machine/Faults.lean ====
section
/-!
DEFINITION. Dependability and pre-emption (17 R367 to R387): stored errors and poison, the retirement of a core and the
replay of its blocks, the save of a context, and the drain of a die's event buffer.
-/
namespace Sys2Proof.Machine

/-! ## Stored errors (17 R373 to R377) -/

/-- CORRECTABLE_ERROR, of a compute die or of the I/O die, whose number is 4: corrected and counted; a count that crosses its threshold posts an error event
(DEDUCED: log entry 57). -/
def execCorrectableError (die : Nat) (cell : ErrCell) (s : State) : Result :=
  let struc := cell.struc
  if 5 ≤ die || 256 ≤ struc then .next s
  else
    let key := 256 * die + struc
    let n := (s.boot.errors.get 0 key).toNat
    let m := min (n + 1) (2 ^ 32 - 1)
    let s1 : State := { s with boot := { s.boot with errors := s.boot.errors.put 0 key (BitVec.ofNat 32 m) } }
    match s.boot.thresholds.find key with
    | some t =>
      if n < t.toNat && t.toNat ≤ m then
        .next (s1.post die false none [mkEvent s1 7 0 0 0 0 0 7 false (BitVec.ofNat 64 cell.addr) (Config.structureCode struc)]).changed
      else .next s1.changed
    | none => .next s1.changed

/-- Whether a physical address is memory (14 R329). -/
def State.isMemory (s : State) (a : Nat) : Bool :=
  (a / 2 ^ 40 < 4 && a % 2 ^ 40 < 192 * 2 ^ 30) || (2 ^ 42 ≤ a && a < 2 ^ 42 + s.tier2)

/-- An uncorrectable error in storage: the granule or the register element is marked (17 R373, R374, R376; 08 R250)
(DEDUCED: log entry 77). -/
def storageError (target : ErrTarget) (s : State) : Result :=
  match target with
  | .control _ => .next s
  | .memory a => if s.isMemory a then .next { s with poison := s.poison.put false (a / 32) true }.changed else .next s
  | .scratch b off =>
    match s.block b with
    | some k =>
      if off < k.scratch then .next (s.setBlock { k with scrPoison := (off / 16 :: k.scrPoison).eraseDups }).changed
      else .next s
    | none => .next s
  | .vreg u r l =>
    match s.wave u with
    | some w => .next (s.setWave u { w with regs := { w.regs with vPoison := (laneKey r l :: w.regs.vPoison).eraseDups } }).changed
    | none => .next s
  | .ereg u r l =>
    match s.wave u with
    | some w => .next (s.setWave u { w with regs := { w.regs with ePoison := (laneKey r l :: w.regs.ePoison).eraseDups } }).changed
    | none => .next s
  | .sreg u r =>
    match s.wave u with
    | some w =>
      if r = 0 then .next s
      else .next (s.setWave u { w with regs := { w.regs with sPoison := (r :: w.regs.sPoison).eraseDups } }).changed
    | none => .next s
  | .tile c t row word =>
    .next (s.onMat c fun m => { m with poison := (tileKey t row word :: m.poison).eraseDups }).changed

/-- HBM_ROW_REPAIR: the row's bytes and their addresses stay; accesses that wait are performed later (17 R377). -/
def execHbmRowRepair (_die _row : Nat) (s : State) : Result := .next s.changed

/-! ## Retirement of a core (17 R378 to R382; 14 R323) -/

/-- The operations a block's waves have issued are lost, but for those that have left the core: commands of Teasel
engines, messages that were sent and copies out that have read their source (DEDUCED: log entry 56). -/
def OpKind.survives : OpKind → Bool
  | .teasel .. | .gate .. => true
  | .net _ sent _ _ => sent
  | .acps _ _ _ _ _ _ read => read.isSome
  | .tcpys _ _ _ _ read => read.isSome
  | _ => false
def State.dropBlockOps (s : State) (b : Nat) : State :=
  let lost := s.ops.filter fun o => o.block = b && !o.kind.survives
  lost.foldl (fun st o => (st.clearPend o.ctx o.epend).dropOp o.id) s

/-- Removes the waves of a block and what they have issued. -/
def State.dropWaves (s : State) (b : Nat) : State :=
  { s.dropBlockOps b with waves := s.waves.keep fun _ w => w.block ≠ b }

/-- The blocks of a replay-safe group vanish, their waves give up the matrix engine (08 R227), and they are to be launched
again (17 R380) (DEDUCED: log entry 56). -/
def State.replayGroup (s : State) (g c key : Nat) : State :=
  let bs := (s.blocks.filter fun kb => kb.2.group = g).map (·.2)
  let uids := bs.map Block.uid
  let gone (n : Nat) : Bool := (s.findOwner n).any fun w => uids.contains w.block
  let s1 := bs.foldl (fun st b => (st.dropWaves b.uid).onMat b.core fun m =>
    let m1 := { m with queue := m.queue.filter (fun e => e.block ≠ b.uid), waiters := m.waiters.filter fun n => !gone n }
    if m1.owner.any gone then m1.release else m1) s
  let s2 : State := { s1 with blocks := s1.blocks.keep fun _ k => k.group ≠ g, groups := s1.groups.del g }
  s2.onCtx c fun x =>
    let rank0 := bs.foldl (fun acc b => if b.rank = 0 then some b else acc) (none : Option Block)
    let again : List (Nat × Nat) := match rank0 with
      | some b => [(b.index, rinkCore x b.core)]
      | .none => []
    let live := (bs.filter fun b => !b.ended).length
    let x1 := x.onRec key fun r =>
      { r with
        live := r.live - live
        replays := r.replays ++ again
        held := r.held.filter fun h => !uids.contains h.block
        contribs := r.contribs.filter fun k => !uids.contains k.block }
    { x1 with subs := x1.subs.filter fun q => !uids.contains q.block }

/-- A lost block of another record counts as retired; the record is faulted and hard-cancelled (17 R381). -/
def State.loseBlock (s : State) (b : Block) : State :=
  let s1 := s.dropWaves b.uid
  let s2 := { s1 with blocks := s1.blocks.upd b.uid fun k => { k with stack := [] } }
  let s3 := if b.ended then s2 else s2.retireBlock b
  let s4 := (s3.onCtx b.ctx fun x => x.onRec b.record fun r => { r with faulted := true }).evalCluster b.group
  s4.cancelRec b.ctx b.record true 4

/-- Handles one block of a lost core, where it is still there (DEDUCED: log entry 56). -/
def State.lostBlock (s : State) (uid : Nat) : State :=
  match s.block uid with
  | some b => if b.rsafe then s.replayGroup b.group b.ctx b.record else s.loseBlock b
  | none => s

/-- The records, with their contexts, of a list of blocks. -/
def blockRecords (bs : List Block) : List (Nat × Nat × Bool) := (bs.map fun b => (b.ctx, b.record, b.rsafe)).eraseDups
def State.recordAt (s : State) (c key : Nat) : Nat × Nat :=
  match (s.ctx c).bind fun x => x.rec? key with
  | some r => (r.addr, r.img.job)
  | none => (0, 0)

/-- The core events of a retirement. -/
def State.coreEvents (s : State) (core p : Nat) (recs : List (Nat × Nat × Bool)) : State :=
  let die := coreDie core
  let one (st : State) (r : Nat × Nat × Bool) : State :=
    let a := s.recordAt r.1 r.2.1
    let st1 := st.post die false none [coreEvent st r.1 core 7 8 0 (coreWord die p 0) (BitVec.ofNat 64 a.1)]
    if r.2.2 then st1
    else st1.post die false none [coreEvent st1 r.1 core 7 8 2 (coreWord die p a.2) (BitVec.ofNat 64 a.1)]
  if recs.isEmpty then s.post die false none [mkEvent s 8 0 0 0 core 0 7 false (coreWord die p 0) 0]
  else recs.foldl one s

/-- A core is retired: its blocks are lost, and its logical core takes the lowest spare (14 R323)
(DEDUCED: log entry 56). -/
def State.retireCore (s : State) (core p : Nat) : State :=
  let die := coreDie core
  let bs := (s.blocks.filter fun kb => kb.2.core = core).map (·.2)
  let s1 := bs.foldl (fun st b => st.lostBlock b.uid) s
  let spares := s.boot.spare.get 0 die
  let bit36 (k : Nat) : BitVec 36 := 1#36 <<< k
  let spare := (List.range 36).find? fun k => spares.getLsbD k
  let boot := { s1.boot with
    harvest := s1.boot.harvest.put 0 die (s1.boot.harvest.get 0 die &&& ~~~(bit36 p))
    spare := match spare with
      | some k => s1.boot.spare.put 0 die (spares &&& ~~~(bit36 k))
      | none => s1.boot.spare
    lct := match spare with
      | some k => s1.boot.lct.ins core k
      | none => s1.boot.lct.del core
    lastCore := s1.boot.lastCore.ins core p }
  let s2 := ({ s1 with boot := boot }.setCore core CoreSt.empty).coreEvents core p (blockRecords bs)
  match spare with
  | some _ => s2
  | none => (s2.post die false none [mkEvent s2 8 1 0 0 core 0 7 false (coreWord die p 0) 0]).preemptUnset

/-- A hard fault of a logical core (17 R378, R379). -/
def State.hardFault (s : State) (core : Nat) : State :=
  match s.boot.lct.find core with
  | some p => (s.retireCore core p).changed
  | none => s

/-- UNCORRECTABLE_ERROR: in storage, or in a core's own control state, a hard fault (17 R378). -/
def execUncorrectableError (target : ErrTarget) (s : State) : Result :=
  match target with
  | .control core => .next (s.hardFault core)
  | t => storageError t s

/-- RESIDUE_CHECK_FAILURE: the work is done again from unchanged inputs; three failures running are a hard fault
(DEDUCED: log entry 78). -/
def execResidueCheckFailure (core attempts : Nat) (s : State) : Result :=
  if attempts < 3 then .next s
  else .next (s.hardFault core)

/-! ## The save of a context (17 R367 to R370; 02 R73; 07 R208; 08 R248; 10 R269) -/

/-- Whether the scratch an operation reads is there, or for a copy some of what it has still to read. -/
def sourceFull (s : State) (o : Op) : Bool :=
  match o.kind with
  | .load a .. | .atomic a .. => a.glob || scratchReady s a
  | .ldt .. => o.kind.accesses.all (scratchReady s)
  | k =>
    let left := (k.sources.zip (List.range k.sources.length)).filter fun kn => !o.got.has kn.2
    left.isEmpty || left.any fun kn => kn.1.full s
/-- Whether all that is left of a copy waits on translation faults. -/
def Op.onlyWaits (o : Op) : Bool :=
  !o.waits.isEmpty && match o.kind with
    | .acp lanes _ => lanes.all fun l => o.lineWaits l.1
    | .acps _ _ _ _ _ _ (some rest) => rest.all fun r => o.lineWaits r.1
    | .tcpy c _ _ => c.lines.all fun l => o.note.contains l || o.lineWaits l
    | .tcpys c _ _ _ _ => c.requests.all fun r => o.note.contains r.1 || o.lineWaits r.1
    | .tcpyv c _ _ _ => ((List.range c.rows).filter fun p => !o.note.contains p).all fun p =>
        (c.rowRequests p).isEmpty || (c.rowRequests p).any fun r => o.lineWaits r.1
    | _ => false
/-- Whether an operation can do nothing more before a save. Commands of Teasel engines, gates and messages are not waited
for (DEDUCED: log entry 58). -/
def standsStill (s : State) (o : Op) : Bool :=
  o.parked.isSome || o.onlyWaits || !sourceFull s o || match o.kind with
    | .teasel .. | .gate .. | .net .. => true
    | _ => false
/-- Whether an operation has to come after an earlier one. -/
def comesAfter (s : State) (o p : Op) : Bool :=
  ((orderedOps s o).any (fun q => q.id = p.id) && overlapping s p o) ||
  ((earlierOps s o).any (fun q => q.id = p.id) && (o.acquiredAfter s p || o.kind.releases.any fun sc => scopeWaits sc p.kind))
/-- The operations, in the order of their issue, that stand still or come after one that does. What waits for package time
alone does not (02 R73). -/
def stillOps (s : State) : List Op → List Op → List Op
  | still, [] => still
  | still, o :: rest =>
    stillOps s (if standsStill s o || still.any (comesAfter s o) then o :: still else still) rest

/-- Whether nothing of a context is under way any more (DEDUCED: log entry 58). -/
def State.drained (s : State) (c : Nat) : Bool :=
  let mine (w : Wave) : Bool := match s.block w.block with
    | some b => b.ctx = c
    | none => false
  let ops := s.ops.filter fun o => o.ctx = c
  (stillOps s [] ops).length = ops.length &&
    !(s.waves.any fun uw => mine uw.2 && uw.2.rb.any fun en => en.waiting ≠ 0 && !entryInFlight s en.seq) &&
    !s.cores.any fun kc => kc.2.mat.queue.any (fun e => (s.block e.block).any fun b => b.ctx = c) && s.matGoes kc.1

/-- Where a descheduled context's core l is kept. -/
def savedCore (c l : Nat) : Nat := 128 + 128 * c + l

/-- Moves everything of a context that stands on core k to core f k: waves, blocks, groups, operations that go with the
core, the units of all of them and in its conflict records (12 R315; 16 R353). -/
def moveUnit (f : Nat → Nat) (u : Nat) : Nat := 9 * f (u / 9) + u % 9
def moveWords (f : Nat → Nat) (words : SMap Word) : SMap Word :=
  words.foldl (fun m e => SMap.ins m (moveUnit f e.1) e.2) []
def ScrRecord.move (f : Nat → Nat) (r : ScrRecord) : ScrRecord :=
  { r with writer := r.writer.map (moveUnit f), words := moveWords f r.words, readers := r.readers.map (moveUnit f) }
def LineSig.move (f : Nat → Nat) (g : LineSig) : LineSig :=
  { g with writer := g.writer.map (moveUnit f), wmask := moveWords f g.wmask, readers := g.readers.map (moveUnit f) }
def Block.move (f : Nat → Nat) (b : Block) : Block :=
  { b with core := f b.core, scrRecords := b.scrRecords.map fun kr => (kr.1, kr.2.move f) }
def OpKind.stays : OpKind → Bool
  | .teasel .. | .gate .. | .net .. => true
  | _ => false
def Op.move (f : Nat → Nat) (o : Op) : Op :=
  { o with
    core := if o.kind.stays then o.core else f o.core
    unit := match o.kind with
      | .gate .. => o.unit
      | _ => moveUnit f o.unit }
def State.moveCtx (s : State) (c : Nat) (f : Nat → Nat) : State :=
  let mine (w : Wave) : Bool := match s.block w.block with
    | some b => b.ctx = c
    | none => false
  let groups := (s.blocks.filter fun kb => kb.2.ctx = c).map fun kb => kb.2.group
  { s with
    waves := (s.waves.filter fun uw => mine uw.2).foldl
      (fun m uw => SMap.ins m (64 * f (unitCore uw.1) + unitSlot uw.1) uw.2) (s.waves.filter fun uw => !mine uw.2)
    blocks := s.blocks.map fun kb => if kb.2.ctx = c then (kb.1, kb.2.move f) else kb
    groups := s.groups.map fun kg => if groups.contains kg.1 then (kg.1, { kg.2 with base := f kg.2.base }) else kg
    ops := s.ops.map fun o => if o.ctx = c then o.move f else o
    ctxs := s.ctxs.upd c fun x =>
      { x with
        sigs := x.sigs.map fun kg => (kg.1, kg.2.move f)
        changed := x.changed.map fun kb => (kb.1, kb.2.map fun b => { b with core := f b.core }) } }

/-- Whether a wave name is of a context. -/
def State.ofCtx (s : State) (c uid : Nat) : Bool :=
  match (s.findWave uid).bind fun w => s.block w.block with
  | some b => b.ctx = c
  | none => false

/-- What a core keeps and gives up when a context leaves: the engine where the context holds it or wrote its tiles last,
the waiting waves, where the rotation stands. -/
def CoreSt.leave (s : State) (c : Nat) (k : CoreSt) : CoreSt × CoreSt :=
  let m := k.mat
  let theirs := m.waiters.filter fun u => !s.ofCtx c u
  let ours := m.waiters.filter (s.ofCtx c)
  let away : CoreSt :=
    { CoreSt.empty with
      last := k.last, yielded := k.yielded.keep fun _ u => s.ofCtx c u, turn := k.turn.keep fun n _ => n / 16 = c }
  let here : CoreSt :=
    { k with yielded := k.yielded.keep fun _ u => !s.ofCtx c u, turn := k.turn.keep fun n _ => n / 16 ≠ c }
  if m.lastCtx = some c then
    ({ here with mat := { Matrix.reset with waiters := theirs } }, { away with mat := { m with waiters := ours } })
  else
    ({ here with mat := { m with waiters := theirs } }, { away with mat := { Matrix.reset with waiters := ours } })

/-- The logical cores of a context. -/
def rinkCores (x : Context) : List Nat := List.range (32 * x.nv)

/-- Every core of a context gives up what is the context's. -/
def State.leaveCores (s : State) (c : Nat) (x : Context) : State :=
  (rinkCores x).foldl (fun st l =>
    let p := physCore x l
    let (here, away) := CoreSt.leave s c (s.core p)
    (st.setCore p here).setCore (savedCore c l) away) s

/-- The bytes of the save area: the size for each logical core (17 R370), at most 3.5 MiB (R369)
(DEDUCED: log entry 59). -/
def saveSize : Nat := min Config.saveBytes 3670016
def imageBytes (x : Context) (name : Nat) : List Byte := (List.range (saveSize * 32 * x.nv)).map (Config.saveImage name)
def saveAddr (x : Context) : Nat := x.save.toNat * 4096

/-- CONTEXT_SAVE: once everything has drained, the context leaves its cores and the image is written
(DEDUCED: log entry 59). -/
def State.saveCtx (s : State) (c : Nat) (x : Context) : State :=
  let name := s.fresh
  let s1 := (s.leaveCores c x).moveCtx c fun k => savedCore c (rinkCore x k)
  let s2 := s1.next.writeBytes (homeDie (saveAddr x)) (saveAddr x) (imageBytes x name) false
  s2.onCtx c fun x => { x with residency := .saved, image := some name }

def execContextSave (ctx : Nat) (s : State) : Result :=
  match s.ctx ctx with
  | some x => if x.residency = .preempting && s.drained ctx then .next (s.saveCtx ctx x).changed else .next s
  | none => .next s

/-! ## The drain of a die's event buffer (17 R385, R387) -/

/-- Whether a record is the head of a pair. -/
def Event.isHead (e : Event) : Bool := e.cls = 5 && e.sub = 0

/-- Moves the oldest records to the queue while they fit, a pair as one unit. -/
def moveEvents : Nat → List Event → List Event → List Event × List Event
  | 0, q, b => (q, b)
  | n + 1, q, b =>
    match b with
    | [] => (q, b)
    | e :: rest =>
      if e.isHead then
        match rest with
        | t :: rest' => if q.length + 2 ≤ eventQMax then moveEvents n (q ++ [e, t]) rest' else (q, b)
        | [] => (q, b)
      else if q.length + 1 ≤ eventQMax then moveEvents n (q ++ [e]) rest
      else (q, b)

/-- The summaries enter: each kept first record with its count, then a queue event. -/
def enterSums (pt : Nat) : List EventSummary → List Event → List EventSummary × List Event
  | [], b => ([], b)
  | x :: rest, b =>
    if b.length + 2 ≤ dieBufMax then
      let n := min (x.rest + 1) 65535
      let q : Event :=
        { x.first with
          cls := 11, sub := 0, ctx := 0, replay := false, slot := 0, srck := 7, count := 1, time := pt
          a0 := x.first.cls.setWidth 64, a1 := BitVec.ofNat 64 (x.rest + 1) }
      enterSums pt rest (b ++ [{ x.first with count := n }, q])
    else (x :: rest, b)

/-- Held records enter in their order; the waves that held them. -/
def enterHeld : List HeldEvent → List Event → List Nat → List HeldEvent × List Event × List Nat
  | [], b, ws => ([], b, ws)
  | h :: rest, b, ws =>
    if b.length + h.records.length ≤ dieBufMax then enterHeld rest (b ++ h.records) (ws ++ h.waiter.toList)
    else (h :: rest, b, ws)

/-- EVENT_BUFFER_DRAIN. -/
def State.drainDie (s : State) (die : Nat) : State :=
  let d := s.dieEv.get DieEvents.empty die
  let (q, b) := moveEvents d.buffer.length s.eventQ d.buffer
  let s1 := s.enqueue (q.drop s.eventQ.length)
  let (sums, b1) := enterSums s.pt d.sums b
  let (held, b2, ws) := if sums.isEmpty then enterHeld d.held b1 [] else (d.held, b1, [])
  let s2 : State := { s1 with dieEv := s1.dieEv.put DieEvents.empty die ⟨b2, sums, held⟩ }
  ws.foldl (fun st u => st.onWave u fun w => { w with evtHeld := false }) s2

def execEventBufferDrain (die : Nat) (s : State) : Result :=
  match s.dieEv.find die with
  | some _ => .next (s.drainDie die).changed
  | none => .next s

end Sys2Proof.Machine
end

