-- ==== Sys2Proof/Machine/Host.lean ====
section
/-!
DEFINITION. The host's side (19 R391 to R394, R400): Aqpen sessions, their sequencing and every command; interrupts;
RoCEv2 accesses.
-/
namespace Sys2Proof.Machine

/-! ## Sessions and frames (19 R392, R394) -/

def stOk : Nat := 0
def stUnknownOp : Nat := 1
def stBadLength : Nat := 2
def stBadField : Nat := 3
def stNoContext : Nat := 4
def stExhausted : Nat := 5
def stRefused : Nat := 6
def stUnknownToken : Nat := 7
def stNoSession : Nat := 8
def stBooting : Nat := 9

/-- The most frames either side holds unanswered or unacknowledged. -/
def frameWindow : Nat := 64
/-- The header rules (19 R392): VER is 1, RSV 0, LEN at most 8,192. -/
def headerOk (h : AqpenHeader) : Bool := h.ver = 1 && h.rsv = 0 && decide (h.len.toNat ≤ 8192)

/-- The ACK of a frame: the highest contiguous SEQ received, frames that are kept early counted (19 R392). -/
def Session.ack (ss : Session) : Nat :=
  ss.early.foldl (fun n _ => if ss.early.any fun e => e.seq = n + 1 then n + 1 else n) ss.done

/-- Sends a frame of a session that the host has to acknowledge. -/
def State.sendFrame (s : State) (n : Nat) (mk : Nat → Nat → HostFrame) : State :=
  match s.sessions.find n with
  | none => s
  | some ss =>
    let f := mk (ss.seq + 1) ss.ack
    { s with
      sessions := s.sessions.ins n { ss with seq := ss.seq + 1, unacked := ss.unacked ++ [(ss.seq + 1, s.pt, f)] }
      host := s.host ++ [f] }

/-- The response to the command of a SEQ, kept for a retransmission of it. -/
def State.respond (s : State) (n seq : Nat) (op : Byte) (status : Nat) (p : Payload) : State :=
  match s.sessions.find n with
  | none => s
  | some ss =>
    let f := HostFrame.response n (ss.seq + 1) ss.ack (op ||| 0x80#8) status p
    let kept : Session :=
      { ss with
        held := ss.held.filter fun e => e.seq ≠ seq
        stored := (ss.stored ++ [(seq, f)]).drop (ss.stored.length + 1 - frameWindow) }
    let s1 : State := { s with sessions := s.sessions.ins n kept }
    s1.sendFrame n fun _ _ => f

/-- A response outside any session (DEDUCED: log entry 61). -/
def State.answerLoose (s : State) (sess : Nat) (op : Byte) (status : Nat) : State :=
  { s with host := s.host ++ [.response sess 0 0 (op ||| 0x80#8) status .none] }

/-- What a command comes to: its response now, or later. -/
inductive Reply
  | now (status : Nat) (p : Payload) (s : State)
  | later (s : State)

/-- Whether the device can be reached: it answers nothing once halted, and has no address before step 6 (19 R395). -/
def State.reachableHost (s : State) : Bool := s.boot.halted.isNone && decide (6 ≤ s.boot.step)

/-- Frames the host has received need no retransmission (DEDUCED: log entry 61). -/
def Session.acked (ss : Session) (ack : Nat) : Session := { ss with unacked := ss.unacked.filter fun f => ack < f.1 }

/-- Commands not answered yet: those kept and those whose response follows later. -/
def unanswered (s : State) (n : Nat) (ss : Session) : Nat :=
  ss.held.length + ss.early.length + (s.ctxs.filter fun kx => kx.2.preemptFor.any (fun p => p.1 = n) || kx.2.destroying.any fun p => p.1 = n).length

/-- Whether a command that names context c has to wait: for a PREEMPT or CTXDESTROY of it, or behind an earlier command
that waits (19 R394). -/
def ctxBusy (s : State) (ss : Session) (seq : Nat) (c : Option Nat) : Bool :=
  match c with
  | none => false
  | some c => (s.ctx c).any (fun x => x.preemptFor.isSome || x.destroying.isSome) ||
      ss.held.any fun e => e.seq < seq && e.ctx = some c
/-- Whether a session has room for one more unacknowledged frame. -/
def State.maySend (s : State) (n : Nat) : Bool := (s.sessions.find n).any fun ss => decide (ss.unacked.length < frameWindow)

/-- Runs a command whose turn has come (DEDUCED: log entry 61). -/
def runCommand (s : State) (n seq : Nat) (op : Byte) (early : Bool) (body : State → Reply) : State :=
  if s.boot.step ≠ 8 && !early then s.respond n seq op stBooting .none
  else match body s with
    | .now status p s1 => s1.respond n seq op status p
    | .later s1 =>
      { s1 with sessions := s1.sessions.upd n fun ss => { ss with held := ss.held.filter fun e => e.seq ≠ seq } }

/-- Where a closed session's record is kept: what it answered is sent again to a duplicate of its CLOSE. -/
def closedKey (n : Nat) : Nat := n + 65536
/-- A duplicate of an executed command: the stored response goes out again (19 R394). -/
def State.resend (s : State) (ss : Session) (seq : Nat) : State :=
  match ss.stored.find? fun e => e.1 = seq with
  | some (_, f) => { s with host := s.host ++ [f] }
  | none => s
/-- A command frame is kept until its turn. -/
def State.keepFrame (s : State) (n : Nat) (f : Session → Session) : State := { s with sessions := s.sessions.upd n f }

/-- A command frame whose SEQ is the next to be started: held while its context is busy, with its frame where it was kept
early. -/
def startCommand (s : State) (n seq : Nat) (op : Byte) (early : Bool) (c : Option Nat) (body : State → Reply) : State :=
  let kept := ((s.sessions.find n).bind fun ss => ss.early.find? fun e => e.seq = seq).bind HeldCommand.frame
  let s1 := s.keepFrame n fun ss => { ss with done := seq, early := ss.early.filter fun e => e.seq ≠ seq }
  if (s.sessions.find n).any fun ss => ctxBusy s ss seq c then
    s1.keepFrame n fun ss => { ss with held := ss.held ++ [⟨seq, c, kept⟩] }
  else runCommand s1 n seq op early body

/-- An Aqpen command frame of an open session: started in SEQ order, once; kept where frames before it are missing; a
duplicate of one that was executed gets its response again (19 R394). -/
def takeCommand (s : State) (ss : Session) (n seq : Nat) (op : Byte) (early : Bool) (c : Option Nat) (body : State → Reply) :
    State :=
  if seq ≤ ss.done then
    if ss.held.any fun e => e.seq = seq then
      if ctxBusy s ss seq c || !s.maySend n then s else runCommand s n seq op early body
    else s.resend ss seq
  else if frameWindow < unanswered s n { ss with early := [] } + (seq - ss.done) then s
  else if seq = ss.done + 1 then
    if s.maySend n then startCommand s n seq op early c body else s
  else if ss.early.any fun e => e.seq = seq then s
  else s.keepFrame n fun ss => { ss with early := ss.early ++ [⟨seq, c, none⟩] }

/-- An Aqpen command frame (19 R392, R394). `early` commands are accepted while the device boots; a payload of the wrong
length is answered with status 2 (DEDUCED: log entry 61). -/
def aqpen (s : State) (h : AqpenHeader) (op : Byte) (early : Bool) (c : Option Nat) (body : State → Reply) : Result :=
  let n := h.sess.toNat
  let seq := h.seq.toNat
  if !s.reachableHost || !headerOk h then .next s
  else match s.sessions.find n with
    | none =>
      match s.sessions.find (closedKey n) with
      | some ss =>
        let s1 := s.keepFrame (closedKey n) fun ss => ss.acked h.ack.toNat
        .next (if seq ≤ ss.done then s1.resend ss seq else s1.answerLoose n op stNoSession).changed
      | none => .next (s.answerLoose n op (if s.boot.step ≠ 8 && !early then stBooting else stNoSession)).changed
    | some ss0 =>
      let ss := ss0.acked h.ack.toNat
      let s1 : State := { s with sessions := s.sessions.ins n ss }
      .next (takeCommand s1 ss n seq op early c (if h.fits then body else fun s => .now stBadLength .none s)).changed

/-- The first kept frame whose turn has come. -/
def Session.ready (s : State) (ss : Session) : Option Instr :=
  if frameWindow ≤ ss.unacked.length then none
  else match ss.held.find? fun e => e.frame.isSome && !ctxBusy s ss e.seq e.ctx with
    | some e => e.frame
    | none => (ss.early.find? fun e => e.seq = ss.done + 1).bind HeldCommand.frame
def State.readyFrame (s : State) : Option Instr :=
  if s.reachableHost then s.sessions.findSome? fun kn => kn.2.ready s else none
/-- A frame just taken is kept with the command that waits. -/
def Session.fill (i : Instr) (ss : Session) : Session :=
  let f (e : HeldCommand) : HeldCommand := if e.frame.isNone then { e with frame := some i } else e
  { ss with held := ss.held.map f, early := ss.early.map f }
def State.fillFrames (s : State) (i : Instr) : State :=
  if s.sessions.any fun kn => (kn.2.held ++ kn.2.early).any fun e => e.frame.isNone then
    { s with sessions := s.sessions.map fun kn => (kn.1, kn.2.fill i) }
  else s

/-- A command of a context of the session. -/
def onContext (n c : Nat) (body : Context → State → Reply) (s : State) : Reply :=
  match s.ctx c with
  | some x => if x.sess = n then body x s else .now stNoContext .none s
  | none => .now stNoContext .none s
def ctxCommand (s : State) (h : AqpenHeader) (op : Byte) (c : Nat) (body : Context → State → Reply) : Result :=
  aqpen s h op false (some c) (onContext h.sess.toNat c body)
def okState (s : State) : Reply := .now stOk .none s
def badField (s : State) : Reply := .now stBadField .none s

/-! ## Interrupts -/

/-- The session an interrupt goes to: its context's, or the lowest open one (DEDUCED: log entry 63). -/
def irqSession (s : State) (i : Irq) : Option Nat :=
  let own : Option Nat := match i with
    | .completion c .. => ((s.ctx c).map Context.sess).bind fun n => if s.sessions.has n then some n else none
    | _ => none
  match own with
  | some n => some n
  | none => (s.sessions.find? fun kn => kn.1 ≤ 4).map (·.1)
/-- Sends the interrupts that can be sent, the first of the list first (19 R394) (DEDUCED: log entry 63). -/
def sendIrqList : List Irq → State → State
  | [], s => { s with irqs := [] }
  | i :: rest, s =>
    match irqSession s i with
    | none => { s with irqs := i :: rest }
    | some n =>
      if (s.sessions.find n).any fun ss => frameWindow ≤ ss.unacked.length then
        let s1 := sendIrqList rest s
        { s1 with irqs := i :: s1.irqs }
      else sendIrqList rest (s.sendFrame n fun q a => .irq n q a i)
def State.sendIrqs (s : State) : State :=
  if s.reachableHost && !s.irqs.isEmpty then sendIrqList s.irqs s else s

/-- AQPEN_RETRANSMIT: an unacknowledged frame is sent again 100 µs after it was sent. -/
def execAqpenRetransmit (sess seq : Nat) (s : State) : Result :=
  let key := if s.sessions.has sess then sess else closedKey sess
  match s.sessions.find key with
  | none => .next s
  | some ss =>
    match ss.unacked.find? fun f => f.1 = seq with
    | some (_, t, f) =>
      if t + 100000 ≤ s.pt && s.reachableHost then
        let again : Session := { ss with unacked := ss.unacked.map fun e => if e.1 = seq then (seq, s.pt, f) else e }
        .next { s with sessions := s.sessions.ins key again, host := s.host ++ [f] }.changed
      else .next s
    | none => .next s

/-- UNKNOWN_OPCODE_FRAME: a bad header is discarded, an unknown opcode answered with status 1. -/
def execUnknownOpcodeFrame (frame : BadFrame) (s : State) : Result :=
  match frame with
  | .badHeader => .next s
  | .unknownOp h op => aqpen s h op false none fun s => .now stUnknownOp .none s

/-! ## OPEN, CLOSE, STATUS (19 R393, R396, R398) -/

/-- The fuse advances at an OPEN that asks for it, to a verified image's higher version. -/
def Boot.advance (b : Boot) (flag : Bool) : Boot :=
  match b.image with
  | some v => if flag && b.svn.toNat < v.1.toNat then { b with svn := v.1 } else b
  | none => b

def execOpenSession (h : AqpenHeader) (advance : Bool) (s : State) : Result :=
  if !s.reachableHost || !headerOk h || h.sess ≠ 0 then .next s
  else if !h.fits then .next (s.answerLoose 0 0x01 stBadLength).changed
  else match [1, 2, 3, 4].find? fun n => !s.sessions.has n with
    | none => .next (s.answerLoose 0 0x01 stExhausted).changed
    | some n =>
      let s1 : State := { s with
        sessions := (s.sessions.del (closedKey n)).ins n ⟨h.seq.toNat, [], [], [], 0, []⟩
        boot := s.boot.advance advance }
      .next (s1.respond n h.seq.toNat 0x01 stOk (.session n)).changed

/-- A hard cancel at job level of every job of a context. -/
def jobWord (j : Nat) : Word := BitVec.ofNat 32 (7 + 16 * j)
def State.cancelJobs (s : State) (c : Nat) : State := (List.range 16).foldl (fun st j => st.cancel c (jobWord j) 0) s

/-- A frame that answers a CLOSE with OK. -/
def HostFrame.closes : HostFrame → Bool
  | .response _ _ _ op status _ => op = 0x82#8 && status = stOk
  | _ => false
/-- A context of a closed session: it belongs to no session any more, and no session gets a response it waits for. -/
def Context.leaveSession (n : Nat) (x : Context) : Context :=
  let gone (p : Option (Nat × Nat)) : Option (Nat × Nat) := p.map fun k => if k.1 = n then (0, k.2) else k
  { x with sess := if x.sess = n then 0 else x.sess, preemptFor := gone x.preemptFor, destroying := gone x.destroying }
/-- CLOSE: the session's contexts are hard-cancelled at job level and belong to no session any more. What it answered is
kept for a duplicate (DEDUCED: log entry 61). -/
def execCloseSession (h : AqpenHeader) (s : State) : Result :=
  let n := h.sess.toNat
  let r := aqpen s h 0x02 false none fun s =>
    let mine := (s.ctxs.filter fun kx => kx.2.sess = n).map (·.1)
    let s1 := mine.foldl State.cancelJobs s
    okState { s1 with ctxs := s1.ctxs.map fun kx => (kx.1, kx.2.leaveSession n) }
  match r with
  | .next s1 =>
    match s1.sessions.find n with
    | some ss =>
      if ss.stored.any fun e => e.1 = h.seq.toNat && e.2.closes then
        .next { s1 with sessions := (s1.sessions.del n).ins (closedKey n) { ss with held := [], early := [] } }
      else .next s1
    | none => .next s1
  | r => r

def execStatusQuery (h : AqpenHeader) (s : State) : Result :=
  aqpen s h 0x03 true none fun s =>
    let b := s.boot
    .now stOk (.status b.step b.kind s.tier2 b.fenced b.accel b.svn Config.partNumber Config.serial) s

/-! ## Contexts (14 R320; 17 R357, R367 to R372) -/

/-- A virtual die table: the physical dies of N_V entries, where it meets R320 (DEDUCED: log entry 62). -/
def dieTable (nv : Nat) (l : List Byte) : Option (List Nat) :=
  let valid (b : Byte) : Bool := b.getLsbD 2
  let dies := (l.take nv).map fun b => b.toNat % 4
  let hops (i j : Nat) : Bool := popcount2 (dies.getD i 0 ^^^ dies.getD j 0) = popcount2 (i ^^^ j)
  if l.length = 4 && (l.take nv).all valid && !(l.drop nv).any valid && l.all (fun b => b.toNat / 8 = 0) && dies.Nodup
      && (List.range nv).all fun i => (List.range nv).all fun j => hops i j
  then some dies else none

/-- An area of a context lies in one home's memory, where it is not empty (14 R329) (DEDUCED: log entry 62). -/
def areaOk (s : State) (addr : BitVec 64) (size : Nat) : Bool :=
  let a := addr.toNat
  size = 0 || (s.isMemory a && s.isMemory (a + size - 1) && homeDie a = homeDie (a + size - 1))

def execCtxcreate (h : AqpenHeader) (c : CtxCreate) (s : State) : Result :=
  aqpen s h 0x10 false (some c.number) fun s =>
    if 255 < c.number || (s.ctx c.number).isSome || 1 < c.mode || !([1, 2, 4].contains c.nv) || c.weight = 0 || 255 < c.weight
        || !(areaOk s c.queueAddr c.queueSize && areaOk s c.faddoAddr c.faddoSize && areaOk s c.sigAddr c.sigSize
          && areaOk s c.unexpAddr c.unexpSize) then
      badField s
    else match dieTable c.nv c.table with
      | none => .now stRefused .none s
      | some table =>
        let x : Context := { Context.none with
          compulsory := c.mode = 1, nv := c.nv, table := table, weight := c.weight
          queueArea := (c.queueAddr, c.queueSize), faddoArea := (c.faddoAddr, c.faddoSize)
          sigArea := (c.sigAddr, c.sigSize), unexpArea := (c.unexpAddr, c.unexpSize)
          faddoMax := c.faddoSize, sess := h.sess.toNat }
        okState (s.setCtx c.number x)

/-- The context record (17 R357; 21 R431) and its write. -/
def ctxImage (x : Context) : BitVec 288 :=
  0#16 ++ x.linktag ++ 0#88 ++ x.save ++ 0#16 ++ x.asid ++ x.root ++ x.traph
def ctxFields (i : BitVec 288) (x : Context) : Context :=
  { x with
    traph := i.extractLsb' 0 64, root := i.extractLsb' 64 40, asid := i.extractLsb' 104 8
    save := i.extractLsb' 128 40, linktag := i.extractLsb' 256 16 }
/-- Reserved bits 0, TRAPH canonical and a multiple of 4 (DEDUCED: log entry 62). -/
def ctxImageOk (i : BitVec 288) : Bool :=
  let t := (i.extractLsb' 0 64).toNat
  i.extractLsb' 112 16 = 0#16 && i.extractLsb' 168 88 = 0#88 && i.extractLsb' 272 16 = 0#16 && t % 4 = 0 && canonical t

def execCtxwrite (h : AqpenHeader) (ctx offset : Nat) (bytes : List (BitVec 8)) (s : State) : Result :=
  ctxCommand s h 0x11 ctx fun x s =>
    if 36 < offset + bytes.length then badField s
    else
      let old := leBytes 36 (ctxImage x).toNat
      let i : BitVec 288 := BitVec.ofNat 288 (leNat (old.take offset ++ bytes ++ old.drop (offset + bytes.length)))
      if ctxImageOk i then okState (s.setCtx ctx (ctxFields i x)) else badField s

/-- A context that is not on its cores gives up its blocks and waves at once. -/
def State.discardSaved (s : State) (c : Nat) : State :=
  let uids := (s.blocks.filter fun kb => kb.2.ctx = c).map (·.1)
  let s1 := uids.foldl State.dropWaves s
  let gs := (s.blocks.filter fun kb => kb.2.ctx = c).map fun kb => kb.2.group
  let s2 : State := { s1 with
    blocks := s1.blocks.keep fun _ b => b.ctx ≠ c
    groups := s1.groups.keep fun g _ => !gs.contains g
    cores := s1.cores.keep fun k _ => k < 128 || k / 128 - 1 ≠ c }
  s2.onCtx c fun x =>
    { x with recs := x.recs.map fun r =>
        { r with live := 0, replays := [], state := if r.state = .running then .completing else r.state } }

/-- CTXDESTROY: every job is hard-cancelled; the response follows when all has completed (DEDUCED: log entry 62). -/
def execCtxdestroy (h : AqpenHeader) (ctx : Nat) (s : State) : Result :=
  ctxCommand s h 0x12 ctx fun x s =>
    let s1 := (List.range 16).foldl (fun st j => st.applyCancel ctx (jobWord j) 0)
      (s.onCtx ctx fun x => { x with subs := [], cancels := [], destroying := some (h.sess.toNat, h.seq.toNat) })
    .later (if x.residency = .resident then s1 else s1.discardSaved ctx)

/-- Frees a context whose records have completed. -/
def State.freeCtx (s : State) (c : Nat) : State :=
  { s with
    ctxs := s.ctxs.del c
    ops := s.ops.filter fun o => o.ctx ≠ c
    faults := s.faults.filter fun f => f.ctx ≠ c
    regs := s.regs.keep fun _ r => r.ctx ≠ c
    cores := (s.cores.keep fun k _ => k < 128 || k / 128 - 1 ≠ c).map fun kc =>
      if kc.2.mat.lastCtx = some c then (kc.1, { kc.2 with mat := { Matrix.reset with waiters := kc.2.mat.waiters } }) else kc }
/-- A CTXDESTROY that waits ends once nothing of the context is left (DEDUCED: log entry 62). -/
def State.endDestroys (s : State) : State :=
  s.ctxs.foldl (fun st kx => match kx.2.destroying with
    | some (n, seq) =>
      if kx.2.recs.isEmpty && kx.2.subs.isEmpty && (n = 0 || st.maySend n) && !s.blocks.any fun kb => kb.2.ctx = kx.1 then
        ((st.freeCtx kx.1).respond n seq 0x12 stOk .none).changed
      else st
    | none => st) s

/-- PREEMPT: the response follows the save (17 R367). -/
def execPreempt (h : AqpenHeader) (ctx : Nat) (s : State) : Result :=
  ctxCommand s h 0x13 ctx fun x s =>
    if x.residency = .saved || x.residency = .broken then okState s
    else .later ((s.startPreempt ctx).onCtx ctx fun x => { x with preemptFor := some (h.sess.toNat, h.seq.toNat) })
/-- A PREEMPT that waits ends once its context is saved. -/
def State.endPreempts (s : State) : State :=
  s.ctxs.foldl (fun st kx => match kx.2.preemptFor with
    | some (n, seq) =>
      if kx.2.residency = .saved && (n = 0 || st.maySend n) then
        ((st.onCtx kx.1 fun x => { x with preemptFor := none }).respond n seq 0x13 stOk .none).changed
      else st
    | none => st) s

/-! ### RESTORE (17 R371, R372; 20 R420) -/

/-- The wave slots that blocks hold: running and saved waves, and forerunner contexts. -/
def slotsOf (s : State) (core : Nat) : List Nat :=
  ((s.waves.filter fun uw => unitCore uw.1 = core).map fun uw => unitSlot uw.1)
    ++ (coreBlocks s core).flatMap fun b => b.stack.flatMap fun e => e.saved.map SavedWave.slot
/-- Whether what a descheduled core holds fits on a core beside what is there (DEDUCED: log entry 60). -/
def restoreFits (s : State) (src core : Nat) : Bool :=
  let ours := s.blocks.filter fun kb => kb.2.core = src && !kb.2.ended
  let here := s.blocks.filter fun kb => kb.2.core = core && !kb.2.ended
  let scratch := ((s.blocks.filter fun kb => (kb.2.core = src || kb.2.core = core) && holdsScratch s kb.2).map
    fun kb => kb.2.scratch).foldl (· + ·) 0
  let m := s.mat core
  let sm := s.mat src
  (s.blocks.filter fun kb => kb.2.core = src).isEmpty ||
    (coreSet s core
      && (ours ++ here).length ≤ 8
      && scratch ≤ 2 ^ 20
      && !(slotsOf s src).any (slotsOf s core).contains
      && !(ours.any fun a => here.any fun b => a.2.slot = b.2.slot)
      && (List.range 8).all (fun k => ((ours ++ here).map fun kb => kb.2.laneRegs.getD k 0).foldl (· + ·) 0 ≤ sliceRegs)
      && ((sm.owner.isNone && sm.queue.isEmpty) || m.free))
/-- Cluster barriers are free for the groups that come back (DEDUCED: log entry 60). -/
def groupsFit (s : State) (c : Nat) (x : Context) : Bool :=
  (List.range (8 * x.nv)).all fun k =>
    ((s.groups.filter fun g => g.2.base = physCore x (4 * k)).length
      + (s.groups.filter fun g => g.2.base = savedCore c (4 * k)).length) ≤ 4

/-- A core takes back what it held; its caches start empty. -/
def CoreSt.back (here away : CoreSt) (c : Nat) : CoreSt :=
  let mat := if away.mat.lastCtx = some c && here.mat.free then
      { away.mat with waiters := here.mat.waiters ++ away.mat.waiters }
    else { here.mat with waiters := here.mat.waiters ++ away.mat.waiters }
  { here with
    l1 := [], tlb := []
    last := unionMap here.last away.last, yielded := unionMap here.yielded away.yielded
    turn := unionMap here.turn away.turn, mat := mat }
def State.backCores (s : State) (c : Nat) (x : Context) : State :=
  (rinkCores x).foldl (fun st l =>
    let p := physCore x l
    let q := savedCore c l
    { st.setCore p (CoreSt.back (st.core p) (st.core q) c) with cores := (st.setCore p (CoreSt.back (st.core p) (st.core q) c)).cores.del q }) s

/-- Groups take free cluster barriers. -/
def State.seatGroups (s : State) (names : List Nat) : State :=
  names.foldl (fun st g => match st.groups.find g with
    | none => st
    | some gr =>
      let taken := (st.groups.filter fun k => k.1 ≠ g && k.2.base = gr.base).map fun k => k.2.slot
      let slot := ((List.range 4).find? fun k => !taken.contains k).getD 0
      { st with groups := st.groups.ins g { gr with slot := slot } }) s

/-- Counters changed while descheduled are evaluated in ascending order. -/
def State.evalMarks (s : State) (c : Nat) : State :=
  match s.ctx c with
  | none => s
  | some x =>
    (sortBy (fun a b => decide (a ≤ b)) x.marks).foldl (fun st k =>
      let (s1, rs) := st.evaluate c (k / 65536) (k % 65536)
      s1.applyRaises c rs) (s.onCtx c fun x => { x with marks := [] })

/-- Records are found again under the driver's new translations (17 R371). -/
def State.locate (s : State) (x : Context) (va pa : Nat) : Nat :=
  match walk s x va false false with
  | .ok e => e.phys va
  | _ => pa
def Context.relocate (s : State) (x : Context) : Context :=
  { x with recs := x.recs.map fun r => { r with pa := s.locate x r.addr r.pa } }

/-- The context comes back on a binding (DEDUCED: log entry 60). -/
def State.restoreCtx (s : State) (c : Nat) (x : Context) (table : List Nat) : State :=
  let y := { x with table := table }
  let names := (s.groups.filter fun g => 128 + 128 * c ≤ g.2.base && g.2.base < 256 + 128 * c).map (·.1)
  let stay (o : Op) : Op := if o.ctx = c && o.kind.stays then { o with core := physCore y (rinkCore x o.core) } else o
  let s1 := s.moveCtx c fun k => physCore y (k - (128 + 128 * c))
  let s2 := ({ s1 with ops := s1.ops.map stay }.backCores c y).seatGroups names
  let s3 := s2.onCtx c fun x => { (Context.relocate s { x with table := table }) with residency := .resident, image := .none, cancels := [] }
  x.cancels.foldl (fun st k => st.applyCancel c k.1 k.2) (s3.evalMarks c)

/-- Whether the save area still holds the image (17 R370) (DEDUCED: log entry 59). -/
def imageOk (s : State) (x : Context) : Bool :=
  match x.image with
  | some name => s.read (saveAddr x) (saveSize * 32 * x.nv) == imageBytes x name
  | none => false

def execAqpenRestore (h : AqpenHeader) (ctx : Nat) (dies : List (BitVec 8)) (s : State) : Result :=
  ctxCommand s h 0x14 ctx fun x s =>
    match x.residency with
    | .resident | .preempting => badField s
    | .broken => .now stRefused .none s
    | .saved =>
      match dieTable x.nv dies with
      | none => .now stRefused .none s
      | some table =>
        let y := { x with table := table }
        if !imageOk s x then
          let s1 := s.onCtx ctx fun x => { x with residency := .broken }
          .now stRefused .none (s1.post (seqDie x) false none [mkEvent s1 (Config.contextFault.toNat % 256)
            (Config.contextFault.toNat / 256) ctx 0 0 0 6 false 0 0])
        else if (rinkCores x).all (fun l => restoreFits s (savedCore ctx l) (physCore y l)) && groupsFit s ctx y then
          okState (s.restoreCtx ctx x table)
        else .now stExhausted .none s

def execSavesize (h : AqpenHeader) (s : State) : Result :=
  aqpen s h 0x15 false none fun s => .now stOk (.number saveSize) s

/-! ## Records and cancels (11 R276, R287) -/

def execSubmit (h : AqpenHeader) (ctx : Nat) (records : List (BitVec 64)) (s : State) : Result :=
  ctxCommand s h 0x20 ctx fun _ s =>
    if records.isEmpty || 512 < records.length then badField s
    else okState (s.onCtx ctx fun x => { x with subs := x.subs ++ [⟨records.map BitVec.toNat, .none, [], 0, 0, .none⟩] })

def execAqpenCancel (h : AqpenHeader) (ctx : Nat) (control : BitVec 32) (record : BitVec 64) (s : State) : Result :=
  ctxCommand s h 0x21 ctx fun _ s =>
    if !ctlOk control || (ctlLevel control = 0 && record.toNat % 64 ≠ 0) then badField s
    else okState (s.cancel ctx control record.toNat)

/-! ## Translations and their faults (17 R364, R366) -/

/-- INVAL: every TLB drops what the command names. Every access is translated as it is performed, so none is under way
with a dropped translation (DEDUCED: log entry 69). -/
def execInval (h : AqpenHeader) (asid : BitVec 8) (start length : BitVec 64) (s : State) : Result :=
  aqpen s h 0x22 false none fun s =>
    let a := start.toNat % 2 ^ 57
    let n := length.toNat
    let named (t : TlbEntry) : Bool := t.asid = asid.toNat && (n = 0 || (decide (t.va < a + n) && decide (a < t.va + t.size)))
    okState (s.dropTlb named)

/-- What waits on a token goes on; after FAIL it no longer waits for the page. -/
def deny (page : Nat) (fail : Bool) (l : List Nat) : List Nat := if fail then page :: l else l
def Op.waitsOn (token : Nat) (o : Op) : Bool := o.parked = some token || o.waits.any fun w => w.2 = token
def Op.fixed (token page : Nat) (fail : Bool) (o : Op) : Op :=
  if o.waitsOn token then
    { o with
      parked := if o.parked = some token then none else o.parked
      waits := o.waits.filter fun w => w.2 ≠ token
      denied := deny page fail o.denied }
  else o
def Wave.fixed (token page : Nat) (fail : Bool) (w : Wave) : Wave :=
  if w.wait = .fetch token then { w with wait := .none, fetchDenied := fail }
  else if w.wait = .home token then { w with wait := .none, denied := deny page fail w.denied }
  else w
def Context.fixed (token page : Nat) (fail : Bool) (x : Context) : Context :=
  { x with
    subs := x.subs.map fun b => if b.parked = some token then { b with parked := .none, denied := deny page fail b.denied } else b
    recs := x.recs.map fun r => if r.parked = some token then { r with parked := .none, denied := deny page fail r.denied } else r }
/-- Whether anything but an arrival waits on a token (DEDUCED: log entry 69). -/
def State.waitsOn (s : State) (token : Nat) : Bool :=
  s.ops.any (Op.waitsOn token) || s.waves.any (fun uw => uw.2.wait = .fetch token || uw.2.wait = .home token)
    || s.ctxs.any fun kx => kx.2.subs.any (fun b => b.parked = some token) || kx.2.recs.any fun r => r.parked = some token
/-- The answer to a fault record; after FIX what waited walks again (17 R364). -/
def State.answerFault (s : State) (f : FaultRecord) (fail : Bool) : State :=
  let arrival := fail && f.engine && !s.waitsOn f.token
  let s0 := if fail then s else s.dropTlb fun t => t.asid = f.asid && decide (t.va / 4096 ≤ f.page) && decide (4096 * f.page < t.va + t.size)
  let s1 : State := { s0 with
    faults := s.faults.filter fun g => g.token ≠ f.token
    ops := s.ops.map (Op.fixed f.token f.page fail)
    waves := s.waves.map fun uw => (uw.1, uw.2.fixed f.token f.page fail)
    ctxs := s.ctxs.map fun kx => (kx.1, kx.2.fixed f.token f.page fail) }
  if arrival then s1.onCtx f.ctx fun x => { x with arrDenied := f.page :: x.arrDenied } else s1

def execFixans (h : AqpenHeader) (token : Nat) (answer : BitVec 32) (s : State) : Result :=
  aqpen s h 0x23 false none fun s =>
    match s.faults.find? fun f => f.token = token with
    | none => .now stUnknownToken .none s
    | some f => if 1 < answer.toNat then badField s else okState (s.answerFault f (answer = 1))

/-! ## Memory regions and RoCEv2 (19 R391) -/

def execMemreg (h : AqpenHeader) (ctx : Nat) (va length : BitVec 64) (access : BitVec 32) (s : State) : Result :=
  ctxCommand s h 0x24 ctx fun _ s =>
    let ok := length ≠ 0 && access.toNat < 4 && canonical va.toNat && canonical (va + length - 1).toNat
    if !ok then badField s
    else .now stOk (.number s.fresh)
      { s with regs := s.regs.ins s.fresh ⟨ctx, va.toNat, length.toNat, access⟩, fresh := s.fresh + 1 }

/-- A region that allows an access of n bytes; bit `right` of its access word is needed (DEDUCED: log entry 64). -/
def regionFor (s : State) (region right va n : Nat) : Option (Nat × Context) :=
  match s.regs.find region with
  | some r =>
    if r.access.getLsbD right && decide (r.va ≤ va) && decide (va + n ≤ r.va + r.len) then (s.ctx r.ctx).map fun x => (r.ctx, x)
    else none
  | none => none
def State.tell (s : State) (f : HostFrame) : State := { s with host := s.host ++ [f] }

/-- Whether the engine takes a packet: of one of its 1,024 queue pairs, once the device is ready. -/
def State.takesRoce (s : State) (m : RoceMark) : Bool := s.boot.step = 8 && m.qp < 1024
/-- A packet that carries the mark of congestion makes the device send a notification (19 R391). -/
def State.notify (s : State) (m : RoceMark) : State := if m.ecn then s.tell (.congestion m.qp) else s

/-- RDMA_WRITE. One that meets a replayable fault is not accepted; the engine presents it again (17 R364). Of one that meets
an error or a conflict the other bytes are written, and it is not acknowledged (DEDUCED: log entry 64). -/
def execRdmaWrite (target : RoceTarget) (va : BitVec 64) (bytes : List (BitVec 8)) (s0 : State) : Result :=
  let mark := target.mark
  let region := target.region
  let range := (va.toNat, bytes.length)
  let s := s0.notify mark
  if !s0.takesRoce mark then .next s0
  else match regionFor s region 1 va.toNat bytes.length with
    | none => .next (s.tell (.rdmaAck false)).changed
    | some (c, x) =>
      match firstFault s x x.arrDenied false true [range] with
      | some (a, p) => .next (s.arrivalFault c x 0 a true p).changed
      | none =>
        let w := (EngW.start s).write c x.regions none true none x.arrDenied range.1 (bytes.map fun b => some (b, false))
        .next ((w.s.forgetDenied c [range]).tell (.rdmaAck (w.err.isNone && w.withheld.isEmpty))).changed

/-- RDMA_READ (DEDUCED: log entry 64). -/
def execRdmaRead (target : RoceTarget) (va : BitVec 64) (length : Nat) (s0 : State) : Result :=
  let mark := target.mark
  let region := target.region
  let range := (va.toNat, length)
  let s := s0.notify mark
  if !s0.takesRoce mark then .next s0
  else match regionFor s region 0 va.toNat length with
    | none => .next (s.tell (.rdmaAck false)).changed
    | some (c, x) =>
      match firstFault s x x.arrDenied true false [range] with
      | some (a, p) => .next (s.arrivalFault c x 0 a false p).changed
      | none =>
        match readFail s x x.arrDenied range.1 range.2 with
        | some _ => .next ((s.forgetDenied c [range]).tell (.rdmaAck false)).changed
        | none =>
          .next ((s.forgetDenied c [range]).tell (.rdma (payloadBytes (engineRead s x x.arrDenied range.1 range.2)))).changed

/-- SEND: one that arrives on a connection is acknowledged; the manual says nothing of what takes it
(DEDUCED: log entry 73). -/
def execRoceSend (mark : RoceMark) (_bytes : List (BitVec 8)) (s : State) : Result :=
  if s.takesRoce mark then .next ((s.notify mark).tell (.rdmaAck true)).changed else .next s

/-- CONGESTION_NOTIFICATION_PACKET: the answer is a lower rate, which shows in timing alone (19 R391)
(DEDUCED: log entry 64). -/
def execCongestionNotificationPacket (_qp : Nat) (s : State) : Result := .next s.changed

/-- PRIORITY_FLOW_CONTROL_FRAME, of a priority for which the host has enabled it (19 R390). When the frames held back
leave is timing (DEDUCED: log entry 64). -/
def execPriorityFlowControlFrame (priority : Nat) (pause : Bool) (s : State) : Result :=
  if 8 ≤ priority || !s.boot.pfc.getLsbD priority then .next s
  else
    let others := s.boot.paused.filter fun p => p ≠ priority
    .next { s with boot := { s.boot with paused := if pause then priority :: others else others } }.changed

/-! ## Events and registers -/

/-- The most events that a response has room for: 8,192 bytes with the status word (19 R392) (DEDUCED: log entry 70). -/
def eventsMax : Nat := 255
/-- EVTREAD never ends between the records of a pair (17 R385) (DEDUCED: log entry 70). -/
def readCount (q : List Event) (n : Nat) : Nat :=
  match q[n - 1]? with
  | some e => if e.isHead then n - 1 else n
  | none => q.length
def execEvtread (h : AqpenHeader) (count : Nat) (s : State) : Result :=
  aqpen s h 0x30 false none fun s =>
    if count = 0 || 256 < count then badField s
    else
      let n := readCount s.eventQ (min count eventsMax)
      .now stOk (.events (s.eventQ.take n)) { s with eventQ := s.eventQ.drop n }

/-- A register that every die has, the I/O die with number 4 among them: its error counters (17 R373). -/
def ofAnyDie (reg : DieReg) : Bool :=
  match reg with
  | .errors _ => true
  | _ => false
def execRegread (h : AqpenHeader) (die : Nat) (reg : DieReg) (s : State) : Result :=
  aqpen s h 0x40 false none fun s =>
    if 5 ≤ die || (die = 4 && !ofAnyDie reg) then badField s
    else match reg with
      | .harvest => .now stOk (.word ((s.boot.harvest.get 0 die).setWidth 64)) s
      | .spare => .now stOk (.word ((s.boot.spare.get 0 die).setWidth 64)) s
      | .lct => .now stOk (.bytes ((List.range 32).map fun l =>
          ((s.boot.lct.find (32 * die + l)).map (BitVec.ofNat 8)).getD (Config.unsetCore.setWidth 8))) s
      | .errors struc =>
        if 256 ≤ struc then badField s else .now stOk (.word ((s.boot.errors.get 0 (256 * die + struc)).setWidth 64)) s

/-! ## Debug (04 R124; 17 R358) -/

def execDebugClaim (h : AqpenHeader) (ctx : Nat) (s : State) : Result :=
  ctxCommand s h 0x41 ctx fun _ s => okState (s.onCtx ctx fun x => { x with debugClaim := true })

/-- The wave of a context in a unit, its core counted in the rink (DESIGN CHOICE: log entry 71). -/
def debugWave (s : State) (c : Nat) (x : Context) (unit : Nat) : Option (Nat × Wave × Block) :=
  if unitCore unit < 32 * x.nv && x.live then
    let u := 64 * physCore x (unitCore unit) + unitSlot unit
    (s.wave u).bind fun w => (s.block w.block).bind fun b => if b.ctx = c then some (u, w, b) else none
  else none
def debugCommand (s : State) (h : AqpenHeader) (ctx unit : Nat) (body : Nat → Wave → Block → State → Reply) : Result :=
  ctxCommand s h 0x41 ctx fun x s => match debugWave s ctx x unit with
    | some (u, w, b) => body u w b s
    | none => badField s

/-- A running wave halts; one that is stopped or halted stays as it is (DEDUCED: log entry 68). -/
def execDebugHalt (h : AqpenHeader) (ctx unit : Nat) (s : State) : Result :=
  debugCommand s h ctx unit fun u w _ s =>
    if w.run = .running then okState ((s.setWave u { w with run := .halted }).passTurn u w false) else okState s

/-- A stopped wave goes on at TRAPPC with HND = 0, a halted one where it is (DEDUCED: log entry 30). -/
def execDebugResume (h : AqpenHeader) (ctx unit : Nat) (s : State) : Result :=
  debugCommand s h ctx unit fun u w _ s =>
    match w.run with
    | .running => badField s
    | .halted => okState (s.setWave u { w with run := .running })
    | .stopped => okState (s.setWave u { w with run := .running, pc := w.csr.trappc, csr := { w.csr with hnd := false } })

def execDebugEnd (h : AqpenHeader) (ctx unit : Nat) (s : State) : Result :=
  debugCommand s h ctx unit fun u w _ s =>
    if w.run = .running then badField s else okState (s.endWave u w.exitAll)

/-- A CSR as the debugger reads it: the counters as they stand, without the latch of a wave's own read (02 R65, R66)
(DEDUCED: log entry 68). -/
def debugCsr (s : State) (u : Nat) (w : Wave) (b : Block) (i : Nat) : Option Word :=
  (s.ctx b.ctx).bind fun x => match i with
    | 0x010 => some (BitVec.ofNat 32 (if x.compulsory then w.csr.retired.toNat else s.pt))
    | 0x011 => some w.csr.clockHi
    | 0x012 => some (w.csr.retired.extractLsb' 0 32)
    | 0x013 => some w.csr.retiredHi
    | _ => csrRead u w b x i
/-- A register of a wave that exists (DEDUCED: log entry 68). -/
def debugRead (s : State) (u : Nat) (b : Block) (r : DebugReg) (w : Wave) : Option DWord :=
  match r with
  | .v n l => if n < b.vregs && l < w.count then some ((w.getV n l).setWidth 64) else none
  | .e n l => if n < b.vregs && l < w.count then some ((w.getE n l).setWidth 64) else none
  | .s n => if n < b.sregs then some ((w.getS n).setWidth 64) else none
  | .m n => if n < 16 && !w.fore then some (w.getM n) else none
  | .csr i => (debugCsr s u w b i.toNat).map fun v => v.setWidth 64
  | .pc => some w.pc
/-- The wave with a register written; `none` where the register cannot be: a read-only CSR, a pc that is no address of an
instruction (DEDUCED: log entry 68). -/
def debugWrite (r : DebugReg) (x : DWord) (w : Wave) : Option Wave :=
  match r with
  | .v n l => some (w.putV n l (x.setWidth 32))
  | .e n l => some (w.putE n l (x.setWidth 8))
  | .s n => some (w.putS n (x.setWidth 32))
  | .m n => some (w.wrM n x)
  | .csr i => csrWrite w i.toNat (x.setWidth 32)
  | .pc => if x.toNat % 4 = 0 then some { w with pc := x } else none
def execDebugRegisterAccess (h : AqpenHeader) (ctx unit : Nat) (reg : DebugReg) (write : Option (BitVec 64)) (s : State) :
    Result :=
  debugCommand s h ctx unit fun u w b s =>
    match (if w.run = .running then none else debugRead s u b reg w), write with
    | none, _ => badField s
    | some v, none => .now stOk (.word v) s
    | some _, some x => match debugWrite reg x w with
      | some w1 => okState (s.setWave u w1)
      | none => badField s

/-! ## Attestation (19 R400) -/

/-- What measurements cover (19 R400), but for the boot ROM, which does not change: the image's digest and SVN, the fuses,
each die's HARVEST. -/
def measured (b : Boot) : List Nat :=
  [b.image.elim 0 fun i => i.2.toNat, b.image.elim 0 fun i => i.1.toNat, b.svn.toNat, b.vendorKey.toNat]
    ++ (List.range 4).map (fun d => (b.goodCores.get 0 d).toNat) ++ (List.range 4).map fun d => (b.harvest.get 0 d).toNat
/-- The longest body: a response of 8,192 bytes has a status word, SPDM's version and the code before it (19 R392). -/
def spdmMax : Nat := 8186
/-- CERTIFICATE: as much of the chain from an offset as was asked for and fits, and how much is left
(PRESUMED: log entry 72). -/
def certificateBody (chain : List Byte) (offset length : Nat) : List Byte :=
  let n := min (min length (chain.length - offset)) (spdmMax - 6)
  [0, 0] ++ leBytes 2 n ++ leBytes 2 (chain.length - offset - n) ++ (chain.drop offset).take n
/-- The response to a request, its code and body, and whether it is a fresh one, which draws; `none` where the request is
answered with ERROR. The one chain is that of slot 0 (PRESUMED: log entry 72). -/
def spdmReply (b : Boot) (draw : Nat) (r : SpdmRequest) : Option (Byte × List Byte × Bool) :=
  let fixed (code : Byte) (args : List Nat) := (code, (Config.spdmBody code args b.identity [] 0).take spdmMax, false)
  let fresh (code : Byte) (args : List Nat) :=
    (code, (Config.spdmBody code args b.identity (measured b) draw).take spdmMax, true)
  match r with
  | .getVersion => some (0x04, [0, 0, 0, 1, 0, 0x13], false)
  | .getCapabilities => some (fixed 0x61 [])
  | .negotiateAlgorithms asym hash =>
    if asym / 32 % 2 = 1 && hash / 4 % 2 = 1 then some (fixed 0x63 [asym, hash]) else none
  | .getDigests => some (0x01, [1, 1] ++ sha512 b.chain, false)
  | .getCertificate slot offset length =>
    if slot = 0 && offset < b.chain.length then some (0x02, certificateBody b.chain offset length, false) else none
  | .challenge slot nonce => if slot = 0 then some (fresh 0x03 [nonce.toNat]) else none
  | .getMeasurements index slot nonce => if slot = 0 then some (fresh 0x60 [index, nonce.toNat]) else none
  | .keyExchange | .other _ => none
/-- ERROR's code: an unsupported request, or one that offers no supported algorithm or names what is not there
(PRESUMED: log entry 72). -/
def spdmError (r : SpdmRequest) : List Byte :=
  match r with
  | .keyExchange => [0x07, 0xE4]
  | .other code => [0x07, code]
  | _ => [0x01, 0x00]
def execSpdm (h : AqpenHeader) (request : SpdmRequest) (s : State) : Result :=
  aqpen s h 0x50 false none fun s =>
    match spdmReply s.boot s.draw request with
    | some (code, body, fresh) => .now stOk (.spdm code body) (if fresh then { s with draw := s.draw + 1 } else s)
    | none => .now stOk (.spdm 0x7F (spdmError request)) s

/-! ## Telemetry and power (19 R401, R402) -/

def execTelem (h : AqpenHeader) (s : State) : Result :=
  aqpen s h 0x60 false none fun s =>
    .now stOk (.telem (BitVec.ofNat 16 s.boot.plimit ++ s.boot.telem)) s

def execPlimit (h : AqpenHeader) (watts : Nat) (s : State) : Result :=
  aqpen s h 0x61 false none fun s =>
    if watts < 1200 || 2600 < watts then badField s
    else okState { s with boot := { s.boot with plimit := watts } }

/-- FADDO_LIST_ENLARGE (12 R304). -/
def execFaddoListEnlarge (ctx entries : Nat) (s : State) : Result :=
  match s.ctx ctx with
  | none => .next s
  | some x =>
    if entries ≤ x.faddoMax then .next s
    else .next (s.setCtx ctx { x with faddoMax := entries, faddoFull := false }).changed

end Sys2Proof.Machine
end

