-- ==== Sys2Proof/Machine/Boot.lean ====
section
/-!
DEFINITION. Bring-up, firmware and power (19 R395 to R402; 14 R321, R322).
-/
namespace Sys2Proof.Machine

/-! ## The core deal (14 R322) -/

/-- Logical cores l to 31 of a die, in order: those whose own core is bad take the lowest good core from 32 on. -/
def dealFrom (good : BitVec 36) : Nat → Nat → List Nat → List (Nat × Nat)
  | 0, _, _ => []
  | n + 1, l, spare =>
    if good.getLsbD l then (l, l) :: dealFrom good n (l + 1) spare
    else match spare with
      | p :: rest => (l, p) :: dealFrom good n (l + 1) rest
      | [] => dealFrom good n (l + 1) []
def deal (good : BitVec 36) : List (Nat × Nat) := dealFrom good 32 0 ((List.range 4).map (32 + ·) |>.filter fun p => good.getLsbD p)
def spareOf (good : BitVec 36) : BitVec 36 := good &&& ~~~((deal good).foldl (fun m lp => m ||| (1#36 <<< lp.2)) 0)

def Boot.dealAll (b : Boot) : Boot :=
  { b with
    lct := (List.range 4).foldl (fun m d => (deal (b.harvest.get 0 d)).foldl (fun m lp => SMap.ins m (32 * d + lp.1) lp.2) m) []
    spare := (List.range 4).foldl (fun m d => SMap.put 0 m d (spareOf (b.harvest.get 0 d))) [] }

/-! ## The steps (19 R395) -/

def State.setBoot (s : State) (b : Boot) : State := { s with boot := b }
/-- The next step starts. -/
def Boot.advanceTo (b : Boot) (n : Nat) : Boot := { b with step := n, retried := [] }
def State.halt (s : State) (code : Nat) : State := { s with boot := { s.boot with halted := some code } }

/-- Cores that failed their self-check, as 36 × die + physical core, are bad before the deal (17 R378). -/
def Boot.without (b : Boot) (cores : List Nat) : Boot :=
  cores.foldl (fun b k => if k < 144 then
    { b with harvest := SMap.put 0 b.harvest (k / 36) (SMap.get 0 b.harvest (k / 36) &&& ~~~(1#36 <<< (k % 36))) } else b) b
/-- Step 7's result: the cores are dealt, failing ports fenced, the accelerator id assigned. -/
def State.ready (s : State) (failed : Word) (accel : BitVec 10) (cores : List Nat) : State :=
  { s with boot := { ((s.boot.without cores).dealAll).advanceTo 8 with fenced := s.boot.fenced ||| failed, accel := accel } }

/-- The largest image: 64 MiB, its header of 576 bytes included (19 R397) (DEDUCED: log entry 65). -/
def imageMax : Nat := 67108864
def imageMagic : Word := 0x4E505141
/-- A word of an image's header. -/
def imageWord (l : List Byte) (i : Nat) : Nat := leNat ((l.drop (4 * i)).take 4)
/-- The key whose digest is fused. -/
def RsaKey.ofDigest (d : BitVec 512) : RsaKey := ⟨(Config.vendorKey d).1, (Config.vendorKey d).2⟩
/-- The image's digest: SHA-512 of all of it (DESIGN CHOICE: log entry 82). -/
def imageDigest (l : List Byte) : BitVec 512 := BitVec.ofNat 512 (beNat (sha512 l))
/-- The checks of an image as it was fetched: its header, the body of BLEN bytes, its SVN and its signature under the
vendor key: RSASSA-PSS over the first 64 header bytes and the body. Where the key is and the length of the salt are open
(DESIGN CHOICE: log entry 82). -/
def imageAccepted (b : Boot) (l : List Byte) : Bool :=
  imageWord l 0 = imageMagic.toNat && decide (b.svn.toNat ≤ imageWord l 1) && l.length = 576 + imageWord l 2
    && decide (l.length ≤ imageMax)
    && rsaVerify (RsaKey.ofDigest b.vendorKey) Config.saltLength (l.take 64 ++ l.drop 576) ((l.drop 64).take 512)
/-- The fuses, read once and locked: a later reading, after a reset, finds the same ones (19 R395, R398, R399). -/
def Boot.readFuses (b : Boot) (harvest : List (BitVec 36)) (svn : Word) (key : BitVec 512) : Boot :=
  let b1 : Boot :=
    if b.fused then b
    else { b with
      fused := true, svn := svn, vendorKey := key, identity := Config.identityKey
      goodCores := (harvest.zip (List.range 4)).foldl (fun m hd => SMap.put 0 m hd.2 hd.1) [] }
  { b1 with harvest := b1.goodCores }

/-- What the port can link with (19 R390): a partner that offers nothing it supports leaves the link down. -/
def LinkOffer.matches (o : LinkOffer) : Bool := o.gbps = 800 && o.lanes = 8 && o.rs544

/-- The installed second tier, at most 2 TiB (00 R4) (DEDUCED: log entry 65). -/
def tierMax : Nat := 2199023255552

/-- BRINGUP_STEP_COMPLETE: the step in progress succeeds with what it found (DEDUCED: log entry 65). -/
def execBringupStepComplete (report : BringupReport) (s : State) : Result :=
  let b := s.boot
  if b.halted.isSome then .next s
  else match b.step, report with
    | 1, .fuses harvest svn key => .next (s.setBoot ((b.readFuses harvest svn key).advanceTo 2)).changed
    | 2, .plain => .next (s.setBoot (b.advanceTo 3)).changed
    | 3, .plain => .next (s.setBoot (b.advanceTo 4)).changed
    | 4, .tier kind bytes => .next ({ s with tier2 := min bytes tierMax }.setBoot { b.advanceTo 5 with kind := kind }).changed
    | 4, .plain => .next (s.setBoot (b.advanceTo 5)).changed
    | 5, .link offer => if b.partner && LinkOffer.matches offer then .next (s.setBoot (b.advanceTo 6)).changed else .next s
    | 6, .image bytes =>
      if imageAccepted b bytes then
        .next (s.setBoot { b.advanceTo 7 with
          image := some (BitVec.ofNat 32 (imageWord bytes 1), imageDigest bytes), chain := Config.certificateChain bytes }).changed
      else .next s.changed
    | 7, .firmware failed accel cores => .next (s.ready failed accel cores).changed
    | _, _ => .next s

/-- A part of the step is tried once more: each stack in step 3; then the device halts. -/
def State.retry (s : State) (part code : Nat) : State :=
  if s.boot.retried.contains part then s.halt code else s.setBoot { s.boot with retried := part :: s.boot.retried }

/-- BRINGUP_STEP_TIMEOUT: the step in progress fails, in step 3 one of the 12 stacks, or its retry interval ends
(DEDUCED: log entries 63 and 74). -/
def execBringupStepTimeout (s : State) : Result :=
  let b := s.boot
  if b.halted.isSome then .next s
  else match b.step with
    | 1 => .next (s.halt 1).changed
    | 2 => .next (s.retry 0 2).changed
    | 3 => .next ({ s with draw := s.draw + 1 }.retry ((Config.freeWord s.draw).toNat % 12) 3).changed
    | 4 => .next ({ s with tier2 := 0, irqs := s.irqs ++ [Irq.bringup 4] }.setBoot { b.advanceTo 5 with kind := 0 }).changed
    | 7 =>
      let failed := Config.freeWord s.draw
      .next ({ s with draw := s.draw + 2, irqs := s.irqs ++ [Irq.bringup 7] }.ready failed
        ((Config.freeWord (s.draw + 1)).setWidth 10) []).changed
    | _ => .next s.changed

/-- ETHERNET_PARTNER_SIGNAL. -/
def execEthernetPartnerSignal (s : State) : Result :=
  .next (s.setBoot { s.boot with partner := true }).changed

/-- RESET: the boot ROM starts; the fuses stay as they are, and the frames already sent (DEDUCED: log entry 66). -/
def execResetDevice (s : State) : Result :=
  .next { State.reset with
    boot := { Boot.reset with
      fused := s.boot.fused, svn := s.boot.svn, vendorKey := s.boot.vendorKey, identity := s.boot.identity
      goodCores := s.boot.goodCores }
    host := s.host, link := s.link, agenda := s.agenda, draw := s.draw, fresh := s.fresh }

/-- PORT_FAULT: reported to the host (19 R393). -/
def execPortFault (port : Nat) (s : State) : Result := .next { s with irqs := s.irqs ++ [Irq.port port] }.changed

/-! ## The firmware and its bounds (19 R399) -/

/-- The memory that CTXCREATE names for a context. -/
def Context.areas (x : Context) : List (BitVec 64 × Nat) := [x.queueArea, x.faddoArea, x.sigArea, x.unexpArea]
/-- The memory firewall: n bytes from an address lie in one of a context's areas. -/
def State.firewall (s : State) (c addr n : Nat) : Bool :=
  (s.ctx c).any fun x => x.areas.any fun r => decide (r.1.toNat ≤ addr) && decide (addr + n ≤ r.1.toNat + r.2)
/-- Whom the frame filter lets the firmware send to. -/
def State.mayReach (s : State) : FirmwarePeer → Bool
  | .session n => n ≤ 4 && s.sessions.has n
  | .dhcp | .imageServer => true
  | .other => false
/-- What the firmware does, once its image is verified (19 R397): what the bounds do not allow has no effect. When its frames
leave is a rate (DEDUCED: log entry 85). -/
def State.firmware (s : State) (act : FirmwareAct) : State :=
  if s.boot.halted.isSome || s.boot.step < 7 then s
  else match act with
    | .frame mac address peer bytes => if mac && address && s.mayReach peer then { s with host := s.host ++ [.firmware peer bytes] } else s
    | .read c addr n =>
      s.setBoot { s.boot with firmwareRead := if s.firewall c addr n then some (leBytes n (s.readNat addr n)) else none }
    | .write c addr bytes =>
      if s.firewall c addr bytes.length then s.writeSome (homeDie addr) addr (bytes.map fun b => some (b, false)) else s
    | .fence ports => s.setBoot { s.boot with fenced := s.boot.fenced ||| ports }

/-! ## Power and temperature (19 R401, R402) -/

def execPowerLimitExceeded (s : State) : Result := .next (s.setBoot { s.boot with withheld := true }).changed
def execPowerFallsBelowLimit (s : State) : Result := .next (s.setBoot { s.boot with withheld := false }).changed

/-- THERMAL_THRESHOLD: at 110 °C every core stops, and a fault IRQ is sent (DEDUCED: log entry 67). -/
def execThermalThreshold (celsius : Nat) (s : State) : Result :=
  let now := if 110 ≤ celsius then 110 else if 105 ≤ celsius then 105 else if 95 ≤ celsius then 95 else 0
  if s.boot.thermal = 110 then .next s
  else
    let s1 := s.setBoot { s.boot with thermal := now }
    .next (if now = 110 then { s1 with irqs := s1.irqs ++ [Irq.thermal] } else s1).changed

/-- TELEMETRY_UPDATE; the reserved bits above THBM stay 0 (19 R402; 00 R6). -/
def execTelemetryUpdate (values : BitVec 256) (throttled : BitVec 16) (s : State) : Result :=
  .next (s.setBoot { s.boot with telem := throttled ++ (values.setWidth 224).setWidth 256 }).changed

end Sys2Proof.Machine
end

