-- ==== Sys2Proof/Machine/Fetch.lean ====
section
/-!
DEFINITION. The choice of the wave that issues next (06 R168 to R171; 04 R120) and the fetch of its instruction (04 R113;
17 R364).
-/
namespace Sys2Proof.Machine

/-! ## Which wave of a slice issues next -/

/-- The units of a slice, or of the forerunner engine (slice 8), in slot order. -/
def sliceUnits (core slice : Nat) : List Nat :=
  if slice < 8 then sliceSlots core slice else (List.range 8).map fun k => 64 * core + 32 + k

/-- A wave with its unit, its block and whether its context is compulsory. -/
structure Cand where
  unit : Nat
  wave : Wave
  block : Block
  comp : Bool

/-- The waves of a slice whose contexts are resident (17 R367). -/
def sliceCands (s : State) (core slice : Nat) : List Cand :=
  (sliceUnits core slice).filterMap fun u =>
    (s.wave u).bind fun w => (s.block w.block).bind fun b => (s.ctx b.ctx).bind fun x =>
      if x.residency = .resident then some ⟨u, w, b, x.compulsory⟩ else none

/-- Whether the unit may go on: it did not fail to issue since the last change, and no event record holds it. -/
def Cand.free (s : State) (c : Cand) : Bool := c.wave.run = .running && !s.blocked.contains c.unit && !c.wave.evtHeld
/-- A ready wave (06 R168). -/
def Cand.ready (s : State) (c : Cand) : Bool := c.free s && c.wave.wait = .none
/-- One that takes a CANCEL trap (11 R287) (DEDUCED: log entry 16). -/
def Cand.cancels (s : State) (c : Cand) : Bool := c.free s && c.wave.cancelDue.isSome

/-- One with a pending trap, which is served first (06 R168): a due CANCEL, or in default mode a precise trap that waited
for earlier results, or a deferred error at its park point. -/
def Cand.trapDue (s : State) (c : Cand) : Bool :=
  c.cancels s || (c.ready s && !c.comp && (c.wave.trapping || (c.wave.parking && !c.wave.deferred.isEmpty)))

/-! ### The rotation of compulsory mode (06 R170, R171) -/

def Cand.key (c : Cand) : Nat × Nat := rotKey c.block c.wave
def keyLe (a b : Nat × Nat) : Bool := a.1 < b.1 || (a.1 = b.1 && a.2 ≤ b.2)

/-- Whether what a wave waits for still needs an arrival from another wave of the slice, or the wave is queued for the
matrix engine behind one (DEDUCED: log entry 18). -/
def Cand.needs (s : State) (mates : List Cand) (c : Cand) : Bool :=
  let others := mates.filter fun m => m.unit ≠ c.unit
  let sameBlock := others.filter fun m => m.wave.block = c.wave.block
  match c.wave.wait with
  | .bars k | .barw k _ _ =>
    sameBlock.any fun m => !m.wave.cpt && m.wave.tags.getD k none ≠ some (c.block.barriers.get Barrier.launch k).phase
  | .cbarw .. =>
    match s.groups.find c.block.group with
    | some g => others.any fun m => m.block.group = c.block.group && !m.wave.cpt && m.wave.ctag ≠ some g.bar.phase
    | none => false
  | .mbr .. => sameBlock.any fun m => match m.wave.wait with
    | .mbr .. => false
    | _ => true
  | .bjoin => sameBlock.any fun m => m.wave.wait ≠ .bjoin
  | .wfuse T =>
    let G := c.wave.first / T * T
    sameBlock.any fun m => m.wave.covers G (G + T) && m.wave.wait ≠ .wfuse T
  | .macq =>
    let q := (s.mat (unitCore c.unit))
    let ahead := q.owner.toList ++ q.waiters.takeWhile fun n => n ≠ c.wave.uid
    others.any fun m => ahead.contains m.wave.uid
  | _ => false

/-- The wave the slice stays with or runs, going through the rotation (DEDUCED: log entry 18). -/
def scanTurn (s : State) (mates : List Cand) : List Cand → Option Cand
  | [] => none
  | c :: rest =>
    if c.wave.run ≠ .running then scanTurn s mates rest
    else if c.needs s mates then scanTurn s mates rest
    else some c

/-- The wave that has the slice in compulsory mode: the holder until its pass point, at the start of an interval the
earliest runnable one, else the next of the rotation (DEDUCED: log entry 17). -/
def turnHolder (s : State) (t : Turn) (cands : List Cand) : Option Cand :=
  let order := sortBy (fun a b => keyLe a.key b.key) cands
  match t.key with
  | none => order.find? fun c => c.wave.run = .running && !c.wave.wait.passes c.wave.fore
  | some k =>
    match (if t.passed then none else order.find? fun c => c.key = k) with
    | some c => some c
    | none => scanTurn s cands ((order.filter fun c => !keyLe c.key k) ++ order.filter fun c => keyLe c.key k)

/-- For each compulsory context of the slice, its wave whose turn it is, where that is ready (DEDUCED: log entry 17). -/
def turnWaves (s : State) (core slice : Nat) (cands : List Cand) : List Cand :=
  ((cands.filter Cand.comp).map fun c => c.block.ctx).eraseDups.filterMap fun c =>
    let mine := cands.filter fun m => m.comp && m.block.ctx = c
    (turnHolder s ((s.core core).turn.get Turn.start (turnKey c slice)) mine).bind fun m => if m.ready s then some m else none

/-- The holder of a compulsory context's turn, once the rotation has named it: the slice stays with it until its next pass
point (06 R170). -/
def State.holdTurn (s : State) (core slice c : Nat) (cands : List Cand) : State :=
  let k := s.core core
  let t := k.turn.get Turn.start (turnKey c slice)
  let mine := cands.filter fun m => m.comp && m.block.ctx = c
  match turnHolder s t mine with
  | some m => if t.key = some m.key && !t.passed then s
    else s.setCore core { k with turn := k.turn.put Turn.start (turnKey c slice) ⟨some m.key, false⟩ }
  | none => s
/-- Every slice where a turn has been passed or a barrier interval has begun. -/
def State.holdTurns (s : State) : State :=
  if s.ctxs.any fun kx => kx.2.compulsory then
    (((s.waves.map fun uw => (unitCore uw.1, unitSlice uw.1)).eraseDups).filter fun p => onDie p.1).foldl (fun st p =>
      let cands := sliceCands st p.1 p.2
      (((cands.filter Cand.comp).map fun c => c.block.ctx).eraseDups).foldl (fun st c => st.holdTurn p.1 p.2 c cands) st) s
  else s

/-! ### The choice -/

/-- The first of a list from slot `from_` on, wrapping round. -/
def pickFrom (from_ : Nat) (l : List Cand) : Option Cand :=
  match l.find? fun c => from_ ≤ unitSlot c.unit with
  | some c => some c
  | none => l.head?

/-- The unit that issues next on a slice, where a pending trap is served first (06 R168, R170; 04 R120), or on the
forerunner engine, slice 8, which goes round robin over its contexts (06 R169). At 110 °C none does (19 R402)
(DEDUCED: log entries 17 and 67). -/
def nextUnit (s : State) (core slice : Nat) : Option Nat :=
  if s.boot.thermal = 110 then none
  else
    let cands := sliceCands s core slice
    match (if slice = 8 then none else cands.find? (Cand.trapDue s)) with
    | some c => some c.unit
    | none =>
      let turns := (turnWaves s core slice cands).map Cand.unit
      let ready := cands.filter fun c => c.cancels s || if c.comp then turns.contains c.unit else c.ready s
      let y := (s.core core).yielded.find slice
      let others := ready.filter fun c => some c.wave.uid ≠ y
      (pickFrom ((s.core core).last.get 0 slice) (if others.isEmpty then ready else others)).map Cand.unit

/-! ## Fetch -/

/-- What a fetch comes to: the word, a trap, or a replayable fault. -/
inductive Fetched
  | word (w : Word)
  | trap (t : Trap)
  | fault (perm : Bool)
  deriving DecidableEq, Repr

/-- The fetch at a wave's program counter (04 R113; 20 R405; 17 R374) (DEDUCED: log entries 12 and 23 and 40). -/
def fetchAt (s : State) (x : Context) (w : Wave) : Fetched :=
  let va := w.pc.toNat
  if inWindow va then .trap (gateMisuse { s with ir := 0 } (if x.nv ≤ windowVd va then 2 else 1))
  else match via s x (if w.fetchDenied then [va / 4096] else []) va true false with
    | .ok e =>
      let pa := e.phys va
      if s.poisoned pa 4 then .trap (addrTrap causePoison va false 0) else .word (BitVec.ofNat 32 (s.readNat pa 4))
    | .bad => .trap (addrTrap causePage va false 0)
    | .fault perm => .fault perm

/-- The state in which a unit's fetched word is decoded. -/
def State.fetched (s : State) (u : Nat) (w : Wave) (word : Word) : State :=
  let s1 : State := { s with cur := some u, ir := word }
  if w.fetchDenied || w.trapping then s1.setWave u { w with fetchDenied := false, trapping := false } else s1

/-- A fetch that meets a replayable fault stalls its wave alone (DEDUCED: log entry 40). -/
def State.parkFetch (s : State) (u : Nat) (w : Wave) (c : Nat) (perm : Bool) : State :=
  let core := unitCore u
  if replayMax ≤ s.parkedIn (coreDie core) then s.stall u
  else
    let src := (s.block w.block).elim ⟨0, 0, false⟩ (waveSource u w)
    let (s1, token) := s.faultRecord c core src w.pc.toNat false true false perm
    ((s1.setWave u { w with wait := .fetch token }).reportFull c core).changed

/-- An illegal word traps by the number of the check (03 R91). -/
def State.illegalNow (s : State) (n : Nat) : Result :=
  match s.cur.bind fun u => (s.wave u).map fun w => (u, w) with
  | some (u, w) => .next (s.trap u w (illegal s n))
  | none => .fault .noIssuer

/-- A unit's next action: its CANCEL trap, or the fetch of its instruction and what `run` makes of the word. -/
def runUnit (run : Word → State → Result) (u : Nat) (s : State) : Result :=
  match s.wave u with
  | none => .next s
  | some w =>
    match w.cancelDue with
    | some word => .next (s.takeCancel u w word)
    | none =>
      match (s.block w.block).bind fun b => (s.ctx b.ctx).map fun x => (b.ctx, x) with
      | none => .next s
      | some (c, x) =>
        match fetchAt s x w with
        | .word ir => run ir (s.fetched u w ir)
        | .trap t => .next ({ s with cur := some u, ir := 0 }.trap u w t)
        | .fault perm => .next (s.parkFetch u w c perm)

/-! ## An issue slot -/

/-- The unit takes its slice: the rotation names it, and a wave passed over after YIELD is passed over no more. -/
def State.takeSlot (s : State) (core slice u : Nat) : State :=
  match (s.wave u).bind fun w => (s.block w.block).map fun b => (w, b) with
  | none => s
  | some (w, b) =>
    let k := s.core core
    let turn := if s.cmp b && w.wait = .none then k.turn.put Turn.start (turnKey b.ctx slice) ⟨some (rotKey b w), false⟩ else k.turn
    s.setCore core { k with turn := turn, yielded := k.yielded.del slice }

/-- A slice or the forerunner engine issues at most one instruction. One that cannot issue leaves the order among the
waves as it was; one whose pending trap was taken counts as the one that issued last (DEDUCED: log entry 17). -/
def issueSlot (run : Word → State → Result) (core slice : Nat) (s : State) : Result :=
  match nextUnit s core slice with
  | none => .next s
  | some u =>
    match runUnit run u (s.takeSlot core slice u) with
    | .next t =>
      if t.blocked.contains u then
        .next (t.setCore core { t.core core with yielded := (s.core core).yielded })
      else .next (t.setCore core { t.core core with last := (t.core core).last.put 0 slice (unitSlot u + 1) })
    | r => r

end Sys2Proof.Machine
end

