-- ==== Sys2Proof/Machine/Agenda.lean ====
section
/-!
DEFINITION. What happens next (DESIGN CHOICE: notes/assumptions/1.md): the agenda's first entry, or, where the agenda is empty, the first
thing in a fixed order that can happen. Everything the machine does by itself after an event is settled at once.
-/
namespace Sys2Proof.Machine

/-! ## Settling -/

/-- A commit whose gate's firing has ended the conflict interval, and which has not been performed (21 R439). -/
def Op.commitDue (s : State) (o : Op) : Bool :=
  match o.kind with
  | .gate _ _ d _ (some _) _ => d.dbar && d.act = actOpt && d.fld 224 32 = 2 ^ 32 - 1 && o.parked.isNone && o.note.isEmpty
      && o.horizon.isNone && (s.ctx o.ctx).any Context.compulsory
  | _ => false
/-- Such commits are performed with the firing: their flips take effect at the end of the interval that it made, before any
access of the next one (12 R310; 21 R439) (DEDUCED: log entry 44). -/
def State.commits (s : State) : State :=
  (s.ops.filter (Op.commitDue s)).foldl (fun st o => match execGateActionComplete o.id st with
    | .next t => t
    | _ => st) s

/-- What follows of itself from any event: stopped waves of hard-cancelled records end (11 R288), device barrier gates fire
whose interval can end (12 R313), the commits of such gates are performed (21 R439), slices settle whose turn it is (06 R170), commands that wait are answered (17 R367; 19
R393), interrupts leave (19 R394) (DESIGN CHOICE: log entry 1). -/
def State.settle (s : State) : State :=
  let s1 := (s.waves.filter fun uw => uw.2.run = .stopped).foldl (fun st uw => st.reap uw.1) s
  let s2 := s1.ctxs.foldl (fun st kx => st.fireBarriers kx.1) s1
  s2.commits.dropFreed.holdTurns.endDestroys.endPreempts.sendIrqs

/-- Kept command frames start as soon as their turn comes, before any other command can (19 R394). -/
def startReady (event : Instr → State → Result) : Nat → State → Result
  | 0, s => .next s
  | n + 1, s => match s.readyFrame with
    | none => .next s
    | some i => match event i { s with cur := none } with
      | .next t => startReady event n t.settle
      | r => r

/-! ## Package time -/

/-- Package time, a 64-bit count, moves on (00 R2; 12 R292). A unit that waits for time looks again (DESIGN CHOICE: log entries 1 and 8). -/
def State.tick (s : State) (n : Nat) : State := { s with pt := (s.pt + n) % 2 ^ 64, blocked := [] }

/-- Times that something waits for. -/
def Wait.deadline (x : Wait) : Option Nat :=
  match x with
  | .sleep t => some t
  | .barw _ _ d | .cbarw _ d | .bowait _ _ _ _ d | .waita _ _ _ _ _ d | .lwait _ _ _ d => d.map (· + 1)
  | _ => Option.none
def dueTimes (s : State) : List Nat :=
  (s.waves.flatMap fun uw => uw.2.released :: uw.2.wait.deadline.toList)
    ++ s.ops.flatMap (fun o => o.horizon.toList)
    ++ (s.ctxs.flatMap fun kx => kx.2.recs.map Rec.rhz)
/-- How far time moves when nothing else can happen: to the next such time, or one nanosecond
(DESIGN CHOICE: log entry 1). -/
def idleTicks (s : State) : Nat :=
  let later := (dueTimes s).filter fun t => s.pt < t
  match later with
  | [] => 1
  | t :: rest => rest.foldl min t - s.pt

/-! ## What can happen -/

abbrev Move := State → Result

/-- The events of an operation that need nothing from outside the package (DESIGN CHOICE: log entry 75). -/
def opMoves (s : State) (o : Op) : List Move :=
  match o.kind with
  | .load .. | .ldt .. => [execLoadPerform o.id false false]
  | .store .. => [execStorePerform o.id false]
  | .atomic .. | .faddo .. => [execAtomicPerform o.id ⟨false, []⟩]
  | .acp lanes _ => (lanes.map fun l => scratchLine s l.2.1 l.2.2).eraseDups.map fun line => execCopyWriteLands o.id line
  | .acps _ _ _ _ _ _ read => if read.isSome then [execStorePerform o.id false] else [execAcpsSourceRelease o.id]
  | .tcpy c _ _ => match c.lines.find? fun l => !o.note.contains l && !o.lineWaits l with
    | some l => [execCopyWriteLands o.id l]
    | none => [execTcpyComplete o.id]
  | .tcpys _ _ _ _ read => if read.isSome then [execTcpysComplete o.id] else [execTcpysSourceRelease o.id]
  | .tcpyv .. => [execTcpyvDelivery o.id]
  | .teasel .. => [execTeaselCommandComplete o.id]
  | .gate _ _ _ _ start _ => if start.isSome then [execGateActionComplete o.id] else []
  | .net _ sent _ _ =>
    if !sent then [execStorePerform o.id false]
    else if o.horizon.isSome then [execRgetResponse o.id ⟨[], []⟩] else []

/-- The end of a wait at its deadline. -/
def waveMoves (u : Nat) (w : Wave) : List Move :=
  let waits : List Move := match w.wait with
    | .sleep _ => [execSleepWake u]
    | .barw .. => [execBarwTimeout u]
    | .cbarw .. => [execCbarwTimeout u]
    | .bowait .. => [execBowaitTimeout u]
    | .waita .. => [execWaitaTimeout u]
    | .lwait .. => [execLwaitTimeout u]
    | _ => []
  (w.rb.filter fun en => en.waiting ≠ 0).map (fun en => execResultArrival u en.seq) ++ waits

def ctxMoves (c : Nat) (x : Context) : List Move :=
  let subs : List Move := if x.subs.isEmpty then [] else [execRecordAcceptance c]
  let save : List Move := if x.residency = .preempting then [execContextSave c] else []
  subs ++ (x.recs.map fun r => execRecordCompletion c r.key) ++ save

/-- Cores that hold waves or matrix work, where they run. -/
def busyCores (s : State) : List Nat :=
  ((s.waves.map fun uw => unitCore uw.1) ++ (s.cores.filter fun kc => kc.2.mat ≠ Matrix.reset).map (·.1)).eraseDups.filter s.runs
def coreMoves (run : Word → State → Result) (core : Nat) : List Move :=
  [execMatrixGrant core, execMatrixStep core] ++ (List.range 9).map (issueSlot run core)

/-- Everything that can happen without the outside world, in the default order (DESIGN CHOICE: log entry 1). -/
def moves (run : Word → State → Result) (s : State) : List Move :=
  s.ops.flatMap (opMoves s) ++ (s.ctxs.flatMap fun kx => ctxMoves kx.1 kx.2)
    ++ (if s.boot.step = 8 then [execDispatchStep] else [])
    ++ (busyCores s).flatMap (coreMoves run) ++ (s.waves.flatMap fun uw => waveMoves uw.1 uw.2)
    ++ s.dieEv.map fun kd => execEventBufferDrain kd.1

/-! ## The default order -/

/-- Two states that differ at most in how issue stands. -/
def State.plain (s : State) : State := { s with blocked := [], cur := none, ir := 0, cursor := 0 }
/-- Whether a move did anything. -/
def acted (s : State) (r : Result) : Bool :=
  match r with
  | .next t => decide (t.plain ≠ s.plain)
  | _ => true

/-- The first move from place i on that does something, and its place. -/
def firstMove (s : State) : Nat → List Move → Option (Nat × Result)
  | _, [] => none
  | i, m :: rest => if acted s (m s) then some (i, m s) else firstMove s (i + 1) rest

/-- One thing in the default order: each in turn from where the last step left off, then package time
(DESIGN CHOICE: log entry 1). -/
def defaultMove (run : Word → State → Result) (s : State) : Result :=
  let all := moves run s
  match firstMove s s.cursor (all.drop s.cursor) with
  | some (i, .next t) => .next { t with cursor := i + 1 }
  | some (_, r) => r
  | none =>
    let n := match firstMove s 0 all with
      | some _ => 1
      | none => idleTicks s
    .next { s.tick n with cursor := 0 }

/-- What one entry of the agenda does: an event, an issue slot, package time, the driver's write of a region descriptor
(12 R305), the priorities with flow control that the host enables (19 R390), what the firmware does (19 R399). An event runs with no unit's instruction under way
(DESIGN CHOICE: log entries 1 and 9). -/
def happen (run : Word → State → Result) (event : Instr → State → Result) (h : Happening) (s : State) : Result :=
  match h with
  | .event i => match event i { s with cur := none } with
    | .next t => .next (t.fillFrames i)
    | r => r
  | .region c i valid foff =>
    if i < 4096 then .next (s.onCtx c fun x =>
      { x with regions := x.regions.put Region.empty i { SMap.get Region.empty x.regions i with valid := valid, foff := foff } }).changed
    else .next s
  | .flowControl p => .next { s with boot := { s.boot with pfc := p } }
  | .firmware act => .next (s.firmware act).changed
  | .sourceRead op word => .next (s.sourceRead op word)
  | .slice core k => if onDie core && decide (k < 8) then issueSlot run core k s else .next s
  | .fore core => if onDie core then issueSlot run core 8 s else .next s
  | .tick n => .next (s.tick n)


end Sys2Proof.Machine
end

