-- ==== Sys2Proof/Machine/Vlane.lean ====
section
/-!
DEFINITION. Cross-lane and mask operations: VLANE (05 R150 to R153; 01 R45, R46).
-/
namespace Sys2Proof.Machine

/-- Src(a, i): a lane's value and scale, active or not; zero beyond the lanes (05 R150; 02 R76). -/
def srcLane (w : Wave) (a : BitVec 7) (i : Int) : Word × Byte :=
  if 0 ≤ i ∧ i < w.count then (w.rdV a i.toNat, w.rdE a i.toNat) else (0, 0)

/-- Whether the lane that an index names is poisoned (17 R376). -/
def srcPoisoned (w : Wave) (a : BitVec 7) (i : Int) : Bool :=
  decide (0 ≤ i ∧ i < w.count) && (w.regs.vPoison.contains (laneKey (w.phys a 0) i.toNat) ||
    w.regs.ePoison.contains (laneKey (w.phys a 0) i.toNat))

/-- A movement into the lanes of a list; a poisoned lane that is read traps. -/
def vmove (s : State) (p : Bool) (ops : List Opnd) (d a : BitVec 7) (lanes : Wave → List Nat)
    (index : Wave → Nat → Int) : Result :=
  issue s p ⟨false, noEntry, notFore, ops⟩ fun u w _ =>
    if (lanes w).any fun q => srcPoisoned w a (index w q) then .trap (wordTrap s causePoison 0)
    else .done (s.setWave u ((Wave.writeLanes (fun w' q (x : Word × Byte) => (w'.wrV d q x.1).wrE d q x.2)
      ((lanes w).map fun q => (q, srcLane w a (index w q))) w)).next)

def execVshfl (p : Bool) (d a b : BitVec 7) (s : State) : Result :=
  vmove s p [.vd d 1, .vx a 1, .ex a 1, .vs b 1] d a Wave.active fun w q => (w.rdV b q).toNat
def execVshflx (p : Bool) (d a k : BitVec 7) (s : State) : Result :=
  vmove s p [.vd d 1, .vx a 1, .ex a 1] d a Wave.active fun _ q => (q ^^^ k.toNat : Nat)
def execVshflu (p : Bool) (d a k : BitVec 7) (s : State) : Result :=
  vmove s p [.vd d 1, .vx a 1, .ex a 1] d a Wave.active fun _ q => (q : Int) - k.toNat
def execVshfld (p : Bool) (d a k : BitVec 7) (s : State) : Result :=
  vmove s p [.vd d 1, .vx a 1, .ex a 1] d a Wave.active fun _ q => (q : Int) + k.toNat
def execVbcst (p : Bool) (d a b : BitVec 7) (s : State) : Result :=
  vmove s p [.vd d 1, .vx a 1, .ex a 1, .sl b 1] d a Wave.active fun w _ => (w.rdS b).toNat
def execVselm (p : Bool) (d a b : BitVec 7) (s : State) : Result :=
  vmove s p [.vd d 1, .vx a 1, .ex a 1] d a (fun w => w.active.filter fun q => (w.getM b.toNat).getLsbD q)
    fun _ q => (q : Int)

/-! ## Reductions and scans -/

/-- A sum or extreme as it is delivered: any NaN is canonical (01 R28), also one that met no other operand
(DEDUCED: log entry 79). -/
def deliverF32 (x : Nat) : Nat := if (f32.decode x).isNan then f32.nan else x

/-- A tree node (01 R45): its value where present, and the flags of each combination under it with the span of lane
positions it covers. -/
structure TreeNode where
  val : Option Nat
  log : List (Nat × Nat × FpFlags)

/-- The node of height h covering positions 2^h × i on. -/
def treeNode (op : Nat → Nat → FpRes) (leaf : Nat → Option Nat) : Nat → Nat → TreeNode
  | 0, i => ⟨leaf i, []⟩
  | h + 1, i =>
    let l := treeNode op leaf h (2 * i)
    let r := treeNode op leaf h (2 * i + 1)
    match l.val, r.val with
    | some x, some y =>
      let o := op x y
      ⟨some o.code, (2 ^ (h + 1) * i, 2 ^ (h + 1), o.flags) :: (l.log ++ r.log)⟩
    | some x, none => ⟨some x, l.log ++ r.log⟩
    | none, y => ⟨y, l.log ++ r.log⟩

/-- The flags of each active lane under the logged combinations (05 R151). -/
def logLanes (w : Wave) (log : List (Nat × Nat × FpFlags)) : List (Nat × FpFlags) :=
  log.flatMap fun e => (w.active.filter fun q => decide (e.1 ≤ q ∧ q < e.1 + e.2.1)).map fun q => (q, e.2.2)

/-- The leaves of a reduction: the active lanes' values. -/
def leafOf (w : Wave) (a : BitVec 7) (q : Nat) : Option Nat :=
  if w.m0.getLsbD q then some (w.rdV a q).toNat else none

def opAddS32 (x y : Nat) : FpRes := ⟨(x + y) % 2 ^ 32, 0⟩
def opAddF32 (x y : Nat) : FpRes := fpAdd f32 .rne x y 0

/-- A pending result for one scalar register. -/
def scalarEntry (s : State) (w : Wave) (d : BitVec 7) (v : Word) (fl : FpFlags) : Entry :=
  { seq := s.fresh, pc := w.pc, bytes := 4, dests := [.s d.toNat], vals := [(.s d.toNat, v)], waiting := 1,
    flags := fl, failed := false, sample := .none }

/-- A reduction to a scalar (05 R151): the tree's root, or the identity; it takes an entry whatever m0 holds. -/
def vreduce (s : State) (p : Bool) (d a : BitVec 7) (op : Nat → Nat → FpRes) (out : Nat → Nat) (identity : Word) : Result :=
  issue s p ⟨false, fun _ => some 4, notFore, [.sd d 1, .vs a 1]⟩ fun u w _ =>
    let t := treeNode op (leafOf w a) 6 0
    let raised := logLanes w t.log
    match fpTrap w raised with
    | some tr => .trap tr
    | none =>
      let v := match t.val with
        | some x => BitVec.ofNat 32 (out x)
        | none => identity
      .done (s.setWave u (w.pushEntry (scalarEntry s w d v (flagUnion raised))).next).next

def execVredaddS32 (p : Bool) (d a : BitVec 7) (s : State) : Result := vreduce s p d a opAddS32 id 0
def execVredaddF32 (p : Bool) (d a : BitVec 7) (s : State) : Result := vreduce s p d a opAddF32 deliverF32 0
def execVredmaxF32 (p : Bool) (d a : BitVec 7) (s : State) : Result :=
  vreduce s p d a (fpMinMax f32 true) deliverF32 0xFF800000
def execVredminF32 (p : Bool) (d a : BitVec 7) (s : State) : Result :=
  vreduce s p d a (fpMinMax f32 false) deliverF32 0x7F800000

/-- The aligned nodes that cover positions 0 to n − 1, largest first (01 R46): height and index, from bit `h` of n
down. -/
def coverNodes : Nat → Nat → Nat → List (Nat × Nat)
  | 0, n, start => if n % 2 = 1 then [(0, start)] else []
  | h + 1, n, start =>
    if n / 2 ^ (h + 1) % 2 = 1 then (h + 1, start / 2 ^ (h + 1)) :: coverNodes h n (start + 2 ^ (h + 1))
    else coverNodes h n start

/-- The scan's value at position p, with the logs of its nodes and the flags of its own combining steps. -/
def scanAt (op : Nat → Nat → FpRes) (leaf : Nat → Option Nat) (p : Nat) :
    Option Nat × List (Nat × Nat × FpFlags) × FpFlags :=
  (coverNodes 6 (p + 1) 0).foldl (fun acc hn =>
    let t := treeNode op leaf hn.1 hn.2
    match acc.1, t.val with
    | some x, some y =>
      let o := op x y
      (some o.code, acc.2.1 ++ t.log, acc.2.2 ||| o.flags)
    | some x, none => (some x, acc.2.1 ++ t.log, acc.2.2)
    | none, y => (y, acc.2.1 ++ t.log, acc.2.2)) (none, [], 0)

/-- An inclusive scan (05 R152; 01 R46); the nodes combined are those an active lane takes (DEDUCED: log entry 79). -/
def vscan (s : State) (p : Bool) (d a : BitVec 7) (op : Nat → Nat → FpRes) (out : Nat → Nat) : Result :=
  issue s p ⟨false, noEntry, notFore, [.vd d 1, .vs a 1]⟩ fun u w _ =>
    let outs := w.perLane (scanAt op (leafOf w a))
    let raised := outs.flatMap fun o => (o.1, o.2.2.2) :: logLanes w o.2.2.1
    match fpTrap w raised with
    | some t => .trap t
    | none =>
      let w' := Wave.writeLanes (fun w' q x => w'.wrV d q x)
        (outs.map fun o => (o.1, BitVec.ofNat 32 (out (o.2.1.getD 0)))) w
      .done (s.setWave u (w'.raise (flagUnion raised)).next)

def execVscanS32 (p : Bool) (d a : BitVec 7) (s : State) : Result := vscan s p d a opAddS32 id
def execVscanF32 (p : Bool) (d a : BitVec 7) (s : State) : Result := vscan s p d a opAddF32 deliverF32

/-! ## Mask functions (05 R153): whole registers, whatever m0 holds -/

def maskOp (s : State) (p : Bool) (ops : List Opnd) (f : Wave → Wave) : Result :=
  issue s p ⟨false, noEntry, notFore, ops⟩ fun u w _ => .done (s.setWave u (f w).next)

/-- The lowest set position, or all ones (05 R153). -/
def firstSet (x : DWord) : Word :=
  match (List.range 64).find? fun i => x.getLsbD i with
  | some i => BitVec.ofNat 32 i
  | none => 0xFFFFFFFF

def execMand (p : Bool) (d a b : BitVec 7) (s : State) : Result :=
  maskOp s p [] fun w => w.wrM d.toNat (w.getM a.toNat &&& w.getM b.toNat)
def execMor (p : Bool) (d a b : BitVec 7) (s : State) : Result :=
  maskOp s p [] fun w => w.wrM d.toNat (w.getM a.toNat ||| w.getM b.toNat)
def execMxor (p : Bool) (d a b : BitVec 7) (s : State) : Result :=
  maskOp s p [] fun w => w.wrM d.toNat (w.getM a.toNat ^^^ w.getM b.toNat)
def execMandn (p : Bool) (d a b : BitVec 7) (s : State) : Result :=
  maskOp s p [] fun w => w.wrM d.toNat (w.getM a.toNat &&& ~~~(w.getM b.toNat))
def execMnot (p : Bool) (d a : BitVec 7) (s : State) : Result :=
  maskOp s p [] fun w => w.wrM d.toNat (~~~(w.getM a.toNat))
def execMmov (p : Bool) (d a : BitVec 7) (s : State) : Result :=
  maskOp s p [] fun w => w.wrM d.toNat (w.getM a.toNat)
def execMpopc (p : Bool) (d a : BitVec 7) (s : State) : Result :=
  maskOp s p [.sd d 1] fun w => w.wrS d (BitVec.ofNat 32 (popc 64 (w.getM a.toNat).toNat))
def execMfirst (p : Bool) (d a : BitVec 7) (s : State) : Result :=
  maskOp s p [.sd d 1] fun w => w.wrS d (firstSet (w.getM a.toNat))
def execMtos (p : Bool) (d a : BitVec 7) (s : State) : Result :=
  maskOp s p [.sd d 2] fun w => w.wrS64 d (w.getM a.toNat)
def execStom (p : Bool) (d a : BitVec 7) (s : State) : Result :=
  maskOp s p [.ss a 2] fun w => w.wrM d.toNat (w.rdS64 a)

end Sys2Proof.Machine
end

