-- ==== Sys2Proof/Machine/Vpack.lean ====
section
/-!
DEFINITION. Packed sub-word arithmetic and scale moves: VPACK (05 R154 to R157).
-/
namespace Sys2Proof.Machine

/-- Element i of `width` bits of a word, as an integer. -/
def packElem (width : Nat) (signed : Bool) (x : Nat) (i : Nat) : Int :=
  let c := x / 2 ^ (width * i) % 2 ^ width
  if signed && 2 ^ (width - 1) ≤ c then (c : Int) - 2 ^ width else c

/-- The integer dot products (05 R154). -/
def dotInt (width : Nat) (signed : Bool) (zpair : Half) (x y : Word) : Int :=
  let zA := packElem width signed zpair.toNat 0
  let zB := packElem width signed (zpair.toNat / 256) 0
  (List.range (32 / width)).foldl (fun acc i =>
    acc + (packElem width signed x.toNat i - zA) * (packElem width signed y.toNat i - zB)) 0

def vdot (s : State) (p : Bool) (d a b : BitVec 7) (width : Nat) (signed : Bool) : Result :=
  vlanes s p [.vs d 1, .vs a 1, .vs b 1] d fun w q =>
    w.rdV d q + BitVec.ofInt 32 (dotInt width signed w.csr.zpair (w.rdV a q) (w.rdV b q))

def execVdp4s (p : Bool) (d a b : BitVec 7) (s : State) : Result := vdot s p d a b 4 true
def execVdp4z (p : Bool) (d a b : BitVec 7) (s : State) : Result := vdot s p d a b 4 false
def execVdp8s (p : Bool) (d a b : BitVec 7) (s : State) : Result := vdot s p d a b 8 true
def execVdp8z (p : Bool) (d a b : BitVec 7) (s : State) : Result := vdot s p d a b 8 false

/-- The floating dot products (05 R155): an exact sum of products and one rounding into the accumulator. -/
def vdotF (s : State) (p : Bool) (d a b : BitVec 7) (width : Nat) (val : Wave → Nat → FVal) : Result :=
  fpLanes s p [.vs d 1, .vs a 1, .vs b 1] (fun w q x => w.wrV d q x) fun w q =>
    let x := (w.rdV a q).toNat
    let y := (w.rdV b q).toNat
    let sum := ExSum.sum ((List.range (32 / width)).map fun i =>
      (val w (unpackBits width x i), val w (unpackBits width y i)))
    let o := accumulate f32 (w.rdV d q).toNat sum
    ⟨BitVec.ofNat 32 o.code, o.flags, w.genOf q⟩

def execVdpf4 (p : Bool) (d a b : BitVec 7) (s : State) : Result :=
  vdotF s p d a b 4 fun w c => e2m1Val w.csr.cza c
def execVdpf8a (p : Bool) (d a b : BitVec 7) (s : State) : Result := vdotF s p d a b 8 fun _ c => e4m3.decode c
def execVdpf8b (p : Bool) (d a b : BitVec 7) (s : State) : Result := vdotF s p d a b 8 fun _ c => e5m2.decode c

/-- The unpacks: bytes from elements of `width` bits starting at bit `lo`, with the scale copied (05 R156). -/
def vunpack (s : State) (p : Bool) (d a : BitVec 7) (width lo : Nat) : Result :=
  issue s p ⟨false, noEntry, notFore, [.vd d 1, .vs a 1, .es a 1]⟩ fun u w _ =>
    .done (s.setWave u ((Wave.writeLanes (fun w' q (x : Word × Byte) => (w'.wrV d q x.1).wrE d q x.2)
      (w.perLane fun q =>
        ((packBits 8 ((List.range 4).map fun k => unpackBits width ((w.rdV a q).toNat / 2 ^ lo) k) 1).headD 0,
          w.rdE a q)) w)).next)

def execVunpk4l (p : Bool) (d a : BitVec 7) (s : State) : Result := vunpack s p d a 4 0
def execVunpk4h (p : Bool) (d a : BitVec 7) (s : State) : Result := vunpack s p d a 4 16
def execVunpk6 (p : Bool) (d a : BitVec 7) (s : State) : Result := vunpack s p d a 6 0

/-- Scale moves (05 R157). -/
def escale (s : State) (p : Bool) (ops : List Opnd) (d : BitVec 7) (f : Wave → Nat → Byte) : Result :=
  issue s p ⟨false, noEntry, notFore, ops⟩ fun u w _ =>
    .done (s.setWave u ((Wave.writeLanes (fun w' q x => w'.wrE d q x) (w.perLane (f w)) w)).next)

def execVeset (p : Bool) (d b : BitVec 7) (s : State) : Result :=
  escale s p [.ed d 1, .sl b 1] d fun w _ => (w.rdS b).extractLsb' 0 8
def execVeget (p : Bool) (d a : BitVec 7) (s : State) : Result :=
  vlanes s p [.vd d 1, .es a 1] d fun w q => (w.rdE a q).setWidth 32
def execVemov (p : Bool) (d a : BitVec 7) (s : State) : Result :=
  escale s p [.ed d 1, .es a 1] d fun w q => w.rdE a q
def execVeadd (p : Bool) (d a b : BitVec 7) (s : State) : Result :=
  escale s p [.ed d 1, .es a 1, .vs b 1] d fun w q =>
    if w.rdE a q = 0xFF then 0xFF
    else BitVec.ofInt 8 (max 0 (min (((w.rdE a q).toNat : Int) + (w.rdV b q).toInt) 254))

end Sys2Proof.Machine
end

