-- ==== Sys2Proof/Machine/Vmx.lean ====
section
/-!
DEFINITION. Requantisation, block maximum and Hadamard: VMX (05 R158 to R162).
-/
namespace Sys2Proof.Machine

/-- The run of `n` source registers from a, as codes. -/
def runOf (w : Wave) (a : BitVec 7) (n q : Nat) : List Nat := (List.range n).map fun k => (w.rdVk a k q).toNat

/-- Writes a run of registers from d. -/
def Wave.wrRun (w : Wave) (d : BitVec 7) (q : Nat) (xs : List Word) : Wave :=
  (xs.zip (List.range xs.length)).foldl (fun w' xk => w'.wrVk d xk.2 q xk.1) w

/-- Writes one scale into a run of scale registers. -/
def Wave.wrScales (w : Wave) (d : BitVec 7) (n q : Nat) (c : Byte) : Wave :=
  (List.range n).foldl (fun w' k => w'.putE (w'.phys d k) q c) w

/-- RQNT (05 R159): `n` registers of elements of `width` bits. -/
def rqnt (s : State) (p : Bool) (d a : BitVec 7) (f : Fmt) (isE2m1 isE5m2 : Bool) (width n : Nat) (c8 : Bool)
    (h : HadOpt) (r : RqRound) : Result :=
  fpLanes s p [.vd d n, .vs a 32]
    (fun w q (b : MxBlock) => (w.wrRun d q (packBits width b.codes n)).wrScales d n q (BitVec.ofNat 8 b.scale))
    fun w q =>
      let b := requantise f isE2m1 isE5m2 (runOf w a 32 q) r h (if c8 then some w.csr.cza else none) (w.genOf q)
      ⟨b, b.flags, b.gen⟩

def execRqntE2m1 (p : Bool) (d a : BitVec 7) (c : Bool) (h : HadOpt) (r : RqRound) (s : State) : Result :=
  rqnt s p d a e2m1 true false 4 4 c h r
def execRqntE2m3 (p : Bool) (d a : BitVec 7) (h : HadOpt) (r : RqRound) (s : State) : Result :=
  rqnt s p d a e2m3 false false 6 6 false h r
def execRqntE3m2 (p : Bool) (d a : BitVec 7) (h : HadOpt) (r : RqRound) (s : State) : Result :=
  rqnt s p d a e3m2 false false 6 6 false h r
def execRqntE4m3 (p : Bool) (d a : BitVec 7) (h : HadOpt) (r : RqRound) (s : State) : Result :=
  rqnt s p d a e4m3 false false 8 8 false h r
def execRqntE5m2 (p : Bool) (d a : BitVec 7) (h : HadOpt) (r : RqRound) (s : State) : Result :=
  rqnt s p d a e5m2 false true 8 8 false h r

/-- RQNTG (05 R160): g registers of elements, then the parameter word. -/
def rqntg (s : State) (p : Bool) (d a : BitVec 7) (width qmax : Nat) (h : HadOpt) (r : RqRound) : Result :=
  fpLanes s p [.vd d (width + 1), .vs a 32]
    (fun w q (b : GiBlock) =>
      (w.wrRun d q (packBits width (b.codes.map fun i => (BitVec.ofInt width i).toNat) width ++ [b.param])).wrScales
        d width q 0x7F)
    fun w q =>
      let b := requantiseGroup qmax (runOf w a 32 q) r h (w.genOf q)
      ⟨b, b.flags, b.gen⟩

def execRqntg4 (p : Bool) (d a : BitVec 7) (h : HadOpt) (r : RqRound) (s : State) : Result := rqntg s p d a 4 7 h r
def execRqntg8 (p : Bool) (d a : BitVec 7) (h : HadOpt) (r : RqRound) (s : State) : Result := rqntg s p d a 8 127 h r

def execVebmax (p : Bool) (d a : BitVec 7) (s : State) : Result :=
  fpLanes s p [.vd d 1, .vs a 32] (fun w q x => w.wrV d q x) fun w q =>
    let o := blockMax (runOf w a 32 q)
    ⟨BitVec.ofNat 32 o.code, o.flags, w.genOf q⟩

/-- VHAD16 and VHAD32 (05 R162). -/
def vhad (s : State) (p : Bool) (d a : BitVec 7) (n : Nat) : Result :=
  fpLanes s p [.vd d (2 ^ n), .vs a (2 ^ n)] (fun w q x => w.wrRun d q x) fun w q =>
    let (y, f) := hadamard n (runOf w a (2 ^ n) q)
    ⟨y.map (BitVec.ofNat 32), f, w.genOf q⟩

def execVhad16 (p : Bool) (d a : BitVec 7) (s : State) : Result := vhad s p d a 4
def execVhad32 (p : Bool) (d a : BitVec 7) (s : State) : Result := vhad s p d a 5

end Sys2Proof.Machine
end

