-- ==== Sys2Proof/Machine/Vxc.lean ====
section
/-!
DEFINITION. Transcendentals, square root and division: VXC (05 R147, R148; 01 R52, R53). A bounded function's exact
value is enclosed between two dyadic numbers by fixed-point series of P fractional bits; in compulsory mode P doubles until
the enclosure decides the correctly rounded result, in default mode any representable value within R52's bound may be delivered, the free function
`Config.boundedPick` choosing which.
-/
namespace Sys2Proof.Machine

/-- An enclosure of a real value of known sign: lo × 2^e ≤ |z| ≤ hi × 2^e, exact where lo = hi and strict elsewhere. -/
structure Encl where
  neg : Bool
  lo : Nat
  hi : Nat
  e : Int

/-- Fractional bits of the fixed-point series at first, and the error in units of the last place allowed for each. -/
def fxP : Nat := 320
def fxErr (P : Nat) : Nat := 64 * P

/-- Σ x^(2k+1) / (2k+1) × (±1)^k for x = 1/n, in units of 2^-P (arctangent where `alt`, else its hyperbolic twin). -/
def atanSeries (P n : Nat) (alt : Bool) : Nat → Nat → Nat → Int
  | 0, _, _ => 0
  | fuel + 1, pow, k =>
    let t : Int := pow / (2 * k + 1)
    (if alt && k % 2 = 1 then -t else t) + atanSeries P n alt fuel (pow / (n * n)) (k + 1)

/-- ln 2 = 2 artanh(1/3) and π = 16 arctan(1/5) − 4 arctan(1/239), in units of 2^-P. -/
def fxLn2 (P : Nat) : Nat := (2 * atanSeries P 3 false (P / 3 + 2) (2 ^ P / 3) 0).toNat
def fxPi (P : Nat) : Nat :=
  (16 * atanSeries P 5 true (P / 4 + 2) (2 ^ P / 5) 0 - 4 * atanSeries P 239 true (P / 15 + 2) (2 ^ P / 239) 0).toNat

/-- Σ t^n / n! in units of 2^-P, for 0 ≤ t ≤ 1. -/
def expSeries (P t : Nat) : Nat → Nat → Nat → Nat
  | 0, _, _ => 0
  | fuel + 1, term, n => term + expSeries P t fuel (term * t / 2 ^ P / (n + 1)) (n + 1)

/-- 2^(F / 2^P) for 0 ≤ F < 2^P, in units of 2^-P. -/
def fxExp2 (P F : Nat) : Nat := expSeries P (F * fxLn2 P / 2 ^ P) (P / 3) (2 ^ P) 0

/-- Alternating series of cosine (from n = 0) and sine (from n = 1) in units of 2^-P: the terms t^n / n!. -/
def trigSeries (P t : Nat) : Nat → Nat → Nat → Bool → Int
  | 0, _, _, _ => 0
  | fuel + 1, term, n, neg =>
    (if neg then -(term : Int) else term) +
      trigSeries P t fuel (term * t / 2 ^ P * t / 2 ^ P / ((n + 1) * (n + 2))) (n + 2) (!neg)
def fxCos (P t : Nat) : Int := trigSeries P t (P / 4) (2 ^ P) 0 false
def fxSin (P t : Nat) : Int := trigSeries P t (P / 4) t 1 false

/-- The enclosure around an approximation in units of 2^e. -/
def around (P : Nat) (neg : Bool) (a : Nat) (e : Int) : Encl := ⟨neg, a - fxErr P, a + fxErr P, e⟩

/-- 1 / |x|. -/
def enclRcp (neg : Bool) (m : Nat) (e : Int) : Encl :=
  let k := 200 + Nat.log2 m
  let q := 2 ^ k / m
  ⟨neg, q, if 2 ^ k % m = 0 then q else q + 1, -e - k⟩

/-- 1 / √x. -/
def enclRsq (m : Nat) (e : Int) : Encl :=
  let (m', e') := if e % 2 = 0 then (m, e) else (2 * m, e - 1)
  let k := 200 + Nat.log2 m'
  let n := 2 ^ (2 * k) / m'
  let r := isqrt n
  ⟨false, r, if 2 ^ (2 * k) % m' = 0 ∧ r * r = n then r else r + 1, -e' / 2 - k⟩

/-- 2^x; x = ±m × 2^e. -/
def enclExp2 (P : Nat) (neg : Bool) (m : Nat) (e : Int) : Encl :=
  if 20 ≤ (Nat.log2 m : Int) + e then
    if neg then ⟨false, 1, 2, -100000⟩ else ⟨false, 1, 2, 100000⟩
  else
    -- x in units of 2^-P, rounded down
    let sh := e + P
    let mag := if 0 ≤ sh then m * 2 ^ sh.toNat else m / 2 ^ (-sh).toNat
    let exact := 0 ≤ sh || m % 2 ^ (-sh).toNat = 0
    let X : Int := if neg then (if exact then -(mag : Int) else -(mag : Int) - 1) else mag
    let k := X.fdiv (2 ^ P)
    let F := (X - k * 2 ^ P).toNat
    if F = 0 ∧ exact then ⟨false, 1, 1, k⟩ else
    let a := fxExp2 P F
    around P false a (k - P)

/-- Σ s^(2j+1) / (2j+1) in units of 2^-P, for 0 ≤ s ≤ 1/3. -/
def artanhSeries (P s : Nat) : Nat → Nat → Nat → Nat
  | 0, _, _ => 0
  | fuel + 1, pow, j => pow / (2 * j + 1) + artanhSeries P s fuel (pow * s / 2 ^ P * s / 2 ^ P) (j + 1)

/-- log2 x of a positive x = m × 2^e. -/
def enclLog2 (P m : Nat) (e : Int) : Encl :=
  let l := Nat.log2 m
  let k : Int := l + e
  if m = 2 ^ l then ⟨decide (k < 0), k.natAbs, k.natAbs, 0⟩
  else
    -- s = t / (2 + t) with t = m / 2^l − 1
    let num := m - 2 ^ l
    let den := m + 2 ^ l
    let s := num * 2 ^ P / den
    let ln := 2 * artanhSeries P s (P / 3) s 0
    let z : Int := k * 2 ^ P + (ln * 2 ^ P / fxLn2 P : Nat)
    around P (decide (z < 0)) z.natAbs (-P)

/-- sin and cos of x = ±m × 2^e with exact reduction by π (01 R52). -/
def enclTrig (P0 : Nat) (isCos neg : Bool) (m : Nat) (e : Int) : Encl :=
  let top := (Nat.log2 m : Int) + e
  if top < -64 then
    if isCos then ⟨false, 2 ^ 140 - 2 ^ 14, 2 ^ 140, -140⟩
    else ⟨neg, m * (2 ^ 140 - 2 ^ 14), m * 2 ^ 140, e - 140⟩
  else
    let extra := (max 0 top).toNat + 64
    let P := P0 + extra
    let pi := fxPi P
    let sh := e + P
    let X := if 0 ≤ sh then m * 2 ^ sh.toNat else m / 2 ^ (-sh).toNat
    let halfPi := pi / 2
    let q := X / halfPi
    let r := (X - q * halfPi) / 2 ^ extra
    -- cos(x) = sin(x + π/2); the sine's sign follows x
    let quad := (q + if isCos then 1 else 0) % 4
    let v := if quad % 2 = 0 then fxSin P0 r else fxCos P0 r
    let sgn := xor (xor (decide (v < 0)) (decide (2 ≤ quad))) (neg && !isCos)
    around P0 sgn v.natAbs (-P0)

/-- tanh of x = ±m × 2^e. -/
def enclTanh (P : Nat) (neg : Bool) (m : Nat) (e : Int) : Encl :=
  let top := (Nat.log2 m : Int) + e
  if top < -30 then ⟨neg, m * (2 ^ 64 - 2 ^ 6), m * 2 ^ 64, e - 64⟩
  else if 6 ≤ top then ⟨neg, 2 ^ 90 - 2 ^ 8, 2 ^ 90, -90⟩
  else
    let sh := e + P
    let X := if 0 ≤ sh then m * 2 ^ sh.toNat else m / 2 ^ (-sh).toNat
    -- y = 2x / ln 2, E = 2^-y
    let Y : Int := -((2 * X * 2 ^ P / fxLn2 P : Nat) : Int)
    let k := Y.fdiv (2 ^ P)
    let F := (Y - k * 2 ^ P).toNat
    let E := fxExp2 P F / 2 ^ (-k).toNat
    let one := 2 ^ P
    around P neg ((one - E) * one / (one + E)) (-P)

/-- The correctly rounded magnitude (rne) of an enclosed value, where the enclosure decides it. -/
def Encl.correct (f : Fmt) (z : Encl) : Option FpRes :=
  if z.lo = z.hi then some (f.round .rne false z.neg z.lo z.e false 0)
  else
    let a := f.round .rne false z.neg z.lo z.e true 0
    let b := f.round .rne false z.neg (z.hi - 1) z.e true 0
    if a = b then some a else none

/-- |y − z| ≤ (twice / 2) × ulp(z), certainly (01 R52): y = m × 2^e (DESIGN CHOICE: log entry 5). -/
def Encl.within (f : Fmt) (z : Encl) (twice : Nat) (m : Nat) (e : Int) : Bool :=
  let E := (Nat.log2 z.lo : Int) + z.e
  let u := max E f.emin - f.fb - 1
  let le (a b : Int × Int) : Bool := decide ((exactAdd a.1 a.2 (-b.1) b.2).1 ≤ 0)
  le (exactAdd m e (-(z.lo : Int)) z.e) (twice, u) && le (exactAdd z.hi z.e (-(m : Int)) e) (twice, u)

/-- The codes within the bound, nearest zero first (DESIGN CHOICE: log entry 5). -/
def Encl.candidates (f : Fmt) (z : Encl) (twice : Nat) : List Nat :=
  let base := (f.round .rtz true false z.lo z.e (decide (z.lo ≠ z.hi)) 0).code
  ((List.range 7).map fun k => base + k - 3).filter fun c =>
    match f.decode c with
    | .fin _ m e => decide (c ≤ f.maxCode) && z.within f twice m e
    | _ => false

/-- The correctly rounded result (01 R53): from P bits on, doubled until the enclosure decides
(UNVERIFIED: log entry 6). -/
def correctFrom (f : Fmt) (z : Nat → Encl) : Nat → Nat → FpRes
  | 0, P => f.round .rne false (z P).neg (z P).lo (z P).e true 0
  | n + 1, P => match (z P).correct f with
    | some r => r
    | none => correctFrom f z n (2 * P)

/-- Whether a value is tiny (01 R29): its magnitude, rounded rne with no lower limit on the exponent, is below the smallest
normal (DESIGN CHOICE: log entry 5). -/
def Encl.tiny (f : Fmt) (z : Encl) : Bool := (f.round .rne false z.neg z.lo z.e true 0).flags &&& flagUF ≠ 0

/-- The delivered result of a bounded function (01 R52, R53), with `op` naming the function, `x` the operand's code and `z`
its enclosure at each precision (DESIGN CHOICE: log entry 5; DEDUCED: log entry 80). -/
def bounded (f : Fmt) (cmp : Bool) (op x twice : Nat) (z : Nat → Encl) : FpRes :=
  let z0 := z fxP
  let near := f.round .rne false z0.neg z0.lo z0.e (decide (z0.lo ≠ z0.hi)) 0
  let exactCode := if z0.lo = z0.hi && near.flags = 0 then some near.code else none
  if near.flags &&& flagOF ≠ 0 then near
  else if cmp then correctFrom f z 32 fxP
  else
    match (z0.candidates f twice).eraseDups with
    | [] => near
    | l =>
      let c := f.sgn z0.neg + l.getD (Config.boundedPick op x % l.length) 0
      ⟨c, if exactCode = some c then 0 else flagNX ||| flagIf (z0.tiny f) flagUF⟩

/-- The functions of VXC, by their selector for f32 (05 R147). -/
inductive XcFn | rcp | rsq | exp2 | log2 | sin | cos | tanh
  deriving DecidableEq, Repr

/-- R52's bound in halves of an ulp. -/
def XcFn.bound (fn : XcFn) (wide : Bool) : Nat :=
  match fn with
  | .rcp | .rsq | .exp2 | .log2 => 2
  | .sin | .cos => if wide then 2 else 3
  | .tanh => 4

def XcFn.index : XcFn → Nat
  | .rcp => 0 | .rsq => 1 | .exp2 => 3 | .log2 => 4 | .sin => 5 | .cos => 6 | .tanh => 7

/-- A bounded function of one operand: the special values of 05 R148, else a value within the bound. -/
def xcValue (f : Fmt) (wide cmp : Bool) (fn : XcFn) (x : Nat) : FpRes :=
  let b (z : Nat → Encl) : FpRes := bounded f cmp (fn.index + if wide then 9 else 0) x (fn.bound wide) z
  let one (n : Bool) : FpRes := f.round .rne false n 1 0 false 0
  match f.decode x with
  | .nan sg => f.nanRes sg
  | .inf n =>
    match fn with
    | .rcp => ⟨f.zero n, 0⟩
    | .rsq => if n then f.nanRes true else ⟨f.zero false, 0⟩
    | .exp2 => ⟨if n then f.zero false else f.inf false, 0⟩
    | .log2 => if n then f.nanRes true else ⟨f.inf false, 0⟩
    | .sin | .cos => f.nanRes true
    | .tanh => one n
  | .fin n m e =>
    if m = 0 then
      match fn with
      | .rcp | .rsq => ⟨f.inf n, flagDZ⟩
      | .exp2 | .cos => one false
      | .log2 => ⟨f.inf true, flagDZ⟩
      | .sin | .tanh => ⟨f.zero n, 0⟩
    else
      match fn with
      | .rcp => b fun _ => enclRcp n m e
      | .rsq => if n then f.nanRes true else b fun _ => enclRsq m e
      | .exp2 =>
        let z := enclExp2 fxP n m e
        let r := f.round .rne false false z.lo z.e false 0
        if z.lo = z.hi && r.flags = 0 then r else b fun P => enclExp2 P n m e
      | .log2 =>
        if n then f.nanRes true
        else
          let z := enclLog2 fxP m e
          if z.lo = z.hi then f.round .rne false z.neg z.lo z.e false 0 else b fun P => enclLog2 P m e
      | .sin => b fun P => enclTrig P false n m e
      | .cos => b fun P => enclTrig P true n m e
      | .tanh => b fun P => enclTanh P n m e

/-! ## The instructions -/

/-- A VXC instruction (05 R147): exceptions trap precisely when it issues (01 R32); otherwise one entry holds the
results and the flags until the commit. `regs` is 1 or 2 registers per lane. -/
def vxc (s : State) (p : Bool) (d : BitVec 7) (ops : List Opnd) (regs : Nat)
    (f : Bool → Wave → Nat → LaneOut DWord) : Result :=
  issue s p ⟨false, fun w => if w.active.isEmpty then none else some (4 * regs * w.active.length), notFore, ops⟩
    fun u w b =>
      let outs := w.perLane (f (s.cmp b) w)
      match fpTrap w (outs.map fun o => (o.1, o.2.flags)) with
      | some t => .trap t
      | none =>
        if outs.isEmpty then .done (s.setWave u w.next)
        else
          let vals := outs.flatMap fun o => (List.range regs).map fun k =>
            (Elem.v (laneKey (w.phys d k) o.1), o.2.val.extractLsb' (32 * k) 32)
          let en : Entry :=
            { seq := s.fresh, pc := w.pc, bytes := 4 * vals.length, dests := vals.map (·.1), vals := vals,
              waiting := 1, flags := flagUnion (outs.map fun o => (o.1, o.2.flags)), failed := false, sample := .none }
          let w' := outs.foldl (fun w' o => w'.setGen o.1 o.2.gen) (w.pushEntry en)
          .done (s.setWave u w'.next).next

def vxc32 (s : State) (p : Bool) (d a : BitVec 7) (fn : XcFn) : Result :=
  vxc s p d [.vd d 1, .vs a 1] 1 fun cmp w q =>
    let o := xcValue f32 false cmp fn (w.rdV a q).toNat
    ⟨BitVec.ofNat 64 o.code, o.flags, w.genOf q⟩
def vxc64 (s : State) (p : Bool) (d a : BitVec 7) (fn : XcFn) : Result :=
  vxc s p d [.vd d 2, .vs a 2] 2 fun cmp w q =>
    let o := xcValue f64 true cmp fn (w.rdV64 a q).toNat
    ⟨BitVec.ofNat 64 o.code, o.flags, w.genOf q⟩
/-- The correctly rounded functions, which draw under rsr. The first operand is d's old value. -/
def vxcR32 (s : State) (p : Bool) (d a : BitVec 7) (r : Rounding) (f : Nat → Nat → Nat → FpRes) : Result :=
  vxc s p d [.vs d 1, .vs a 1] 1 fun _ w q =>
    let (g, D) := drawFor r (w.genOf q)
    let o := f (w.rdV d q).toNat (w.rdV a q).toNat D
    ⟨BitVec.ofNat 64 o.code, o.flags, g⟩
def vxcR64 (s : State) (p : Bool) (d a : BitVec 7) (r : Rounding) (f : Nat → Nat → Nat → FpRes) : Result :=
  vxc s p d [.vs d 2, .vs a 2] 2 fun _ w q =>
    let (g, D) := drawFor r (w.genOf q)
    let o := f (w.rdV64 d q).toNat (w.rdV64 a q).toNat D
    ⟨BitVec.ofNat 64 o.code, o.flags, g⟩

def execVrcpF32 (p : Bool) (d a : BitVec 7) (s : State) : Result := vxc32 s p d a .rcp
def execVrsqF32 (p : Bool) (d a : BitVec 7) (s : State) : Result := vxc32 s p d a .rsq
def execVexp2F32 (p : Bool) (d a : BitVec 7) (s : State) : Result := vxc32 s p d a .exp2
def execVlog2F32 (p : Bool) (d a : BitVec 7) (s : State) : Result := vxc32 s p d a .log2
def execVsinF32 (p : Bool) (d a : BitVec 7) (s : State) : Result := vxc32 s p d a .sin
def execVcosF32 (p : Bool) (d a : BitVec 7) (s : State) : Result := vxc32 s p d a .cos
def execVtanhF32 (p : Bool) (d a : BitVec 7) (s : State) : Result := vxc32 s p d a .tanh
def execVrcpF64 (p : Bool) (d a : BitVec 7) (s : State) : Result := vxc64 s p d a .rcp
def execVrsqF64 (p : Bool) (d a : BitVec 7) (s : State) : Result := vxc64 s p d a .rsq
def execVexp2F64 (p : Bool) (d a : BitVec 7) (s : State) : Result := vxc64 s p d a .exp2
def execVlog2F64 (p : Bool) (d a : BitVec 7) (s : State) : Result := vxc64 s p d a .log2
def execVsinF64 (p : Bool) (d a : BitVec 7) (s : State) : Result := vxc64 s p d a .sin
def execVcosF64 (p : Bool) (d a : BitVec 7) (s : State) : Result := vxc64 s p d a .cos

/-- VSQRT reads only a; d's old value is not an operand. -/
def vsqrt32 (s : State) (p : Bool) (d a : BitVec 7) (r : Rounding) : Result :=
  vxc s p d [.vd d 1, .vs a 1] 1 fun _ w q =>
    let (g, D) := drawFor r (w.genOf q)
    let o := fpSqrt f32 r (w.rdV a q).toNat D
    ⟨BitVec.ofNat 64 o.code, o.flags, g⟩
def vsqrt64 (s : State) (p : Bool) (d a : BitVec 7) (r : Rounding) : Result :=
  vxc s p d [.vd d 2, .vs a 2] 2 fun _ w q =>
    let (g, D) := drawFor r (w.genOf q)
    let o := fpSqrt f64 r (w.rdV64 a q).toNat D
    ⟨BitVec.ofNat 64 o.code, o.flags, g⟩
def execVsqrtF32 (p : Bool) (d a : BitVec 7) (r : Rounding) (s : State) : Result := vsqrt32 s p d a r
def execVsqrtF64 (p : Bool) (d a : BitVec 7) (r : Rounding) (s : State) : Result := vsqrt64 s p d a r
def execVdivF32 (p : Bool) (d a : BitVec 7) (r : Rounding) (s : State) : Result :=
  vxcR32 s p d a r fun x y D => fpDiv f32 r x y D
def execVdivF64 (p : Bool) (d a : BitVec 7) (r : Rounding) (s : State) : Result :=
  vxcR64 s p d a r fun x y D => fpDiv f64 r x y D

end Sys2Proof.Machine
end

