-- ==== Sys2Proof/Machine/Dispatch.lean ====
section
/-!
DEFINITION. The dispatch: one arm for each row of spec/opcode_table.json.
-/
namespace Sys2Proof.Machine

def exec (i : Instr) (s : State) : Host.Outcome State Fault Refusal :=
  match i with
  | .nop p => Sys2Proof.Machine.execNop p s
  | .trap p c => Sys2Proof.Machine.execTrap p c s
  | .eret p a => Sys2Proof.Machine.execEret p a s
  | .bkpt p => Sys2Proof.Machine.execBkpt p s
  | .csrr p d imm => Sys2Proof.Machine.execCsrr p d imm s
  | .csrw p d imm => Sys2Proof.Machine.execCsrw p d imm s
  | .csrs p d imm => Sys2Proof.Machine.execCsrs p d imm s
  | .csrc p d imm => Sys2Proof.Machine.execCsrc p d imm s
  | .sleep p a => Sys2Proof.Machine.execSleep p a s
  | .sleepWake unit => Sys2Proof.Machine.execSleepWake unit s
  | .evt p a b => Sys2Proof.Machine.execEvt p a b s
  | .spawn p a => Sys2Proof.Machine.execSpawn p a s
  | .join p a b => Sys2Proof.Machine.execJoin p a b s
  | .cancel p a b => Sys2Proof.Machine.execCancel p a b s
  | .rinkq p d a b => Sys2Proof.Machine.execRinkq p d a b s
  | .vdie p d a => Sys2Proof.Machine.execVdie p d a s
  | .hops p d a b => Sys2Proof.Machine.execHops p d a b s
  | .sadd p d a b => Sys2Proof.Machine.execSadd p d a b s
  | .ssub p d a b => Sys2Proof.Machine.execSsub p d a b s
  | .smul p d a b => Sys2Proof.Machine.execSmul p d a b s
  | .smulhs p d a b => Sys2Proof.Machine.execSmulhs p d a b s
  | .smulhn p d a b => Sys2Proof.Machine.execSmulhn p d a b s
  | .sadd64 p d a b => Sys2Proof.Machine.execSadd64 p d a b s
  | .ssub64 p d a b => Sys2Proof.Machine.execSsub64 p d a b s
  | .sand p d a b => Sys2Proof.Machine.execSand p d a b s
  | .sor p d a b => Sys2Proof.Machine.execSor p d a b s
  | .sxor p d a b => Sys2Proof.Machine.execSxor p d a b s
  | .sshl p d a b => Sys2Proof.Machine.execSshl p d a b s
  | .sshr p d a b => Sys2Proof.Machine.execSshr p d a b s
  | .ssra p d a b => Sys2Proof.Machine.execSsra p d a b s
  | .smins p d a b => Sys2Proof.Machine.execSmins p d a b s
  | .smaxs p d a b => Sys2Proof.Machine.execSmaxs p d a b s
  | .sslts p d a b => Sys2Proof.Machine.execSslts p d a b s
  | .ssltn p d a b => Sys2Proof.Machine.execSsltn p d a b s
  | .sseq p d a b => Sys2Proof.Machine.execSseq p d a b s
  | .ssne p d a b => Sys2Proof.Machine.execSsne p d a b s
  | .sclz p d a => Sys2Proof.Machine.execSclz p d a s
  | .spopc p d a => Sys2Proof.Machine.execSpopc p d a s
  | .sbfe p d a b => Sys2Proof.Machine.execSbfe p d a b s
  | .sbins p d a b => Sys2Proof.Machine.execSbins p d a b s
  | .sdivn p d a b => Sys2Proof.Machine.execSdivn p d a b s
  | .sremn p d a b => Sys2Proof.Machine.execSremn p d a b s
  | .ssel p d a b => Sys2Proof.Machine.execSsel p d a b s
  | .saddi p d a imm => Sys2Proof.Machine.execSaddi p d a imm s
  | .sandi p d a imm => Sys2Proof.Machine.execSandi p d a imm s
  | .sori p d a imm => Sys2Proof.Machine.execSori p d a imm s
  | .sxori p d a imm => Sys2Proof.Machine.execSxori p d a imm s
  | .sshli p d a imm => Sys2Proof.Machine.execSshli p d a imm s
  | .sshri p d a imm => Sys2Proof.Machine.execSshri p d a imm s
  | .ssrai p d a imm => Sys2Proof.Machine.execSsrai p d a imm s
  | .sslti p d a imm => Sys2Proof.Machine.execSslti p d a imm s
  | .sli p d imm => Sys2Proof.Machine.execSli p d imm s
  | .shi p d imm => Sys2Proof.Machine.execShi p d imm s
  | .bra p o => Sys2Proof.Machine.execBra p o s
  | .brany p k o => Sys2Proof.Machine.execBrany p k o s
  | .brall p k o => Sys2Proof.Machine.execBrall p k o s
  | .brnone p k o => Sys2Proof.Machine.execBrnone p k o s
  | .call p o => Sys2Proof.Machine.execCall p o s
  | .beqz p sf o => Sys2Proof.Machine.execBeqz p sf o s
  | .bnez p sf o => Sys2Proof.Machine.execBnez p sf o s
  | .bltz p sf o => Sys2Proof.Machine.execBltz p sf o s
  | .bgez p sf o => Sys2Proof.Machine.execBgez p sf o s
  | .bgtz p sf o => Sys2Proof.Machine.execBgtz p sf o s
  | .blez p sf o => Sys2Proof.Machine.execBlez p sf o s
  | .jr p a => Sys2Proof.Machine.execJr p a s
  | .jalr p d a => Sys2Proof.Machine.execJalr p d a s
  | .mbr p t m n o => Sys2Proof.Machine.execMbr p t m n o s
  | .wfuse p b => Sys2Proof.Machine.execWfuse p b s
  | .wsplit p b => Sys2Proof.Machine.execWsplit p b s
  | .wbase p n => Sys2Proof.Machine.execWbase p n s
  | .yield p => Sys2Proof.Machine.execYield p s
  | .wexit p => Sys2Proof.Machine.execWexit p s
  | .bars p a b => Sys2Proof.Machine.execBars p a b s
  | .bara p a b => Sys2Proof.Machine.execBara p a b s
  | .barw p d a b => Sys2Proof.Machine.execBarw p d a b s
  | .barwTimeout unit => Sys2Proof.Machine.execBarwTimeout unit s
  | .cbara p a => Sys2Proof.Machine.execCbara p a s
  | .cbarw p d a => Sys2Proof.Machine.execCbarw p d a s
  | .cbarwTimeout unit => Sys2Proof.Machine.execCbarwTimeout unit s
  | .bjoin p => Sys2Proof.Machine.execBjoin p s
  | .dqpush p a => Sys2Proof.Machine.execDqpush p a s
  | .dqpop p d => Sys2Proof.Machine.execDqpop p d s
  | .vadd p d a b => Sys2Proof.Machine.execVadd p d a b s
  | .vsub p d a b => Sys2Proof.Machine.execVsub p d a b s
  | .vmul p d a b => Sys2Proof.Machine.execVmul p d a b s
  | .vmulhs p d a b => Sys2Proof.Machine.execVmulhs p d a b s
  | .vmad p d a b => Sys2Proof.Machine.execVmad p d a b s
  | .vadd64 p d a b => Sys2Proof.Machine.execVadd64 p d a b s
  | .vsub64 p d a b => Sys2Proof.Machine.execVsub64 p d a b s
  | .vand p d a b => Sys2Proof.Machine.execVand p d a b s
  | .vor p d a b => Sys2Proof.Machine.execVor p d a b s
  | .vxor p d a b => Sys2Proof.Machine.execVxor p d a b s
  | .vandn p d a b => Sys2Proof.Machine.execVandn p d a b s
  | .vshl p d a b => Sys2Proof.Machine.execVshl p d a b s
  | .vshr p d a b => Sys2Proof.Machine.execVshr p d a b s
  | .vsra p d a b => Sys2Proof.Machine.execVsra p d a b s
  | .vmins p d a b => Sys2Proof.Machine.execVmins p d a b s
  | .vmaxs p d a b => Sys2Proof.Machine.execVmaxs p d a b s
  | .vminn p d a b => Sys2Proof.Machine.execVminn p d a b s
  | .vmaxn p d a b => Sys2Proof.Machine.execVmaxn p d a b s
  | .vaddss p d a b => Sys2Proof.Machine.execVaddss p d a b s
  | .vsubss p d a b => Sys2Proof.Machine.execVsubss p d a b s
  | .vclz p d a => Sys2Proof.Machine.execVclz p d a s
  | .vpopc p d a => Sys2Proof.Machine.execVpopc p d a s
  | .vbfe p d a b => Sys2Proof.Machine.execVbfe p d a b s
  | .vbins p d a b => Sys2Proof.Machine.execVbins p d a b s
  | .vmov p d a => Sys2Proof.Machine.execVmov p d a s
  | .vlaneid p d => Sys2Proof.Machine.execVlaneid p d s
  | .vaddScalar p d a b => Sys2Proof.Machine.execVaddScalar p d a b s
  | .vsubScalar p d a b => Sys2Proof.Machine.execVsubScalar p d a b s
  | .vmulScalar p d a b => Sys2Proof.Machine.execVmulScalar p d a b s
  | .vmulhsScalar p d a b => Sys2Proof.Machine.execVmulhsScalar p d a b s
  | .vmadScalar p d a b => Sys2Proof.Machine.execVmadScalar p d a b s
  | .vadd64Scalar p d a b => Sys2Proof.Machine.execVadd64Scalar p d a b s
  | .vsub64Scalar p d a b => Sys2Proof.Machine.execVsub64Scalar p d a b s
  | .vandScalar p d a b => Sys2Proof.Machine.execVandScalar p d a b s
  | .vorScalar p d a b => Sys2Proof.Machine.execVorScalar p d a b s
  | .vxorScalar p d a b => Sys2Proof.Machine.execVxorScalar p d a b s
  | .vandnScalar p d a b => Sys2Proof.Machine.execVandnScalar p d a b s
  | .vshlScalar p d a b => Sys2Proof.Machine.execVshlScalar p d a b s
  | .vshrScalar p d a b => Sys2Proof.Machine.execVshrScalar p d a b s
  | .vsraScalar p d a b => Sys2Proof.Machine.execVsraScalar p d a b s
  | .vminsScalar p d a b => Sys2Proof.Machine.execVminsScalar p d a b s
  | .vmaxsScalar p d a b => Sys2Proof.Machine.execVmaxsScalar p d a b s
  | .vminnScalar p d a b => Sys2Proof.Machine.execVminnScalar p d a b s
  | .vmaxnScalar p d a b => Sys2Proof.Machine.execVmaxnScalar p d a b s
  | .vaddssScalar p d a b => Sys2Proof.Machine.execVaddssScalar p d a b s
  | .vsubssScalar p d a b => Sys2Proof.Machine.execVsubssScalar p d a b s
  | .vbfeScalar p d a b => Sys2Proof.Machine.execVbfeScalar p d a b s
  | .vbinsScalar p d a b => Sys2Proof.Machine.execVbinsScalar p d a b s
  | .vmovScalar p d b => Sys2Proof.Machine.execVmovScalar p d b s
  | .vfaddF32 p d a b r => Sys2Proof.Machine.execVfaddF32 p d a b r s
  | .vfsubF32 p d a b r => Sys2Proof.Machine.execVfsubF32 p d a b r s
  | .vfmulF32 p d a b r => Sys2Proof.Machine.execVfmulF32 p d a b r s
  | .vffmaF32 p d a b r => Sys2Proof.Machine.execVffmaF32 p d a b r s
  | .vfaddF64 p d a b r => Sys2Proof.Machine.execVfaddF64 p d a b r s
  | .vfsubF64 p d a b r => Sys2Proof.Machine.execVfsubF64 p d a b r s
  | .vfmulF64 p d a b r => Sys2Proof.Machine.execVfmulF64 p d a b r s
  | .vffmaF64 p d a b r => Sys2Proof.Machine.execVffmaF64 p d a b r s
  | .vfaddF16 p d a b r => Sys2Proof.Machine.execVfaddF16 p d a b r s
  | .vfsubF16 p d a b r => Sys2Proof.Machine.execVfsubF16 p d a b r s
  | .vfmulF16 p d a b r => Sys2Proof.Machine.execVfmulF16 p d a b r s
  | .vffmaF16 p d a b r => Sys2Proof.Machine.execVffmaF16 p d a b r s
  | .vfaddBf16 p d a b r => Sys2Proof.Machine.execVfaddBf16 p d a b r s
  | .vfsubBf16 p d a b r => Sys2Proof.Machine.execVfsubBf16 p d a b r s
  | .vfmulBf16 p d a b r => Sys2Proof.Machine.execVfmulBf16 p d a b r s
  | .vffmaBf16 p d a b r => Sys2Proof.Machine.execVffmaBf16 p d a b r s
  | .vfminF32 p d a b => Sys2Proof.Machine.execVfminF32 p d a b s
  | .vfmaxF32 p d a b => Sys2Proof.Machine.execVfmaxF32 p d a b s
  | .vfminF64 p d a b => Sys2Proof.Machine.execVfminF64 p d a b s
  | .vfmaxF64 p d a b => Sys2Proof.Machine.execVfmaxF64 p d a b s
  | .vfabsF32 p d a => Sys2Proof.Machine.execVfabsF32 p d a s
  | .vfnegF32 p d a => Sys2Proof.Machine.execVfnegF32 p d a s
  | .vfabsF64 p d a => Sys2Proof.Machine.execVfabsF64 p d a s
  | .vfnegF64 p d a => Sys2Proof.Machine.execVfnegF64 p d a s
  | .vfclassF32 p d a => Sys2Proof.Machine.execVfclassF32 p d a s
  | .vfclassF64 p d a => Sys2Proof.Machine.execVfclassF64 p d a s
  | .vfsclF32 p d a b => Sys2Proof.Machine.execVfsclF32 p d a b s
  | .vfsclF64 p d a b => Sys2Proof.Machine.execVfsclF64 p d a b s
  | .vfgexF32 p d a => Sys2Proof.Machine.execVfgexF32 p d a s
  | .vfgexF64 p d a => Sys2Proof.Machine.execVfgexF64 p d a s
  | .vcvtF64F32 p d a => Sys2Proof.Machine.execVcvtF64F32 p d a s
  | .vcvtF32F64 p d a sf r => Sys2Proof.Machine.execVcvtF32F64 p d a sf r s
  | .vcvtF16F32 p d a sf r => Sys2Proof.Machine.execVcvtF16F32 p d a sf r s
  | .vcvtF32F16 p d a => Sys2Proof.Machine.execVcvtF32F16 p d a s
  | .vcvtBf16F32 p d a sf r => Sys2Proof.Machine.execVcvtBf16F32 p d a sf r s
  | .vcvtF32Bf16 p d a => Sys2Proof.Machine.execVcvtF32Bf16 p d a s
  | .vcvtS32F32 p d a sf r => Sys2Proof.Machine.execVcvtS32F32 p d a sf r s
  | .vcvtF32S32 p d a sf r => Sys2Proof.Machine.execVcvtF32S32 p d a sf r s
  | .vcvtN32F32 p d a sf r => Sys2Proof.Machine.execVcvtN32F32 p d a sf r s
  | .vcvtF32N32 p d a sf r => Sys2Proof.Machine.execVcvtF32N32 p d a sf r s
  | .vcvtS32F64 p d a sf r => Sys2Proof.Machine.execVcvtS32F64 p d a sf r s
  | .vcvtF64S32 p d a => Sys2Proof.Machine.execVcvtF64S32 p d a s
  | .vcvtS64F64 p d a sf r => Sys2Proof.Machine.execVcvtS64F64 p d a sf r s
  | .vcvtF64S64 p d a sf r => Sys2Proof.Machine.execVcvtF64S64 p d a sf r s
  | .vcvtE4m3F32 p d a sf r => Sys2Proof.Machine.execVcvtE4m3F32 p d a sf r s
  | .vcvtF32E4m3 p d a => Sys2Proof.Machine.execVcvtF32E4m3 p d a s
  | .vcvtE5m2F32 p d a sf r => Sys2Proof.Machine.execVcvtE5m2F32 p d a sf r s
  | .vcvtF32E5m2 p d a => Sys2Proof.Machine.execVcvtF32E5m2 p d a s
  | .vcvtF32E2m1 p d a => Sys2Proof.Machine.execVcvtF32E2m1 p d a s
  | .vcvtF32E2m3 p d a => Sys2Proof.Machine.execVcvtF32E2m3 p d a s
  | .vcvtF32E3m2 p d a => Sys2Proof.Machine.execVcvtF32E3m2 p d a s
  | .vrcpF32 p d a => Sys2Proof.Machine.execVrcpF32 p d a s
  | .vrsqF32 p d a => Sys2Proof.Machine.execVrsqF32 p d a s
  | .vsqrtF32 p d a r => Sys2Proof.Machine.execVsqrtF32 p d a r s
  | .vexp2F32 p d a => Sys2Proof.Machine.execVexp2F32 p d a s
  | .vlog2F32 p d a => Sys2Proof.Machine.execVlog2F32 p d a s
  | .vsinF32 p d a => Sys2Proof.Machine.execVsinF32 p d a s
  | .vcosF32 p d a => Sys2Proof.Machine.execVcosF32 p d a s
  | .vtanhF32 p d a => Sys2Proof.Machine.execVtanhF32 p d a s
  | .vdivF32 p d a r => Sys2Proof.Machine.execVdivF32 p d a r s
  | .vrcpF64 p d a => Sys2Proof.Machine.execVrcpF64 p d a s
  | .vrsqF64 p d a => Sys2Proof.Machine.execVrsqF64 p d a s
  | .vsqrtF64 p d a r => Sys2Proof.Machine.execVsqrtF64 p d a r s
  | .vexp2F64 p d a => Sys2Proof.Machine.execVexp2F64 p d a s
  | .vlog2F64 p d a => Sys2Proof.Machine.execVlog2F64 p d a s
  | .vsinF64 p d a => Sys2Proof.Machine.execVsinF64 p d a s
  | .vcosF64 p d a => Sys2Proof.Machine.execVcosF64 p d a s
  | .vdivF64 p d a r => Sys2Proof.Machine.execVdivF64 p d a r s
  | .vcmpF32 p d a b c => Sys2Proof.Machine.execVcmpF32 p d a b c s
  | .vcmpF64 p d a b c => Sys2Proof.Machine.execVcmpF64 p d a b c s
  | .vcmpS32 p d a b c => Sys2Proof.Machine.execVcmpS32 p d a b c s
  | .vcmpN32 p d a b c => Sys2Proof.Machine.execVcmpN32 p d a b c s
  | .vshfl p d a b => Sys2Proof.Machine.execVshfl p d a b s
  | .vshflx p d a k => Sys2Proof.Machine.execVshflx p d a k s
  | .vshflu p d a k => Sys2Proof.Machine.execVshflu p d a k s
  | .vshfld p d a k => Sys2Proof.Machine.execVshfld p d a k s
  | .vbcst p d a b => Sys2Proof.Machine.execVbcst p d a b s
  | .vredaddS32 p d a => Sys2Proof.Machine.execVredaddS32 p d a s
  | .vredaddF32 p d a => Sys2Proof.Machine.execVredaddF32 p d a s
  | .vredmaxF32 p d a => Sys2Proof.Machine.execVredmaxF32 p d a s
  | .vredminF32 p d a => Sys2Proof.Machine.execVredminF32 p d a s
  | .vscanS32 p d a => Sys2Proof.Machine.execVscanS32 p d a s
  | .vscanF32 p d a => Sys2Proof.Machine.execVscanF32 p d a s
  | .vselm p d a b => Sys2Proof.Machine.execVselm p d a b s
  | .mand p d a b => Sys2Proof.Machine.execMand p d a b s
  | .mor p d a b => Sys2Proof.Machine.execMor p d a b s
  | .mxor p d a b => Sys2Proof.Machine.execMxor p d a b s
  | .mandn p d a b => Sys2Proof.Machine.execMandn p d a b s
  | .mnot p d a => Sys2Proof.Machine.execMnot p d a s
  | .mmov p d a => Sys2Proof.Machine.execMmov p d a s
  | .mpopc p d a => Sys2Proof.Machine.execMpopc p d a s
  | .mfirst p d a => Sys2Proof.Machine.execMfirst p d a s
  | .mtos p d a => Sys2Proof.Machine.execMtos p d a s
  | .stom p d a => Sys2Proof.Machine.execStom p d a s
  | .vdp4s p d a b => Sys2Proof.Machine.execVdp4s p d a b s
  | .vdp4z p d a b => Sys2Proof.Machine.execVdp4z p d a b s
  | .vdp8s p d a b => Sys2Proof.Machine.execVdp8s p d a b s
  | .vdp8z p d a b => Sys2Proof.Machine.execVdp8z p d a b s
  | .vdpf4 p d a b => Sys2Proof.Machine.execVdpf4 p d a b s
  | .vdpf8a p d a b => Sys2Proof.Machine.execVdpf8a p d a b s
  | .vdpf8b p d a b => Sys2Proof.Machine.execVdpf8b p d a b s
  | .vunpk4l p d a => Sys2Proof.Machine.execVunpk4l p d a s
  | .vunpk4h p d a => Sys2Proof.Machine.execVunpk4h p d a s
  | .vunpk6 p d a => Sys2Proof.Machine.execVunpk6 p d a s
  | .veset p d b => Sys2Proof.Machine.execVeset p d b s
  | .veget p d a => Sys2Proof.Machine.execVeget p d a s
  | .vemov p d a => Sys2Proof.Machine.execVemov p d a s
  | .veadd p d a b => Sys2Proof.Machine.execVeadd p d a b s
  | .rqntE2m1 p d a c h r => Sys2Proof.Machine.execRqntE2m1 p d a c h r s
  | .rqntE2m3 p d a h r => Sys2Proof.Machine.execRqntE2m3 p d a h r s
  | .rqntE3m2 p d a h r => Sys2Proof.Machine.execRqntE3m2 p d a h r s
  | .rqntE4m3 p d a h r => Sys2Proof.Machine.execRqntE4m3 p d a h r s
  | .rqntE5m2 p d a h r => Sys2Proof.Machine.execRqntE5m2 p d a h r s
  | .rqntg4 p d a h r => Sys2Proof.Machine.execRqntg4 p d a h r s
  | .rqntg8 p d a h r => Sys2Proof.Machine.execRqntg8 p d a h r s
  | .vebmax p d a => Sys2Proof.Machine.execVebmax p d a s
  | .vhad16 p d a => Sys2Proof.Machine.execVhad16 p d a s
  | .vhad32 p d a => Sys2Proof.Machine.execVhad32 p d a s
  | .vldB8 p d a b m => Sys2Proof.Machine.execVldB8 p d a b m s
  | .vldS8 p d a b m => Sys2Proof.Machine.execVldS8 p d a b m s
  | .vldB16 p d a b m => Sys2Proof.Machine.execVldB16 p d a b m s
  | .vldS16 p d a b m => Sys2Proof.Machine.execVldS16 p d a b m s
  | .vldW32 p d a b m => Sys2Proof.Machine.execVldW32 p d a b m s
  | .vldW64 p d a b m => Sys2Proof.Machine.execVldW64 p d a b m s
  | .vldW128 p d a b m => Sys2Proof.Machine.execVldW128 p d a b m s
  | .vldE p d a b m => Sys2Proof.Machine.execVldE p d a b m s
  | .vstB8 p d a b m => Sys2Proof.Machine.execVstB8 p d a b m s
  | .vstB16 p d a b m => Sys2Proof.Machine.execVstB16 p d a b m s
  | .vstW32 p d a b m => Sys2Proof.Machine.execVstW32 p d a b m s
  | .vstW64 p d a b m => Sys2Proof.Machine.execVstW64 p d a b m s
  | .vstW128 p d a b m => Sys2Proof.Machine.execVstW128 p d a b m s
  | .vstE p d a b m => Sys2Proof.Machine.execVstE p d a b m s
  | .vatomAdd32 p d a n sf u x => Sys2Proof.Machine.execVatomAdd32 p d a n sf u x s
  | .vatomAdd64 p d a n sf u x => Sys2Proof.Machine.execVatomAdd64 p d a n sf u x s
  | .vatomMinS32 p d a n sf u x => Sys2Proof.Machine.execVatomMinS32 p d a n sf u x s
  | .vatomMaxS32 p d a n sf u x => Sys2Proof.Machine.execVatomMaxS32 p d a n sf u x s
  | .vatomAnd p d a n sf u x => Sys2Proof.Machine.execVatomAnd p d a n sf u x s
  | .vatomOr p d a n sf u x => Sys2Proof.Machine.execVatomOr p d a n sf u x s
  | .vatomXor p d a n sf u x => Sys2Proof.Machine.execVatomXor p d a n sf u x s
  | .vatomXch32 p d a n sf u x => Sys2Proof.Machine.execVatomXch32 p d a n sf u x s
  | .vatomXch64 p d a n sf u x => Sys2Proof.Machine.execVatomXch64 p d a n sf u x s
  | .vatomCas32 p d a n sf u x => Sys2Proof.Machine.execVatomCas32 p d a n sf u x s
  | .vatomCas64 p d a n sf u x => Sys2Proof.Machine.execVatomCas64 p d a n sf u x s
  | .vatomFadd32 p d a n sf u x => Sys2Proof.Machine.execVatomFadd32 p d a n sf u x s
  | .vatomFadd64 p d a n sf u x => Sys2Proof.Machine.execVatomFadd64 p d a n sf u x s
  | .vatomFaddo32 p d a n sf u x => Sys2Proof.Machine.execVatomFaddo32 p d a n sf u x s
  | .vatomFaddo64 p d a n sf u x => Sys2Proof.Machine.execVatomFaddo64 p d a n sf u x s
  | .vatomIncw p d a n sf u x => Sys2Proof.Machine.execVatomIncw p d a n sf u x s
  | .sld32 p d a imm => Sys2Proof.Machine.execSld32 p d a imm s
  | .sld64 p d a imm => Sys2Proof.Machine.execSld64 p d a imm s
  | .sld128 p d a imm => Sys2Proof.Machine.execSld128 p d a imm s
  | .sst32 p d a imm => Sys2Proof.Machine.execSst32 p d a imm s
  | .sst64 p d a imm => Sys2Proof.Machine.execSst64 p d a imm s
  | .sst128 p d a imm => Sys2Proof.Machine.execSst128 p d a imm s
  | .saadd p d a imm => Sys2Proof.Machine.execSaadd p d a imm s
  | .sacas p d a imm => Sys2Proof.Machine.execSacas p d a imm s
  | .acp4 p d a b => Sys2Proof.Machine.execAcp4 p d a b s
  | .acp8 p d a b => Sys2Proof.Machine.execAcp8 p d a b s
  | .acp16 p d a b => Sys2Proof.Machine.execAcp16 p d a b s
  | .acps4 p d a b => Sys2Proof.Machine.execAcps4 p d a b s
  | .acps8 p d a b => Sys2Proof.Machine.execAcps8 p d a b s
  | .acps16 p d a b => Sys2Proof.Machine.execAcps16 p d a b s
  | .boinit p a b => Sys2Proof.Machine.execBoinit p a b s
  | .boarr p d a => Sys2Proof.Machine.execBoarr p d a s
  | .boexp p a b => Sys2Proof.Machine.execBoexp p a b s
  | .bowait p d a b => Sys2Proof.Machine.execBowait p d a b s
  | .botest p d a => Sys2Proof.Machine.execBotest p d a s
  | .bowaitTimeout unit => Sys2Proof.Machine.execBowaitTimeout unit s
  | .waitaEq p d a b => Sys2Proof.Machine.execWaitaEq p d a b s
  | .waitaNe p d a b => Sys2Proof.Machine.execWaitaNe p d a b s
  | .waitaTimeout unit => Sys2Proof.Machine.execWaitaTimeout unit s
  | .fenceAcq p sf => Sys2Proof.Machine.execFenceAcq p sf s
  | .fenceRel p sf => Sys2Proof.Machine.execFenceRel p sf s
  | .fenceFull p sf => Sys2Proof.Machine.execFenceFull p sf s
  | .lempty p a => Sys2Proof.Machine.execLempty p a s
  | .lfill p a => Sys2Proof.Machine.execLfill p a s
  | .ltest p d a => Sys2Proof.Machine.execLtest p d a s
  | .lwait p d a b => Sys2Proof.Machine.execLwait p d a b s
  | .lwaitTimeout unit => Sys2Proof.Machine.execLwaitTimeout unit s
  | .ldt4 p d a b => Sys2Proof.Machine.execLdt4 p d a b s
  | .ldt6 p d a b => Sys2Proof.Machine.execLdt6 p d a b s
  | .ldt8 p d a b => Sys2Proof.Machine.execLdt8 p d a b s
  | .ldt16 p d a b => Sys2Proof.Machine.execLdt16 p d a b s
  | .ldt32 p d a b => Sys2Proof.Machine.execLdt32 p d a b s
  | .tcpy p d a b => Sys2Proof.Machine.execTcpy p d a b s
  | .tcpys p d a b => Sys2Proof.Machine.execTcpys p d a b s
  | .tcpyv p d a => Sys2Proof.Machine.execTcpyv p d a s
  | .shset p d a b => Sys2Proof.Machine.execShset p d a b s
  | .shdrop p a => Sys2Proof.Machine.execShdrop p a s
  | .shqry p d a b => Sys2Proof.Machine.execShqry p d a b s
  | .macq p => Sys2Proof.Machine.execMacq p s
  | .mrel p => Sys2Proof.Machine.execMrel p s
  | .matrixGrant core => Sys2Proof.Machine.execMatrixGrant core s
  | .mmode p a => Sys2Proof.Machine.execMmode p a s
  | .mma p k c t a b => Sys2Proof.Machine.execMma p k c t a b s
  | .mloop p k c t a b => Sys2Proof.Machine.execMloop p k c t a b s
  | .matrixStep core => Sys2Proof.Machine.execMatrixStep core s
  | .macc p d o t b => Sys2Proof.Machine.execMacc p d o t b s
  | .maccw p o t a b => Sys2Proof.Machine.execMaccw p o t a b s
  | .mzero p t => Sys2Proof.Machine.execMzero p t s
  | .mqry p d => Sys2Proof.Machine.execMqry p d s
  | .mwait p => Sys2Proof.Machine.execMwait p s
  | .gpost p a b => Sys2Proof.Machine.execGpost p a b s
  | .gcancel p d a => Sys2Proof.Machine.execGcancel p d a s
  | .gadd p a b => Sys2Proof.Machine.execGadd p a b s
  | .grd p d a => Sys2Proof.Machine.execGrd p d a s
  | .gset p a b => Sys2Proof.Machine.execGset p a b s
  | .gateActionComplete op => Sys2Proof.Machine.execGateActionComplete op s
  | .rput p a => Sys2Proof.Machine.execRput p a s
  | .rget p a => Sys2Proof.Machine.execRget p a s
  | .rflag p a b => Sys2Proof.Machine.execRflag p a b s
  | .publish p d a => Sys2Proof.Machine.execPublish p d a s
  | .pubq p d a => Sys2Proof.Machine.execPubq p d a s
  | .tgath p a => Sys2Proof.Machine.execTgath p a s
  | .tred p a => Sys2Proof.Machine.execTred p a s
  | .tcvt p a => Sys2Proof.Machine.execTcvt p a s
  | .stash p a => Sys2Proof.Machine.execStash p a s
  | .restore p a => Sys2Proof.Machine.execRestore p a s
  | .teaselCommandComplete op => Sys2Proof.Machine.execTeaselCommandComplete op s
  | .resultArrival unit entry => Sys2Proof.Machine.execResultArrival unit entry s
  | .parkCommit unit => Sys2Proof.Machine.execParkCommit unit s
  | .loadPerform op useCopy useTlb => Sys2Proof.Machine.execLoadPerform op useCopy useTlb s
  | .storePerform op useTlb => Sys2Proof.Machine.execStorePerform op useTlb s
  | .atomicPerform op how => Sys2Proof.Machine.execAtomicPerform op how s
  | .leaseExpiry core line => Sys2Proof.Machine.execLeaseExpiry core line s
  | .tlbLeaseExpiry core page => Sys2Proof.Machine.execTlbLeaseExpiry core page s
  | .copyWriteLands op line => Sys2Proof.Machine.execCopyWriteLands op line s
  | .acpsSourceRelease op => Sys2Proof.Machine.execAcpsSourceRelease op s
  | .tcpyComplete op => Sys2Proof.Machine.execTcpyComplete op s
  | .tcpysComplete op => Sys2Proof.Machine.execTcpysComplete op s
  | .tcpyvDelivery op => Sys2Proof.Machine.execTcpyvDelivery op s
  | .recordAcceptance ctx => Sys2Proof.Machine.execRecordAcceptance ctx s
  | .dispatchStep => Sys2Proof.Machine.execDispatchStep s
  | .recordCompletion ctx key => Sys2Proof.Machine.execRecordCompletion ctx key s
  | .rputArrival m => Sys2Proof.Machine.execRputArrival m s
  | .rflagArrival m => Sys2Proof.Machine.execRflagArrival m s
  | .rgetResponse op data => Sys2Proof.Machine.execRgetResponse op data s
  | .rputAcknowledge op => Sys2Proof.Machine.execRputAcknowledge op s
  | .messageUndeliverable op => Sys2Proof.Machine.execMessageUndeliverable op s
  | .ualinkPortFailure port => Sys2Proof.Machine.execUalinkPortFailure port s
  | .correctableError die cell => Sys2Proof.Machine.execCorrectableError die cell s
  | .uncorrectableError target => Sys2Proof.Machine.execUncorrectableError target s
  | .hbmRowRepair die row => Sys2Proof.Machine.execHbmRowRepair die row s
  | .residueCheckFailure core attempts => Sys2Proof.Machine.execResidueCheckFailure core attempts s
  | .contextSave ctx => Sys2Proof.Machine.execContextSave ctx s
  | .eventBufferDrain die => Sys2Proof.Machine.execEventBufferDrain die s
  | .openSession h advance => Sys2Proof.Machine.execOpenSession h advance s
  | .closeSession h => Sys2Proof.Machine.execCloseSession h s
  | .statusQuery h => Sys2Proof.Machine.execStatusQuery h s
  | .ctxcreate h c => Sys2Proof.Machine.execCtxcreate h c s
  | .ctxwrite h ctx offset bytes => Sys2Proof.Machine.execCtxwrite h ctx offset bytes s
  | .ctxdestroy h ctx => Sys2Proof.Machine.execCtxdestroy h ctx s
  | .preempt h ctx => Sys2Proof.Machine.execPreempt h ctx s
  | .aqpenRestore h ctx dies => Sys2Proof.Machine.execAqpenRestore h ctx dies s
  | .savesize h => Sys2Proof.Machine.execSavesize h s
  | .submit h ctx records => Sys2Proof.Machine.execSubmit h ctx records s
  | .aqpenCancel h ctx control record => Sys2Proof.Machine.execAqpenCancel h ctx control record s
  | .inval h asid start length => Sys2Proof.Machine.execInval h asid start length s
  | .fixans h token answer => Sys2Proof.Machine.execFixans h token answer s
  | .memreg h ctx va length access => Sys2Proof.Machine.execMemreg h ctx va length access s
  | .evtread h count => Sys2Proof.Machine.execEvtread h count s
  | .regread h die reg => Sys2Proof.Machine.execRegread h die reg s
  | .debugClaim h ctx => Sys2Proof.Machine.execDebugClaim h ctx s
  | .debugHalt h ctx unit => Sys2Proof.Machine.execDebugHalt h ctx unit s
  | .debugResume h ctx unit => Sys2Proof.Machine.execDebugResume h ctx unit s
  | .debugEnd h ctx unit => Sys2Proof.Machine.execDebugEnd h ctx unit s
  | .debugRegisterAccess h ctx unit reg write => Sys2Proof.Machine.execDebugRegisterAccess h ctx unit reg write s
  | .spdm h request => Sys2Proof.Machine.execSpdm h request s
  | .telem h => Sys2Proof.Machine.execTelem h s
  | .plimit h watts => Sys2Proof.Machine.execPlimit h watts s
  | .aqpenRetransmit sess seq => Sys2Proof.Machine.execAqpenRetransmit sess seq s
  | .rdmaWrite target va bytes => Sys2Proof.Machine.execRdmaWrite target va bytes s
  | .rdmaRead target va length => Sys2Proof.Machine.execRdmaRead target va length s
  | .roceSend mark bytes => Sys2Proof.Machine.execRoceSend mark bytes s
  | .resetDevice => Sys2Proof.Machine.execResetDevice s
  | .bringupStepTimeout => Sys2Proof.Machine.execBringupStepTimeout s
  | .powerLimitExceeded => Sys2Proof.Machine.execPowerLimitExceeded s
  | .thermalThreshold celsius => Sys2Proof.Machine.execThermalThreshold celsius s
  | .telemetryUpdate values throttled => Sys2Proof.Machine.execTelemetryUpdate values throttled s
  | .tcpysSourceRelease op => Sys2Proof.Machine.execTcpysSourceRelease op s
  | .rgetRequestArrival m => Sys2Proof.Machine.execRgetRequestArrival m s
  | .ethernetPartnerSignal => Sys2Proof.Machine.execEthernetPartnerSignal s
  | .bringupStepComplete report => Sys2Proof.Machine.execBringupStepComplete report s
  | .portFault port => Sys2Proof.Machine.execPortFault port s
  | .congestionNotificationPacket qp => Sys2Proof.Machine.execCongestionNotificationPacket qp s
  | .priorityFlowControlFrame priority pause => Sys2Proof.Machine.execPriorityFlowControlFrame priority pause s
  | .unknownOpcodeFrame frame => Sys2Proof.Machine.execUnknownOpcodeFrame frame s
  | .powerFallsBelowLimit => Sys2Proof.Machine.execPowerFallsBelowLimit s
  | .faddoListEnlarge ctx entries => Sys2Proof.Machine.execFaddoListEnlarge ctx entries s

end Sys2Proof.Machine
end

