-- ==== Sys2Proof/Machine/RunWord.lean ====
section
/-!
DEFINITION. What a fetched word does: it is decoded, its checks are made in the order of 03 R91, and it is executed. The
second half writes the same out without the intermediate instruction, so that a step can be run, and proves the two equal.
-/
namespace Sys2Proof.Machine

/-- The number of the check a rejected word fails (DEDUCED: log entry 10). -/
def rejectCheck (e : Reject) : Nat :=
  match e with
  | .selector => 1
  | .reserved | .short => 2

/-- Checks 1 to 3, then the instruction. -/
@[inline] def checked (n : Option Nat) (r : Result) (s : State) : Result :=
  match n with
  | some k => s.illegalNow k
  | none => r

/-- What comes of a decoding. -/
def runDecoded (d : Except Reject Instr) (s : State) : Result :=
  match d with
  | .ok i => checked (WellFormed.check i) (exec i s) s
  | .error e => s.illegalNow (rejectCheck e)

/-- What a fetched word does. -/
noncomputable def runWord (w : Word) (s : State) : Result := runDecoded (decode w) s

/-! ## The same without the instruction -/

@[inline] def rsvRun (c : Bool) (r : Result) (s : State) : Result := if c = true then r else s.illegalNow 2
@[inline] def optRun {α : Type} (e : Reject) (o : Option α) (k : α → Result) (s : State) : Result :=
  match o with
  | some x => k x
  | none => s.illegalNow (rejectCheck e)

theorem runDecoded_ite {c : Prop} [Decidable c] (a b : Except Reject Instr) (s : State) :
    runDecoded (if c then a else b) s = if c then runDecoded a s else runDecoded b s := by
  split <;> rfl
theorem runDecoded_rsv (c : Bool) (k : Except Reject Instr) (s : State) :
    runDecoded (rsv c k) s = rsvRun c (runDecoded k s) s := by
  cases c <;> rfl
theorem runDecoded_opt {α : Type} (e : Reject) (o : Option α) (k : α → Except Reject Instr) (s : State) :
    runDecoded (opt e o k) s = optRun e o (fun x => runDecoded (k x) s) s := by
  cases o <;> rfl
theorem runDecoded_ok (i : Instr) (s : State) :
    runDecoded (.ok i) s = checked (WellFormed.check i) (exec i s) s := rfl
theorem runDecoded_error (e : Reject) (s : State) : runDecoded (.error e) s = s.illegalNow (rejectCheck e) := rfl

def runSys (w : Word) (s : State) : Result :=
  if wF w = 0#5 then rsvRun (decide (wD w = 0#7) && decide (wA w = 0#7) && decide (wB w = 0#7)) (execNop (wP w) s) s
  else if wF w = 1#5 then rsvRun (decide (wD w = 0#7)) (execTrap (wP w) (wA w ++ wB w) s) s
  else if wF w = 2#5 then rsvRun (decide (wD w = 0#7) && decide (wB w = 0#7)) (checked (firstFail [(2, decide ((wA w).toNat ≤ 1))]) (execEret (wP w) (wA w) s) s) s
  else if wF w = 3#5 then rsvRun (decide (wD w = 0#7) && decide (wA w = 0#7) && decide (wB w = 0#7)) (execBkpt (wP w) s) s
  else if wF w = 4#5 then execCsrr (wP w) (wD w) (wA w ++ wB w) s
  else if wF w = 5#5 then execCsrw (wP w) (wD w) (wA w ++ wB w) s
  else if wF w = 6#5 then execCsrs (wP w) (wD w) (wA w ++ wB w) s
  else if wF w = 7#5 then execCsrc (wP w) (wD w) (wA w ++ wB w) s
  else if wF w = 8#5 then rsvRun (decide (wD w = 0#7) && decide (wB w = 0#7)) (execSleep (wP w) (wA w) s) s
  else if wF w = 9#5 then rsvRun (decide (wD w = 0#7)) (execEvt (wP w) (wA w) (wB w) s) s
  else if wF w = 10#5 then rsvRun (decide (wD w = 0#7) && decide (wB w = 0#7)) (checked (firstFail [(3, even (wA w))]) (execSpawn (wP w) (wA w) s) s) s
  else if wF w = 11#5 then rsvRun (decide (wD w = 0#7)) (checked (firstFail [(3, even (wA w))]) (execJoin (wP w) (wA w) (wB w) s) s) s
  else if wF w = 12#5 then rsvRun (decide (wD w = 0#7)) (checked (firstFail [(3, even (wB w))]) (execCancel (wP w) (wA w) (wB w) s) s) s
  else if wF w = 13#5 then execRinkq (wP w) (wD w) (wA w) (wB w) s
  else if wF w = 14#5 then rsvRun (decide (wB w = 0#7)) (checked (firstFail [(3, even (wA w))]) (execVdie (wP w) (wD w) (wA w) s) s) s
  else if wF w = 15#5 then execHops (wP w) (wD w) (wA w) (wB w) s
  else s.illegalNow 1
theorem runSys_eq (w : Word) (s : State) : runDecoded (decodeSys w) s = runSys w s := by
  unfold decodeSys runSys
  simp only [runDecoded_ite, runDecoded_rsv, runDecoded_ok, runDecoded_error]
  rfl

def runSalu (w : Word) (s : State) : Result :=
  if wF w = 0#5 then execSadd (wP w) (wD w) (wA w) (wB w) s
  else if wF w = 1#5 then execSsub (wP w) (wD w) (wA w) (wB w) s
  else if wF w = 2#5 then execSmul (wP w) (wD w) (wA w) (wB w) s
  else if wF w = 3#5 then execSmulhs (wP w) (wD w) (wA w) (wB w) s
  else if wF w = 4#5 then execSmulhn (wP w) (wD w) (wA w) (wB w) s
  else if wF w = 5#5 then checked (firstFail [(3, even (wD w)), (3, even (wA w)), (3, even (wB w))]) (execSadd64 (wP w) (wD w) (wA w) (wB w) s) s
  else if wF w = 6#5 then checked (firstFail [(3, even (wD w)), (3, even (wA w)), (3, even (wB w))]) (execSsub64 (wP w) (wD w) (wA w) (wB w) s) s
  else if wF w = 7#5 then execSand (wP w) (wD w) (wA w) (wB w) s
  else if wF w = 8#5 then execSor (wP w) (wD w) (wA w) (wB w) s
  else if wF w = 9#5 then execSxor (wP w) (wD w) (wA w) (wB w) s
  else if wF w = 10#5 then execSshl (wP w) (wD w) (wA w) (wB w) s
  else if wF w = 11#5 then execSshr (wP w) (wD w) (wA w) (wB w) s
  else if wF w = 12#5 then execSsra (wP w) (wD w) (wA w) (wB w) s
  else if wF w = 13#5 then execSmins (wP w) (wD w) (wA w) (wB w) s
  else if wF w = 14#5 then execSmaxs (wP w) (wD w) (wA w) (wB w) s
  else if wF w = 15#5 then execSslts (wP w) (wD w) (wA w) (wB w) s
  else if wF w = 16#5 then execSsltn (wP w) (wD w) (wA w) (wB w) s
  else if wF w = 17#5 then execSseq (wP w) (wD w) (wA w) (wB w) s
  else if wF w = 18#5 then execSsne (wP w) (wD w) (wA w) (wB w) s
  else if wF w = 19#5 then rsvRun (decide (wB w = 0#7)) (execSclz (wP w) (wD w) (wA w) s) s
  else if wF w = 20#5 then rsvRun (decide (wB w = 0#7)) (execSpopc (wP w) (wD w) (wA w) s) s
  else if wF w = 21#5 then execSbfe (wP w) (wD w) (wA w) (wB w) s
  else if wF w = 22#5 then execSbins (wP w) (wD w) (wA w) (wB w) s
  else if wF w = 23#5 then execSdivn (wP w) (wD w) (wA w) (wB w) s
  else if wF w = 24#5 then execSremn (wP w) (wD w) (wA w) (wB w) s
  else if wF w = 25#5 then execSsel (wP w) (wD w) (wA w) (wB w) s
  else s.illegalNow 1
theorem runSalu_eq (w : Word) (s : State) : runDecoded (decodeSalu w) s = runSalu w s := by
  unfold decodeSalu runSalu
  simp only [runDecoded_ite, runDecoded_rsv, runDecoded_ok, runDecoded_error]
  rfl

def runSalui (w : Word) (s : State) : Result :=
  if wF3 w = 0#3 then execSaddi (wP w) (wD w) (wA w) (wImm9 w) s
  else if wF3 w = 1#3 then execSandi (wP w) (wD w) (wA w) (wImm9 w) s
  else if wF3 w = 2#3 then execSori (wP w) (wD w) (wA w) (wImm9 w) s
  else if wF3 w = 3#3 then execSxori (wP w) (wD w) (wA w) (wImm9 w) s
  else if wF3 w = 4#3 then rsvRun (decide ((wImm9 w).extractLsb' 5 4 = 0#4)) (execSshli (wP w) (wD w) (wA w) (((wImm9 w).extractLsb' 0 5)) s) s
  else if wF3 w = 5#3 then rsvRun (decide ((wImm9 w).extractLsb' 5 4 = 0#4)) (execSshri (wP w) (wD w) (wA w) (((wImm9 w).extractLsb' 0 5)) s) s
  else if wF3 w = 6#3 then rsvRun (decide ((wImm9 w).extractLsb' 5 4 = 0#4)) (execSsrai (wP w) (wD w) (wA w) (((wImm9 w).extractLsb' 0 5)) s) s
  else if wF3 w = 7#3 then execSslti (wP w) (wD w) (wA w) (wImm9 w) s
  else s.illegalNow 1
theorem runSalui_eq (w : Word) (s : State) : runDecoded (decodeSalui w) s = runSalui w s := by
  unfold decodeSalui runSalui
  simp only [runDecoded_ite, runDecoded_rsv, runDecoded_ok, runDecoded_error]
  rfl

def runSli (w : Word) (s : State) : Result :=
  execSli (wP w) (wD w) (wImm19 w) s
theorem runSli_eq (w : Word) (s : State) : runDecoded (decodeSli w) s = runSli w s := by
  unfold decodeSli runSli
  simp only [runDecoded_ok]
  rfl

def runShi (w : Word) (s : State) : Result :=
  execShi (wP w) (wD w) (wImm19 w) s
theorem runShi_eq (w : Word) (s : State) : runDecoded (decodeShi w) s = runShi w s := by
  unfold decodeShi runShi
  simp only [runDecoded_ok]
  rfl

def runBr (w : Word) (s : State) : Result :=
  if wKind w = 0#4 then rsvRun (decide (wMask w = 0#4)) (execBra (wP w) (wOff18 w) s) s
  else if wKind w = 1#4 then execBrany (wP w) (wMask w) (wOff18 w) s
  else if wKind w = 2#4 then execBrall (wP w) (wMask w) (wOff18 w) s
  else if wKind w = 3#4 then execBrnone (wP w) (wMask w) (wOff18 w) s
  else if wKind w = 4#4 then rsvRun (decide (wMask w = 0#4)) (execCall (wP w) (wOff18 w) s) s
  else s.illegalNow 1
theorem runBr_eq (w : Word) (s : State) : runDecoded (decodeBr w) s = runBr w s := by
  unfold decodeBr runBr
  simp only [runDecoded_ite, runDecoded_rsv, runDecoded_ok, runDecoded_error]
  rfl

def runBrs (w : Word) (s : State) : Result :=
  if wCond w = 0#3 then execBeqz (wP w) (wD w) (wOff16 w) s
  else if wCond w = 1#3 then execBnez (wP w) (wD w) (wOff16 w) s
  else if wCond w = 2#3 then execBltz (wP w) (wD w) (wOff16 w) s
  else if wCond w = 3#3 then execBgez (wP w) (wD w) (wOff16 w) s
  else if wCond w = 4#3 then execBgtz (wP w) (wD w) (wOff16 w) s
  else if wCond w = 5#3 then execBlez (wP w) (wD w) (wOff16 w) s
  else s.illegalNow 1
theorem runBrs_eq (w : Word) (s : State) : runDecoded (decodeBrs w) s = runBrs w s := by
  unfold decodeBrs runBrs
  simp only [runDecoded_ite, runDecoded_ok, runDecoded_error]
  rfl

def runJmp (w : Word) (s : State) : Result :=
  if wF w = 0#5 then rsvRun (decide (wD w = 0#7) && decide (wB w = 0#7)) (checked (firstFail [(3, even (wA w))]) (execJr (wP w) (wA w) s) s) s
  else if wF w = 1#5 then rsvRun (decide (wB w = 0#7)) (checked (firstFail [(3, even (wD w)), (3, even (wA w))]) (execJalr (wP w) (wD w) (wA w) s) s) s
  else s.illegalNow 1
theorem runJmp_eq (w : Word) (s : State) : runDecoded (decodeJmp w) s = runJmp w s := by
  unfold decodeJmp runJmp
  simp only [runDecoded_ite, runDecoded_rsv, runDecoded_ok, runDecoded_error]
  rfl

def runMbr (w : Word) (s : State) : Result :=
  checked (firstFail [(3, decide ((wMa w).toNat + (wPairs w).toNat ≤ 15)), (3, decide ((wD w) ≠ 0))]) (execMbr (wP w) (wD w) (wMa w) (wPairs w) (wOff13 w) s) s
theorem runMbr_eq (w : Word) (s : State) : runDecoded (decodeMbr w) s = runMbr w s := by
  unfold decodeMbr runMbr
  simp only [runDecoded_ok]
  rfl

def runWctl (w : Word) (s : State) : Result :=
  if wF w = 0#5 then rsvRun (decide (wD w = 0#7) && decide (wA w = 0#7)) (checked (firstFail [(2, decide ((wB w) = 16 ∨ (wB w) = 32 ∨ (wB w) = 64))]) (execWfuse (wP w) (wB w) s) s) s
  else if wF w = 1#5 then rsvRun (decide (wD w = 0#7) && decide (wA w = 0#7)) (checked (firstFail [(2, decide ((wB w) = 8 ∨ (wB w) = 16 ∨ (wB w) = 32))]) (execWsplit (wP w) (wB w) s) s) s
  else if wF w = 2#5 then rsvRun (decide (wD w = 0#7) && decide (wA w = 0#7) && decide ((wB w).extractLsb' 5 2 = 0#2)) (execWbase (wP w) (((wB w).extractLsb' 0 5)) s) s
  else if wF w = 3#5 then rsvRun (decide (wD w = 0#7) && decide (wA w = 0#7) && decide (wB w = 0#7)) (execYield (wP w) s) s
  else if wF w = 4#5 then rsvRun (decide (wD w = 0#7) && decide (wA w = 0#7) && decide (wB w = 0#7)) (execWexit (wP w) s) s
  else if wF w = 5#5 then rsvRun (decide (wD w = 0#7)) (checked (firstFail [(2, decide ((wB w).toNat ≤ 7))]) (execBars (wP w) (wA w) (wB w) s) s) s
  else if wF w = 6#5 then rsvRun (decide (wD w = 0#7)) (checked (firstFail [(2, decide ((wB w).toNat ≤ 7))]) (execBara (wP w) (wA w) (wB w) s) s) s
  else if wF w = 7#5 then checked (firstFail [(2, decide ((wB w).toNat ≤ 7))]) (execBarw (wP w) (wD w) (wA w) (wB w) s) s
  else if wF w = 8#5 then rsvRun (decide (wD w = 0#7) && decide (wB w = 0#7)) (execCbara (wP w) (wA w) s) s
  else if wF w = 9#5 then rsvRun (decide (wB w = 0#7)) (execCbarw (wP w) (wD w) (wA w) s) s
  else if wF w = 10#5 then rsvRun (decide (wD w = 0#7) && decide (wA w = 0#7) && decide (wB w = 0#7)) (execBjoin (wP w) s) s
  else if wF w = 11#5 then rsvRun (decide (wD w = 0#7) && decide (wB w = 0#7)) (execDqpush (wP w) (wA w) s) s
  else if wF w = 12#5 then rsvRun (decide (wA w = 0#7) && decide (wB w = 0#7)) (execDqpop (wP w) (wD w) s) s
  else s.illegalNow 1
theorem runWctl_eq (w : Word) (s : State) : runDecoded (decodeWctl w) s = runWctl w s := by
  unfold decodeWctl runWctl
  simp only [runDecoded_ite, runDecoded_rsv, runDecoded_ok, runDecoded_error]
  rfl

def runVint (w : Word) (s : State) : Result :=
  if wF w = 0#5 then execVadd (wP w) (wD w) (wA w) (wB w) s
  else if wF w = 1#5 then execVsub (wP w) (wD w) (wA w) (wB w) s
  else if wF w = 2#5 then execVmul (wP w) (wD w) (wA w) (wB w) s
  else if wF w = 3#5 then execVmulhs (wP w) (wD w) (wA w) (wB w) s
  else if wF w = 4#5 then execVmad (wP w) (wD w) (wA w) (wB w) s
  else if wF w = 5#5 then checked (firstFail [(3, even (wD w)), (3, even (wA w)), (3, even (wB w))]) (execVadd64 (wP w) (wD w) (wA w) (wB w) s) s
  else if wF w = 6#5 then checked (firstFail [(3, even (wD w)), (3, even (wA w)), (3, even (wB w))]) (execVsub64 (wP w) (wD w) (wA w) (wB w) s) s
  else if wF w = 7#5 then execVand (wP w) (wD w) (wA w) (wB w) s
  else if wF w = 8#5 then execVor (wP w) (wD w) (wA w) (wB w) s
  else if wF w = 9#5 then execVxor (wP w) (wD w) (wA w) (wB w) s
  else if wF w = 10#5 then execVandn (wP w) (wD w) (wA w) (wB w) s
  else if wF w = 11#5 then execVshl (wP w) (wD w) (wA w) (wB w) s
  else if wF w = 12#5 then execVshr (wP w) (wD w) (wA w) (wB w) s
  else if wF w = 13#5 then execVsra (wP w) (wD w) (wA w) (wB w) s
  else if wF w = 14#5 then execVmins (wP w) (wD w) (wA w) (wB w) s
  else if wF w = 15#5 then execVmaxs (wP w) (wD w) (wA w) (wB w) s
  else if wF w = 16#5 then execVminn (wP w) (wD w) (wA w) (wB w) s
  else if wF w = 17#5 then execVmaxn (wP w) (wD w) (wA w) (wB w) s
  else if wF w = 18#5 then execVaddss (wP w) (wD w) (wA w) (wB w) s
  else if wF w = 19#5 then execVsubss (wP w) (wD w) (wA w) (wB w) s
  else if wF w = 20#5 then rsvRun (decide (wB w = 0#7)) (execVclz (wP w) (wD w) (wA w) s) s
  else if wF w = 21#5 then rsvRun (decide (wB w = 0#7)) (execVpopc (wP w) (wD w) (wA w) s) s
  else if wF w = 22#5 then execVbfe (wP w) (wD w) (wA w) (wB w) s
  else if wF w = 23#5 then execVbins (wP w) (wD w) (wA w) (wB w) s
  else if wF w = 24#5 then rsvRun (decide (wB w = 0#7)) (execVmov (wP w) (wD w) (wA w) s) s
  else if wF w = 25#5 then rsvRun (decide (wA w = 0#7) && decide (wB w = 0#7)) (execVlaneid (wP w) (wD w) s) s
  else s.illegalNow 1
theorem runVint_eq (w : Word) (s : State) : runDecoded (decodeVint w) s = runVint w s := by
  unfold decodeVint runVint
  simp only [runDecoded_ite, runDecoded_rsv, runDecoded_ok, runDecoded_error]
  rfl

def runVints (w : Word) (s : State) : Result :=
  if wF w = 0#5 then execVaddScalar (wP w) (wD w) (wA w) (wB w) s
  else if wF w = 1#5 then execVsubScalar (wP w) (wD w) (wA w) (wB w) s
  else if wF w = 2#5 then execVmulScalar (wP w) (wD w) (wA w) (wB w) s
  else if wF w = 3#5 then execVmulhsScalar (wP w) (wD w) (wA w) (wB w) s
  else if wF w = 4#5 then execVmadScalar (wP w) (wD w) (wA w) (wB w) s
  else if wF w = 5#5 then checked (firstFail [(3, even (wD w)), (3, even (wA w)), (3, even (wB w))]) (execVadd64Scalar (wP w) (wD w) (wA w) (wB w) s) s
  else if wF w = 6#5 then checked (firstFail [(3, even (wD w)), (3, even (wA w)), (3, even (wB w))]) (execVsub64Scalar (wP w) (wD w) (wA w) (wB w) s) s
  else if wF w = 7#5 then execVandScalar (wP w) (wD w) (wA w) (wB w) s
  else if wF w = 8#5 then execVorScalar (wP w) (wD w) (wA w) (wB w) s
  else if wF w = 9#5 then execVxorScalar (wP w) (wD w) (wA w) (wB w) s
  else if wF w = 10#5 then execVandnScalar (wP w) (wD w) (wA w) (wB w) s
  else if wF w = 11#5 then execVshlScalar (wP w) (wD w) (wA w) (wB w) s
  else if wF w = 12#5 then execVshrScalar (wP w) (wD w) (wA w) (wB w) s
  else if wF w = 13#5 then execVsraScalar (wP w) (wD w) (wA w) (wB w) s
  else if wF w = 14#5 then execVminsScalar (wP w) (wD w) (wA w) (wB w) s
  else if wF w = 15#5 then execVmaxsScalar (wP w) (wD w) (wA w) (wB w) s
  else if wF w = 16#5 then execVminnScalar (wP w) (wD w) (wA w) (wB w) s
  else if wF w = 17#5 then execVmaxnScalar (wP w) (wD w) (wA w) (wB w) s
  else if wF w = 18#5 then execVaddssScalar (wP w) (wD w) (wA w) (wB w) s
  else if wF w = 19#5 then execVsubssScalar (wP w) (wD w) (wA w) (wB w) s
  else if wF w = 22#5 then execVbfeScalar (wP w) (wD w) (wA w) (wB w) s
  else if wF w = 23#5 then execVbinsScalar (wP w) (wD w) (wA w) (wB w) s
  else if wF w = 24#5 then rsvRun (decide (wA w = 0#7)) (execVmovScalar (wP w) (wD w) (wB w) s) s
  else s.illegalNow 1
theorem runVints_eq (w : Word) (s : State) : runDecoded (decodeVints w) s = runVints w s := by
  unfold decodeVints runVints
  simp only [runDecoded_ite, runDecoded_rsv, runDecoded_ok, runDecoded_error]
  rfl

def runVf32 (w : Word) (s : State) : Result :=
  if (wF w).extractLsb' 3 2 = 0#2 then optRun .selector (Rounding.ofCode (((wF w).extractLsb' 0 3))) (fun r => execVfaddF32 (wP w) (wD w) (wA w) (wB w) r s) s
  else if (wF w).extractLsb' 3 2 = 1#2 then optRun .selector (Rounding.ofCode (((wF w).extractLsb' 0 3))) (fun r => execVfsubF32 (wP w) (wD w) (wA w) (wB w) r s) s
  else if (wF w).extractLsb' 3 2 = 2#2 then optRun .selector (Rounding.ofCode (((wF w).extractLsb' 0 3))) (fun r => execVfmulF32 (wP w) (wD w) (wA w) (wB w) r s) s
  else if (wF w).extractLsb' 3 2 = 3#2 then optRun .selector (Rounding.ofCode (((wF w).extractLsb' 0 3))) (fun r => execVffmaF32 (wP w) (wD w) (wA w) (wB w) r s) s
  else s.illegalNow 1
theorem runVf32_eq (w : Word) (s : State) : runDecoded (decodeVf32 w) s = runVf32 w s := by
  unfold decodeVf32 runVf32
  simp only [runDecoded_ite, runDecoded_opt, runDecoded_ok, runDecoded_error]
  rfl

def runVf64 (w : Word) (s : State) : Result :=
  if (wF w).extractLsb' 3 2 = 0#2 then optRun .selector (Rounding.ofCode (((wF w).extractLsb' 0 3))) (fun r => checked (firstFail [(3, even (wD w)), (3, even (wA w)), (3, even (wB w))]) (execVfaddF64 (wP w) (wD w) (wA w) (wB w) r s) s) s
  else if (wF w).extractLsb' 3 2 = 1#2 then optRun .selector (Rounding.ofCode (((wF w).extractLsb' 0 3))) (fun r => checked (firstFail [(3, even (wD w)), (3, even (wA w)), (3, even (wB w))]) (execVfsubF64 (wP w) (wD w) (wA w) (wB w) r s) s) s
  else if (wF w).extractLsb' 3 2 = 2#2 then optRun .selector (Rounding.ofCode (((wF w).extractLsb' 0 3))) (fun r => checked (firstFail [(3, even (wD w)), (3, even (wA w)), (3, even (wB w))]) (execVfmulF64 (wP w) (wD w) (wA w) (wB w) r s) s) s
  else if (wF w).extractLsb' 3 2 = 3#2 then optRun .selector (Rounding.ofCode (((wF w).extractLsb' 0 3))) (fun r => checked (firstFail [(3, even (wD w)), (3, even (wA w)), (3, even (wB w))]) (execVffmaF64 (wP w) (wD w) (wA w) (wB w) r s) s) s
  else s.illegalNow 1
theorem runVf64_eq (w : Word) (s : State) : runDecoded (decodeVf64 w) s = runVf64 w s := by
  unfold decodeVf64 runVf64
  simp only [runDecoded_ite, runDecoded_opt, runDecoded_ok, runDecoded_error]
  rfl

def runVf16 (w : Word) (s : State) : Result :=
  if (wF w).extractLsb' 3 2 = 0#2 then optRun .selector (Rounding.ofCode (((wF w).extractLsb' 0 3))) (fun r => execVfaddF16 (wP w) (wD w) (wA w) (wB w) r s) s
  else if (wF w).extractLsb' 3 2 = 1#2 then optRun .selector (Rounding.ofCode (((wF w).extractLsb' 0 3))) (fun r => execVfsubF16 (wP w) (wD w) (wA w) (wB w) r s) s
  else if (wF w).extractLsb' 3 2 = 2#2 then optRun .selector (Rounding.ofCode (((wF w).extractLsb' 0 3))) (fun r => execVfmulF16 (wP w) (wD w) (wA w) (wB w) r s) s
  else if (wF w).extractLsb' 3 2 = 3#2 then optRun .selector (Rounding.ofCode (((wF w).extractLsb' 0 3))) (fun r => execVffmaF16 (wP w) (wD w) (wA w) (wB w) r s) s
  else s.illegalNow 1
theorem runVf16_eq (w : Word) (s : State) : runDecoded (decodeVf16 w) s = runVf16 w s := by
  unfold decodeVf16 runVf16
  simp only [runDecoded_ite, runDecoded_opt, runDecoded_ok, runDecoded_error]
  rfl

def runVbf16 (w : Word) (s : State) : Result :=
  if (wF w).extractLsb' 3 2 = 0#2 then optRun .selector (Rounding.ofCode (((wF w).extractLsb' 0 3))) (fun r => execVfaddBf16 (wP w) (wD w) (wA w) (wB w) r s) s
  else if (wF w).extractLsb' 3 2 = 1#2 then optRun .selector (Rounding.ofCode (((wF w).extractLsb' 0 3))) (fun r => execVfsubBf16 (wP w) (wD w) (wA w) (wB w) r s) s
  else if (wF w).extractLsb' 3 2 = 2#2 then optRun .selector (Rounding.ofCode (((wF w).extractLsb' 0 3))) (fun r => execVfmulBf16 (wP w) (wD w) (wA w) (wB w) r s) s
  else if (wF w).extractLsb' 3 2 = 3#2 then optRun .selector (Rounding.ofCode (((wF w).extractLsb' 0 3))) (fun r => execVffmaBf16 (wP w) (wD w) (wA w) (wB w) r s) s
  else s.illegalNow 1
theorem runVbf16_eq (w : Word) (s : State) : runDecoded (decodeVbf16 w) s = runVbf16 w s := by
  unfold decodeVbf16 runVbf16
  simp only [runDecoded_ite, runDecoded_opt, runDecoded_ok, runDecoded_error]
  rfl

def runVfmisc (w : Word) (s : State) : Result :=
  if wF w = 0#5 then execVfminF32 (wP w) (wD w) (wA w) (wB w) s
  else if wF w = 1#5 then execVfmaxF32 (wP w) (wD w) (wA w) (wB w) s
  else if wF w = 2#5 then checked (firstFail [(3, even (wD w)), (3, even (wA w)), (3, even (wB w))]) (execVfminF64 (wP w) (wD w) (wA w) (wB w) s) s
  else if wF w = 3#5 then checked (firstFail [(3, even (wD w)), (3, even (wA w)), (3, even (wB w))]) (execVfmaxF64 (wP w) (wD w) (wA w) (wB w) s) s
  else if wF w = 4#5 then rsvRun (decide (wB w = 0#7)) (execVfabsF32 (wP w) (wD w) (wA w) s) s
  else if wF w = 5#5 then rsvRun (decide (wB w = 0#7)) (execVfnegF32 (wP w) (wD w) (wA w) s) s
  else if wF w = 6#5 then rsvRun (decide (wB w = 0#7)) (checked (firstFail [(3, even (wD w)), (3, even (wA w))]) (execVfabsF64 (wP w) (wD w) (wA w) s) s) s
  else if wF w = 7#5 then rsvRun (decide (wB w = 0#7)) (checked (firstFail [(3, even (wD w)), (3, even (wA w))]) (execVfnegF64 (wP w) (wD w) (wA w) s) s) s
  else if wF w = 8#5 then rsvRun (decide (wB w = 0#7)) (execVfclassF32 (wP w) (wD w) (wA w) s) s
  else if wF w = 9#5 then rsvRun (decide (wB w = 0#7)) (checked (firstFail [(3, even (wA w))]) (execVfclassF64 (wP w) (wD w) (wA w) s) s) s
  else if wF w = 10#5 then execVfsclF32 (wP w) (wD w) (wA w) (wB w) s
  else if wF w = 11#5 then checked (firstFail [(3, even (wD w)), (3, even (wA w))]) (execVfsclF64 (wP w) (wD w) (wA w) (wB w) s) s
  else if wF w = 12#5 then rsvRun (decide (wB w = 0#7)) (execVfgexF32 (wP w) (wD w) (wA w) s) s
  else if wF w = 13#5 then rsvRun (decide (wB w = 0#7)) (checked (firstFail [(3, even (wA w))]) (execVfgexF64 (wP w) (wD w) (wA w) s) s) s
  else s.illegalNow 1
theorem runVfmisc_eq (w : Word) (s : State) : runDecoded (decodeVfmisc w) s = runVfmisc w s := by
  unfold decodeVfmisc runVfmisc
  simp only [runDecoded_ite, runDecoded_rsv, runDecoded_ok, runDecoded_error]
  rfl

def runVcvt (w : Word) (s : State) : Result :=
  if wF w = 0#5 then rsvRun (decide (wB w = 0#7)) (checked (firstFail [(3, even (wD w))]) (execVcvtF64F32 (wP w) (wD w) (wA w) s) s) s
  else if wF w = 1#5 then rsvRun (decide ((wB w).extractLsb' 3 3 = 0#3)) (optRun .reserved (Rounding.ofCode (((wB w).extractLsb' 0 3))) (fun r => checked (firstFail [(3, even (wA w))]) (execVcvtF32F64 (wP w) (wD w) (wA w) ((((wB w).extractLsb' 6 1)) = 1#1) r s) s) s) s
  else if wF w = 2#5 then rsvRun (decide ((wB w).extractLsb' 3 3 = 0#3)) (optRun .reserved (Rounding.ofCode (((wB w).extractLsb' 0 3))) (fun r => execVcvtF16F32 (wP w) (wD w) (wA w) ((((wB w).extractLsb' 6 1)) = 1#1) r s) s) s
  else if wF w = 3#5 then rsvRun (decide (wB w = 0#7)) (execVcvtF32F16 (wP w) (wD w) (wA w) s) s
  else if wF w = 4#5 then rsvRun (decide ((wB w).extractLsb' 3 3 = 0#3)) (optRun .reserved (Rounding.ofCode (((wB w).extractLsb' 0 3))) (fun r => execVcvtBf16F32 (wP w) (wD w) (wA w) ((((wB w).extractLsb' 6 1)) = 1#1) r s) s) s
  else if wF w = 5#5 then rsvRun (decide (wB w = 0#7)) (execVcvtF32Bf16 (wP w) (wD w) (wA w) s) s
  else if wF w = 6#5 then rsvRun (decide ((wB w).extractLsb' 3 3 = 0#3)) (optRun .reserved (Rounding.ofCode (((wB w).extractLsb' 0 3))) (fun r => execVcvtS32F32 (wP w) (wD w) (wA w) ((((wB w).extractLsb' 6 1)) = 1#1) r s) s) s
  else if wF w = 7#5 then rsvRun (decide ((wB w).extractLsb' 3 3 = 0#3)) (optRun .reserved (Rounding.ofCode (((wB w).extractLsb' 0 3))) (fun r => execVcvtF32S32 (wP w) (wD w) (wA w) ((((wB w).extractLsb' 6 1)) = 1#1) r s) s) s
  else if wF w = 8#5 then rsvRun (decide ((wB w).extractLsb' 3 3 = 0#3)) (optRun .reserved (Rounding.ofCode (((wB w).extractLsb' 0 3))) (fun r => execVcvtN32F32 (wP w) (wD w) (wA w) ((((wB w).extractLsb' 6 1)) = 1#1) r s) s) s
  else if wF w = 9#5 then rsvRun (decide ((wB w).extractLsb' 3 3 = 0#3)) (optRun .reserved (Rounding.ofCode (((wB w).extractLsb' 0 3))) (fun r => execVcvtF32N32 (wP w) (wD w) (wA w) ((((wB w).extractLsb' 6 1)) = 1#1) r s) s) s
  else if wF w = 10#5 then rsvRun (decide ((wB w).extractLsb' 3 3 = 0#3)) (optRun .reserved (Rounding.ofCode (((wB w).extractLsb' 0 3))) (fun r => checked (firstFail [(3, even (wA w))]) (execVcvtS32F64 (wP w) (wD w) (wA w) ((((wB w).extractLsb' 6 1)) = 1#1) r s) s) s) s
  else if wF w = 11#5 then rsvRun (decide (wB w = 0#7)) (checked (firstFail [(3, even (wD w))]) (execVcvtF64S32 (wP w) (wD w) (wA w) s) s) s
  else if wF w = 12#5 then rsvRun (decide ((wB w).extractLsb' 3 3 = 0#3)) (optRun .reserved (Rounding.ofCode (((wB w).extractLsb' 0 3))) (fun r => checked (firstFail [(3, even (wD w)), (3, even (wA w))]) (execVcvtS64F64 (wP w) (wD w) (wA w) ((((wB w).extractLsb' 6 1)) = 1#1) r s) s) s) s
  else if wF w = 13#5 then rsvRun (decide ((wB w).extractLsb' 3 3 = 0#3)) (optRun .reserved (Rounding.ofCode (((wB w).extractLsb' 0 3))) (fun r => checked (firstFail [(3, even (wD w)), (3, even (wA w))]) (execVcvtF64S64 (wP w) (wD w) (wA w) ((((wB w).extractLsb' 6 1)) = 1#1) r s) s) s) s
  else if wF w = 14#5 then rsvRun (decide ((wB w).extractLsb' 3 3 = 0#3)) (optRun .reserved (Rounding.ofCode (((wB w).extractLsb' 0 3))) (fun r => execVcvtE4m3F32 (wP w) (wD w) (wA w) ((((wB w).extractLsb' 6 1)) = 1#1) r s) s) s
  else if wF w = 15#5 then rsvRun (decide (wB w = 0#7)) (execVcvtF32E4m3 (wP w) (wD w) (wA w) s) s
  else if wF w = 16#5 then rsvRun (decide ((wB w).extractLsb' 3 3 = 0#3)) (optRun .reserved (Rounding.ofCode (((wB w).extractLsb' 0 3))) (fun r => execVcvtE5m2F32 (wP w) (wD w) (wA w) ((((wB w).extractLsb' 6 1)) = 1#1) r s) s) s
  else if wF w = 17#5 then rsvRun (decide (wB w = 0#7)) (execVcvtF32E5m2 (wP w) (wD w) (wA w) s) s
  else if wF w = 18#5 then rsvRun (decide (wB w = 0#7)) (execVcvtF32E2m1 (wP w) (wD w) (wA w) s) s
  else if wF w = 19#5 then rsvRun (decide (wB w = 0#7)) (execVcvtF32E2m3 (wP w) (wD w) (wA w) s) s
  else if wF w = 20#5 then rsvRun (decide (wB w = 0#7)) (execVcvtF32E3m2 (wP w) (wD w) (wA w) s) s
  else s.illegalNow 1
theorem runVcvt_eq (w : Word) (s : State) : runDecoded (decodeVcvt w) s = runVcvt w s := by
  unfold decodeVcvt runVcvt
  simp only [runDecoded_ite, runDecoded_rsv, runDecoded_opt, runDecoded_ok, runDecoded_error]
  rfl

def runVxc (w : Word) (s : State) : Result :=
  if wF w = 0#5 then rsvRun (decide (wB w = 0#7)) (execVrcpF32 (wP w) (wD w) (wA w) s) s
  else if wF w = 1#5 then rsvRun (decide (wB w = 0#7)) (execVrsqF32 (wP w) (wD w) (wA w) s) s
  else if wF w = 2#5 then rsvRun (decide ((wB w).extractLsb' 3 4 = 0#4)) (optRun .reserved (Rounding.ofCode (((wB w).extractLsb' 0 3))) (fun r => execVsqrtF32 (wP w) (wD w) (wA w) r s) s) s
  else if wF w = 3#5 then rsvRun (decide (wB w = 0#7)) (execVexp2F32 (wP w) (wD w) (wA w) s) s
  else if wF w = 4#5 then rsvRun (decide (wB w = 0#7)) (execVlog2F32 (wP w) (wD w) (wA w) s) s
  else if wF w = 5#5 then rsvRun (decide (wB w = 0#7)) (execVsinF32 (wP w) (wD w) (wA w) s) s
  else if wF w = 6#5 then rsvRun (decide (wB w = 0#7)) (execVcosF32 (wP w) (wD w) (wA w) s) s
  else if wF w = 7#5 then rsvRun (decide (wB w = 0#7)) (execVtanhF32 (wP w) (wD w) (wA w) s) s
  else if wF w = 8#5 then rsvRun (decide ((wB w).extractLsb' 3 4 = 0#4)) (optRun .reserved (Rounding.ofCode (((wB w).extractLsb' 0 3))) (fun r => execVdivF32 (wP w) (wD w) (wA w) r s) s) s
  else if wF w = 9#5 then rsvRun (decide (wB w = 0#7)) (checked (firstFail [(3, even (wD w)), (3, even (wA w))]) (execVrcpF64 (wP w) (wD w) (wA w) s) s) s
  else if wF w = 10#5 then rsvRun (decide (wB w = 0#7)) (checked (firstFail [(3, even (wD w)), (3, even (wA w))]) (execVrsqF64 (wP w) (wD w) (wA w) s) s) s
  else if wF w = 11#5 then rsvRun (decide ((wB w).extractLsb' 3 4 = 0#4)) (optRun .reserved (Rounding.ofCode (((wB w).extractLsb' 0 3))) (fun r => checked (firstFail [(3, even (wD w)), (3, even (wA w))]) (execVsqrtF64 (wP w) (wD w) (wA w) r s) s) s) s
  else if wF w = 12#5 then rsvRun (decide (wB w = 0#7)) (checked (firstFail [(3, even (wD w)), (3, even (wA w))]) (execVexp2F64 (wP w) (wD w) (wA w) s) s) s
  else if wF w = 13#5 then rsvRun (decide (wB w = 0#7)) (checked (firstFail [(3, even (wD w)), (3, even (wA w))]) (execVlog2F64 (wP w) (wD w) (wA w) s) s) s
  else if wF w = 14#5 then rsvRun (decide (wB w = 0#7)) (checked (firstFail [(3, even (wD w)), (3, even (wA w))]) (execVsinF64 (wP w) (wD w) (wA w) s) s) s
  else if wF w = 15#5 then rsvRun (decide (wB w = 0#7)) (checked (firstFail [(3, even (wD w)), (3, even (wA w))]) (execVcosF64 (wP w) (wD w) (wA w) s) s) s
  else if wF w = 16#5 then rsvRun (decide ((wB w).extractLsb' 3 4 = 0#4)) (optRun .reserved (Rounding.ofCode (((wB w).extractLsb' 0 3))) (fun r => checked (firstFail [(3, even (wD w)), (3, even (wA w))]) (execVdivF64 (wP w) (wD w) (wA w) r s) s) s) s
  else s.illegalNow 1
theorem runVxc_eq (w : Word) (s : State) : runDecoded (decodeVxc w) s = runVxc w s := by
  unfold decodeVxc runVxc
  simp only [runDecoded_ite, runDecoded_rsv, runDecoded_opt, runDecoded_ok, runDecoded_error]
  rfl

def runVcmp (w : Word) (s : State) : Result :=
  if (wF w).extractLsb' 3 2 = 0#2 then checked (firstFail [(3, mask (wD w))]) (execVcmpF32 (wP w) (wD w) (wA w) (wB w) (Cond.ofCode (((wF w).extractLsb' 0 3))) s) s
  else if (wF w).extractLsb' 3 2 = 1#2 then checked (firstFail [(3, even (wA w)), (3, even (wB w)), (3, mask (wD w))]) (execVcmpF64 (wP w) (wD w) (wA w) (wB w) (Cond.ofCode (((wF w).extractLsb' 0 3))) s) s
  else if (wF w).extractLsb' 3 2 = 2#2 then checked (firstFail [(1, decide ((Cond.ofCode (((wF w).extractLsb' 0 3))) ≠ .un ∧ (Cond.ofCode (((wF w).extractLsb' 0 3))) ≠ .or)), (3, mask (wD w))]) (execVcmpS32 (wP w) (wD w) (wA w) (wB w) (Cond.ofCode (((wF w).extractLsb' 0 3))) s) s
  else if (wF w).extractLsb' 3 2 = 3#2 then checked (firstFail [(1, decide ((Cond.ofCode (((wF w).extractLsb' 0 3))) ≠ .un ∧ (Cond.ofCode (((wF w).extractLsb' 0 3))) ≠ .or)), (3, mask (wD w))]) (execVcmpN32 (wP w) (wD w) (wA w) (wB w) (Cond.ofCode (((wF w).extractLsb' 0 3))) s) s
  else s.illegalNow 1
theorem runVcmp_eq (w : Word) (s : State) : runDecoded (decodeVcmp w) s = runVcmp w s := by
  unfold decodeVcmp runVcmp
  simp only [runDecoded_ite, runDecoded_ok, runDecoded_error]
  rfl

def runVlane (w : Word) (s : State) : Result :=
  if wF w = 0#5 then execVshfl (wP w) (wD w) (wA w) (wB w) s
  else if wF w = 1#5 then execVshflx (wP w) (wD w) (wA w) (wB w) s
  else if wF w = 2#5 then execVshflu (wP w) (wD w) (wA w) (wB w) s
  else if wF w = 3#5 then execVshfld (wP w) (wD w) (wA w) (wB w) s
  else if wF w = 4#5 then execVbcst (wP w) (wD w) (wA w) (wB w) s
  else if wF w = 5#5 then rsvRun (decide (wB w = 0#7)) (execVredaddS32 (wP w) (wD w) (wA w) s) s
  else if wF w = 6#5 then rsvRun (decide (wB w = 0#7)) (execVredaddF32 (wP w) (wD w) (wA w) s) s
  else if wF w = 7#5 then rsvRun (decide (wB w = 0#7)) (execVredmaxF32 (wP w) (wD w) (wA w) s) s
  else if wF w = 8#5 then rsvRun (decide (wB w = 0#7)) (execVredminF32 (wP w) (wD w) (wA w) s) s
  else if wF w = 9#5 then rsvRun (decide (wB w = 0#7)) (execVscanS32 (wP w) (wD w) (wA w) s) s
  else if wF w = 10#5 then rsvRun (decide (wB w = 0#7)) (execVscanF32 (wP w) (wD w) (wA w) s) s
  else if wF w = 11#5 then checked (firstFail [(3, mask (wB w))]) (execVselm (wP w) (wD w) (wA w) (wB w) s) s
  else if wF w = 12#5 then checked (firstFail [(3, mask (wD w)), (3, mask (wA w)), (3, mask (wB w))]) (execMand (wP w) (wD w) (wA w) (wB w) s) s
  else if wF w = 13#5 then checked (firstFail [(3, mask (wD w)), (3, mask (wA w)), (3, mask (wB w))]) (execMor (wP w) (wD w) (wA w) (wB w) s) s
  else if wF w = 14#5 then checked (firstFail [(3, mask (wD w)), (3, mask (wA w)), (3, mask (wB w))]) (execMxor (wP w) (wD w) (wA w) (wB w) s) s
  else if wF w = 15#5 then checked (firstFail [(3, mask (wD w)), (3, mask (wA w)), (3, mask (wB w))]) (execMandn (wP w) (wD w) (wA w) (wB w) s) s
  else if wF w = 16#5 then rsvRun (decide (wB w = 0#7)) (checked (firstFail [(3, mask (wD w)), (3, mask (wA w))]) (execMnot (wP w) (wD w) (wA w) s) s) s
  else if wF w = 17#5 then rsvRun (decide (wB w = 0#7)) (checked (firstFail [(3, mask (wD w)), (3, mask (wA w))]) (execMmov (wP w) (wD w) (wA w) s) s) s
  else if wF w = 18#5 then rsvRun (decide (wB w = 0#7)) (checked (firstFail [(3, mask (wA w))]) (execMpopc (wP w) (wD w) (wA w) s) s) s
  else if wF w = 19#5 then rsvRun (decide (wB w = 0#7)) (checked (firstFail [(3, mask (wA w))]) (execMfirst (wP w) (wD w) (wA w) s) s) s
  else if wF w = 20#5 then rsvRun (decide (wB w = 0#7)) (checked (firstFail [(3, even (wD w)), (3, mask (wA w))]) (execMtos (wP w) (wD w) (wA w) s) s) s
  else if wF w = 21#5 then rsvRun (decide (wB w = 0#7)) (checked (firstFail [(3, mask (wD w)), (3, even (wA w))]) (execStom (wP w) (wD w) (wA w) s) s) s
  else s.illegalNow 1
theorem runVlane_eq (w : Word) (s : State) : runDecoded (decodeVlane w) s = runVlane w s := by
  unfold decodeVlane runVlane
  simp only [runDecoded_ite, runDecoded_rsv, runDecoded_ok, runDecoded_error]
  rfl

def runVpack (w : Word) (s : State) : Result :=
  if wF w = 0#5 then execVdp4s (wP w) (wD w) (wA w) (wB w) s
  else if wF w = 1#5 then execVdp4z (wP w) (wD w) (wA w) (wB w) s
  else if wF w = 2#5 then execVdp8s (wP w) (wD w) (wA w) (wB w) s
  else if wF w = 3#5 then execVdp8z (wP w) (wD w) (wA w) (wB w) s
  else if wF w = 4#5 then execVdpf4 (wP w) (wD w) (wA w) (wB w) s
  else if wF w = 5#5 then execVdpf8a (wP w) (wD w) (wA w) (wB w) s
  else if wF w = 6#5 then execVdpf8b (wP w) (wD w) (wA w) (wB w) s
  else if wF w = 7#5 then rsvRun (decide (wB w = 0#7)) (execVunpk4l (wP w) (wD w) (wA w) s) s
  else if wF w = 8#5 then rsvRun (decide (wB w = 0#7)) (execVunpk4h (wP w) (wD w) (wA w) s) s
  else if wF w = 9#5 then rsvRun (decide (wB w = 0#7)) (execVunpk6 (wP w) (wD w) (wA w) s) s
  else if wF w = 10#5 then rsvRun (decide (wA w = 0#7)) (execVeset (wP w) (wD w) (wB w) s) s
  else if wF w = 11#5 then rsvRun (decide (wB w = 0#7)) (execVeget (wP w) (wD w) (wA w) s) s
  else if wF w = 12#5 then rsvRun (decide (wB w = 0#7)) (execVemov (wP w) (wD w) (wA w) s) s
  else if wF w = 13#5 then execVeadd (wP w) (wD w) (wA w) (wB w) s
  else s.illegalNow 1
theorem runVpack_eq (w : Word) (s : State) : runDecoded (decodeVpack w) s = runVpack w s := by
  unfold decodeVpack runVpack
  simp only [runDecoded_ite, runDecoded_rsv, runDecoded_ok, runDecoded_error]
  rfl

def runVmx (w : Word) (s : State) : Result :=
  if wF w = 0#5 then rsvRun (decide ((wB w).extractLsb' 5 2 = 0#2)) (optRun .reserved (RqRound.ofCode (((wB w).extractLsb' 0 2))) (fun r => optRun .reserved (HadOpt.ofCode (((wB w).extractLsb' 2 2))) (fun h => checked (firstFail [(3, mult 4 (wD w)), (3, mult 8 (wA w))]) (execRqntE2m1 (wP w) (wD w) (wA w) ((((wB w).extractLsb' 4 1)) = 1#1) h r s) s) s) s) s
  else if wF w = 1#5 then rsvRun (decide ((wB w).extractLsb' 4 3 = 0#3)) (optRun .reserved (RqRound.ofCode (((wB w).extractLsb' 0 2))) (fun r => optRun .reserved (HadOpt.ofCode (((wB w).extractLsb' 2 2))) (fun h => checked (firstFail [(3, even (wD w)), (3, decide ((wD w).toNat ≤ 122)), (3, mult 8 (wA w))]) (execRqntE2m3 (wP w) (wD w) (wA w) h r s) s) s) s) s
  else if wF w = 2#5 then rsvRun (decide ((wB w).extractLsb' 4 3 = 0#3)) (optRun .reserved (RqRound.ofCode (((wB w).extractLsb' 0 2))) (fun r => optRun .reserved (HadOpt.ofCode (((wB w).extractLsb' 2 2))) (fun h => checked (firstFail [(3, even (wD w)), (3, decide ((wD w).toNat ≤ 122)), (3, mult 8 (wA w))]) (execRqntE3m2 (wP w) (wD w) (wA w) h r s) s) s) s) s
  else if wF w = 3#5 then rsvRun (decide ((wB w).extractLsb' 4 3 = 0#3)) (optRun .reserved (RqRound.ofCode (((wB w).extractLsb' 0 2))) (fun r => optRun .reserved (HadOpt.ofCode (((wB w).extractLsb' 2 2))) (fun h => checked (firstFail [(3, mult 8 (wD w)), (3, mult 8 (wA w))]) (execRqntE4m3 (wP w) (wD w) (wA w) h r s) s) s) s) s
  else if wF w = 4#5 then rsvRun (decide ((wB w).extractLsb' 4 3 = 0#3)) (optRun .reserved (RqRound.ofCode (((wB w).extractLsb' 0 2))) (fun r => optRun .reserved (HadOpt.ofCode (((wB w).extractLsb' 2 2))) (fun h => checked (firstFail [(3, mult 8 (wD w)), (3, mult 8 (wA w))]) (execRqntE5m2 (wP w) (wD w) (wA w) h r s) s) s) s) s
  else if wF w = 5#5 then rsvRun (decide ((wB w).extractLsb' 4 3 = 0#3)) (optRun .reserved (RqRound.ofCode (((wB w).extractLsb' 0 2))) (fun r => optRun .reserved (HadOpt.ofCode (((wB w).extractLsb' 2 2))) (fun h => checked (firstFail [(3, mult 4 (wD w)), (3, mult 8 (wA w))]) (execRqntg4 (wP w) (wD w) (wA w) h r s) s) s) s) s
  else if wF w = 6#5 then rsvRun (decide ((wB w).extractLsb' 4 3 = 0#3)) (optRun .reserved (RqRound.ofCode (((wB w).extractLsb' 0 2))) (fun r => optRun .reserved (HadOpt.ofCode (((wB w).extractLsb' 2 2))) (fun h => checked (firstFail [(3, mult 8 (wD w)), (3, mult 8 (wA w))]) (execRqntg8 (wP w) (wD w) (wA w) h r s) s) s) s) s
  else if wF w = 7#5 then rsvRun (decide (wB w = 0#7)) (checked (firstFail [(3, mult 8 (wA w))]) (execVebmax (wP w) (wD w) (wA w) s) s) s
  else if wF w = 8#5 then rsvRun (decide (wB w = 0#7)) (checked (firstFail [(3, mult 8 (wD w)), (3, mult 8 (wA w))]) (execVhad16 (wP w) (wD w) (wA w) s) s) s
  else if wF w = 9#5 then rsvRun (decide (wB w = 0#7)) (checked (firstFail [(3, mult 8 (wD w)), (3, mult 8 (wA w))]) (execVhad32 (wP w) (wD w) (wA w) s) s) s
  else s.illegalNow 1
theorem runVmx_eq (w : Word) (s : State) : runDecoded (decodeVmx w) s = runVmx w s := by
  unfold decodeVmx runVmx
  simp only [runDecoded_ite, runDecoded_rsv, runDecoded_opt, runDecoded_ok, runDecoded_error]
  rfl

def runVld (w : Word) (s : State) : Result :=
  if (wF w).extractLsb' 2 3 = 0#3 then checked (firstFail [(2, addrFields (wA w) (wB w) (AddrMode.ofCode (((wF w).extractLsb' 0 2)))), (3, addrPair (wA w) (AddrMode.ofCode (((wF w).extractLsb' 0 2))))]) (execVldB8 (wP w) (wD w) (wA w) (wB w) (AddrMode.ofCode (((wF w).extractLsb' 0 2))) s) s
  else if (wF w).extractLsb' 2 3 = 1#3 then checked (firstFail [(2, addrFields (wA w) (wB w) (AddrMode.ofCode (((wF w).extractLsb' 0 2)))), (3, addrPair (wA w) (AddrMode.ofCode (((wF w).extractLsb' 0 2))))]) (execVldS8 (wP w) (wD w) (wA w) (wB w) (AddrMode.ofCode (((wF w).extractLsb' 0 2))) s) s
  else if (wF w).extractLsb' 2 3 = 2#3 then checked (firstFail [(2, addrFields (wA w) (wB w) (AddrMode.ofCode (((wF w).extractLsb' 0 2)))), (3, addrPair (wA w) (AddrMode.ofCode (((wF w).extractLsb' 0 2))))]) (execVldB16 (wP w) (wD w) (wA w) (wB w) (AddrMode.ofCode (((wF w).extractLsb' 0 2))) s) s
  else if (wF w).extractLsb' 2 3 = 3#3 then checked (firstFail [(2, addrFields (wA w) (wB w) (AddrMode.ofCode (((wF w).extractLsb' 0 2)))), (3, addrPair (wA w) (AddrMode.ofCode (((wF w).extractLsb' 0 2))))]) (execVldS16 (wP w) (wD w) (wA w) (wB w) (AddrMode.ofCode (((wF w).extractLsb' 0 2))) s) s
  else if (wF w).extractLsb' 2 3 = 4#3 then checked (firstFail [(2, addrFields (wA w) (wB w) (AddrMode.ofCode (((wF w).extractLsb' 0 2)))), (3, addrPair (wA w) (AddrMode.ofCode (((wF w).extractLsb' 0 2))))]) (execVldW32 (wP w) (wD w) (wA w) (wB w) (AddrMode.ofCode (((wF w).extractLsb' 0 2))) s) s
  else if (wF w).extractLsb' 2 3 = 5#3 then checked (firstFail [(2, addrFields (wA w) (wB w) (AddrMode.ofCode (((wF w).extractLsb' 0 2)))), (3, addrPair (wA w) (AddrMode.ofCode (((wF w).extractLsb' 0 2)))), (3, even (wD w))]) (execVldW64 (wP w) (wD w) (wA w) (wB w) (AddrMode.ofCode (((wF w).extractLsb' 0 2))) s) s
  else if (wF w).extractLsb' 2 3 = 6#3 then checked (firstFail [(2, addrFields (wA w) (wB w) (AddrMode.ofCode (((wF w).extractLsb' 0 2)))), (3, addrPair (wA w) (AddrMode.ofCode (((wF w).extractLsb' 0 2)))), (3, mult 4 (wD w))]) (execVldW128 (wP w) (wD w) (wA w) (wB w) (AddrMode.ofCode (((wF w).extractLsb' 0 2))) s) s
  else if (wF w).extractLsb' 2 3 = 7#3 then checked (firstFail [(2, addrFields (wA w) (wB w) (AddrMode.ofCode (((wF w).extractLsb' 0 2)))), (3, addrPair (wA w) (AddrMode.ofCode (((wF w).extractLsb' 0 2))))]) (execVldE (wP w) (wD w) (wA w) (wB w) (AddrMode.ofCode (((wF w).extractLsb' 0 2))) s) s
  else s.illegalNow 1
theorem runVld_eq (w : Word) (s : State) : runDecoded (decodeVld w) s = runVld w s := by
  unfold decodeVld runVld
  simp only [runDecoded_ite, runDecoded_ok, runDecoded_error]
  rfl

def runVst (w : Word) (s : State) : Result :=
  if (wF w).extractLsb' 2 3 = 0#3 then checked (firstFail [(2, addrFields (wA w) (wB w) (AddrMode.ofCode (((wF w).extractLsb' 0 2)))), (3, addrPair (wA w) (AddrMode.ofCode (((wF w).extractLsb' 0 2))))]) (execVstB8 (wP w) (wD w) (wA w) (wB w) (AddrMode.ofCode (((wF w).extractLsb' 0 2))) s) s
  else if (wF w).extractLsb' 2 3 = 2#3 then checked (firstFail [(2, addrFields (wA w) (wB w) (AddrMode.ofCode (((wF w).extractLsb' 0 2)))), (3, addrPair (wA w) (AddrMode.ofCode (((wF w).extractLsb' 0 2))))]) (execVstB16 (wP w) (wD w) (wA w) (wB w) (AddrMode.ofCode (((wF w).extractLsb' 0 2))) s) s
  else if (wF w).extractLsb' 2 3 = 4#3 then checked (firstFail [(2, addrFields (wA w) (wB w) (AddrMode.ofCode (((wF w).extractLsb' 0 2)))), (3, addrPair (wA w) (AddrMode.ofCode (((wF w).extractLsb' 0 2))))]) (execVstW32 (wP w) (wD w) (wA w) (wB w) (AddrMode.ofCode (((wF w).extractLsb' 0 2))) s) s
  else if (wF w).extractLsb' 2 3 = 5#3 then checked (firstFail [(2, addrFields (wA w) (wB w) (AddrMode.ofCode (((wF w).extractLsb' 0 2)))), (3, addrPair (wA w) (AddrMode.ofCode (((wF w).extractLsb' 0 2)))), (3, even (wD w))]) (execVstW64 (wP w) (wD w) (wA w) (wB w) (AddrMode.ofCode (((wF w).extractLsb' 0 2))) s) s
  else if (wF w).extractLsb' 2 3 = 6#3 then checked (firstFail [(2, addrFields (wA w) (wB w) (AddrMode.ofCode (((wF w).extractLsb' 0 2)))), (3, addrPair (wA w) (AddrMode.ofCode (((wF w).extractLsb' 0 2)))), (3, mult 4 (wD w))]) (execVstW128 (wP w) (wD w) (wA w) (wB w) (AddrMode.ofCode (((wF w).extractLsb' 0 2))) s) s
  else if (wF w).extractLsb' 2 3 = 7#3 then checked (firstFail [(2, addrFields (wA w) (wB w) (AddrMode.ofCode (((wF w).extractLsb' 0 2)))), (3, addrPair (wA w) (AddrMode.ofCode (((wF w).extractLsb' 0 2))))]) (execVstE (wP w) (wD w) (wA w) (wB w) (AddrMode.ofCode (((wF w).extractLsb' 0 2))) s) s
  else s.illegalNow 1
theorem runVst_eq (w : Word) (s : State) : runDecoded (decodeVst w) s = runVst w s := by
  unfold decodeVst runVst
  simp only [runDecoded_ite, runDecoded_ok, runDecoded_error]
  rfl

def runVatom (w : Word) (s : State) : Result :=
  if (wF w).extractLsb' 0 4 = 0#4 then rsvRun (decide ((wB w).extractLsb' 5 1 = 0#1)) (checked (firstFail [(2, atomOk .quantum ((((wB w).extractLsb' 6 1)) = 1#1) (Scope.ofCode (((wB w).extractLsb' 3 2))) (AtomUse.ofCode (((wB w).extractLsb' 0 3))) ((((wF w).extractLsb' 4 1)) = 1#1)), (3, ((((wF w).extractLsb' 4 1)) = 1#1) || even (wA w))]) (execVatomAdd32 (wP w) (wD w) (wA w) ((((wB w).extractLsb' 6 1)) = 1#1) (Scope.ofCode (((wB w).extractLsb' 3 2))) (AtomUse.ofCode (((wB w).extractLsb' 0 3))) ((((wF w).extractLsb' 4 1)) = 1#1) s) s) s
  else if (wF w).extractLsb' 0 4 = 1#4 then rsvRun (decide ((wB w).extractLsb' 5 1 = 0#1)) (checked (firstFail [(2, atomOk .quantum ((((wB w).extractLsb' 6 1)) = 1#1) (Scope.ofCode (((wB w).extractLsb' 3 2))) (AtomUse.ofCode (((wB w).extractLsb' 0 3))) ((((wF w).extractLsb' 4 1)) = 1#1)), (3, ((((wF w).extractLsb' 4 1)) = 1#1) || even (wA w)), (3, even (wD w))]) (execVatomAdd64 (wP w) (wD w) (wA w) ((((wB w).extractLsb' 6 1)) = 1#1) (Scope.ofCode (((wB w).extractLsb' 3 2))) (AtomUse.ofCode (((wB w).extractLsb' 0 3))) ((((wF w).extractLsb' 4 1)) = 1#1) s) s) s
  else if (wF w).extractLsb' 0 4 = 2#4 then rsvRun (decide ((wB w).extractLsb' 5 1 = 0#1)) (checked (firstFail [(2, atomOk .comm ((((wB w).extractLsb' 6 1)) = 1#1) (Scope.ofCode (((wB w).extractLsb' 3 2))) (AtomUse.ofCode (((wB w).extractLsb' 0 3))) ((((wF w).extractLsb' 4 1)) = 1#1)), (3, ((((wF w).extractLsb' 4 1)) = 1#1) || even (wA w))]) (execVatomMinS32 (wP w) (wD w) (wA w) ((((wB w).extractLsb' 6 1)) = 1#1) (Scope.ofCode (((wB w).extractLsb' 3 2))) (AtomUse.ofCode (((wB w).extractLsb' 0 3))) ((((wF w).extractLsb' 4 1)) = 1#1) s) s) s
  else if (wF w).extractLsb' 0 4 = 3#4 then rsvRun (decide ((wB w).extractLsb' 5 1 = 0#1)) (checked (firstFail [(2, atomOk .comm ((((wB w).extractLsb' 6 1)) = 1#1) (Scope.ofCode (((wB w).extractLsb' 3 2))) (AtomUse.ofCode (((wB w).extractLsb' 0 3))) ((((wF w).extractLsb' 4 1)) = 1#1)), (3, ((((wF w).extractLsb' 4 1)) = 1#1) || even (wA w))]) (execVatomMaxS32 (wP w) (wD w) (wA w) ((((wB w).extractLsb' 6 1)) = 1#1) (Scope.ofCode (((wB w).extractLsb' 3 2))) (AtomUse.ofCode (((wB w).extractLsb' 0 3))) ((((wF w).extractLsb' 4 1)) = 1#1) s) s) s
  else if (wF w).extractLsb' 0 4 = 4#4 then rsvRun (decide ((wB w).extractLsb' 5 1 = 0#1)) (checked (firstFail [(2, atomOk .comm ((((wB w).extractLsb' 6 1)) = 1#1) (Scope.ofCode (((wB w).extractLsb' 3 2))) (AtomUse.ofCode (((wB w).extractLsb' 0 3))) ((((wF w).extractLsb' 4 1)) = 1#1)), (3, ((((wF w).extractLsb' 4 1)) = 1#1) || even (wA w))]) (execVatomAnd (wP w) (wD w) (wA w) ((((wB w).extractLsb' 6 1)) = 1#1) (Scope.ofCode (((wB w).extractLsb' 3 2))) (AtomUse.ofCode (((wB w).extractLsb' 0 3))) ((((wF w).extractLsb' 4 1)) = 1#1) s) s) s
  else if (wF w).extractLsb' 0 4 = 5#4 then rsvRun (decide ((wB w).extractLsb' 5 1 = 0#1)) (checked (firstFail [(2, atomOk .comm ((((wB w).extractLsb' 6 1)) = 1#1) (Scope.ofCode (((wB w).extractLsb' 3 2))) (AtomUse.ofCode (((wB w).extractLsb' 0 3))) ((((wF w).extractLsb' 4 1)) = 1#1)), (3, ((((wF w).extractLsb' 4 1)) = 1#1) || even (wA w))]) (execVatomOr (wP w) (wD w) (wA w) ((((wB w).extractLsb' 6 1)) = 1#1) (Scope.ofCode (((wB w).extractLsb' 3 2))) (AtomUse.ofCode (((wB w).extractLsb' 0 3))) ((((wF w).extractLsb' 4 1)) = 1#1) s) s) s
  else if (wF w).extractLsb' 0 4 = 6#4 then rsvRun (decide ((wB w).extractLsb' 5 1 = 0#1)) (checked (firstFail [(2, atomOk .comm ((((wB w).extractLsb' 6 1)) = 1#1) (Scope.ofCode (((wB w).extractLsb' 3 2))) (AtomUse.ofCode (((wB w).extractLsb' 0 3))) ((((wF w).extractLsb' 4 1)) = 1#1)), (3, ((((wF w).extractLsb' 4 1)) = 1#1) || even (wA w))]) (execVatomXor (wP w) (wD w) (wA w) ((((wB w).extractLsb' 6 1)) = 1#1) (Scope.ofCode (((wB w).extractLsb' 3 2))) (AtomUse.ofCode (((wB w).extractLsb' 0 3))) ((((wF w).extractLsb' 4 1)) = 1#1) s) s) s
  else if (wF w).extractLsb' 0 4 = 7#4 then rsvRun (decide ((wB w).extractLsb' 5 1 = 0#1)) (checked (firstFail [(2, atomOk .plain ((((wB w).extractLsb' 6 1)) = 1#1) (Scope.ofCode (((wB w).extractLsb' 3 2))) (AtomUse.ofCode (((wB w).extractLsb' 0 3))) ((((wF w).extractLsb' 4 1)) = 1#1)), (3, ((((wF w).extractLsb' 4 1)) = 1#1) || even (wA w))]) (execVatomXch32 (wP w) (wD w) (wA w) ((((wB w).extractLsb' 6 1)) = 1#1) (Scope.ofCode (((wB w).extractLsb' 3 2))) (AtomUse.ofCode (((wB w).extractLsb' 0 3))) ((((wF w).extractLsb' 4 1)) = 1#1) s) s) s
  else if (wF w).extractLsb' 0 4 = 8#4 then rsvRun (decide ((wB w).extractLsb' 5 1 = 0#1)) (checked (firstFail [(2, atomOk .plain ((((wB w).extractLsb' 6 1)) = 1#1) (Scope.ofCode (((wB w).extractLsb' 3 2))) (AtomUse.ofCode (((wB w).extractLsb' 0 3))) ((((wF w).extractLsb' 4 1)) = 1#1)), (3, ((((wF w).extractLsb' 4 1)) = 1#1) || even (wA w)), (3, even (wD w))]) (execVatomXch64 (wP w) (wD w) (wA w) ((((wB w).extractLsb' 6 1)) = 1#1) (Scope.ofCode (((wB w).extractLsb' 3 2))) (AtomUse.ofCode (((wB w).extractLsb' 0 3))) ((((wF w).extractLsb' 4 1)) = 1#1) s) s) s
  else if (wF w).extractLsb' 0 4 = 9#4 then rsvRun (decide ((wB w).extractLsb' 5 1 = 0#1)) (checked (firstFail [(2, atomOk .cas ((((wB w).extractLsb' 6 1)) = 1#1) (Scope.ofCode (((wB w).extractLsb' 3 2))) (AtomUse.ofCode (((wB w).extractLsb' 0 3))) ((((wF w).extractLsb' 4 1)) = 1#1)), (3, ((((wF w).extractLsb' 4 1)) = 1#1) || even (wA w)), (3, even (wD w))]) (execVatomCas32 (wP w) (wD w) (wA w) ((((wB w).extractLsb' 6 1)) = 1#1) (Scope.ofCode (((wB w).extractLsb' 3 2))) (AtomUse.ofCode (((wB w).extractLsb' 0 3))) ((((wF w).extractLsb' 4 1)) = 1#1) s) s) s
  else if (wF w).extractLsb' 0 4 = 10#4 then rsvRun (decide ((wB w).extractLsb' 5 1 = 0#1)) (checked (firstFail [(2, atomOk .cas ((((wB w).extractLsb' 6 1)) = 1#1) (Scope.ofCode (((wB w).extractLsb' 3 2))) (AtomUse.ofCode (((wB w).extractLsb' 0 3))) ((((wF w).extractLsb' 4 1)) = 1#1)), (3, ((((wF w).extractLsb' 4 1)) = 1#1) || even (wA w)), (3, mult 4 (wD w))]) (execVatomCas64 (wP w) (wD w) (wA w) ((((wB w).extractLsb' 6 1)) = 1#1) (Scope.ofCode (((wB w).extractLsb' 3 2))) (AtomUse.ofCode (((wB w).extractLsb' 0 3))) ((((wF w).extractLsb' 4 1)) = 1#1) s) s) s
  else if (wF w).extractLsb' 0 4 = 11#4 then rsvRun (decide ((wB w).extractLsb' 5 1 = 0#1)) (checked (firstFail [(2, atomOk .comm ((((wB w).extractLsb' 6 1)) = 1#1) (Scope.ofCode (((wB w).extractLsb' 3 2))) (AtomUse.ofCode (((wB w).extractLsb' 0 3))) ((((wF w).extractLsb' 4 1)) = 1#1)), (3, ((((wF w).extractLsb' 4 1)) = 1#1) || even (wA w))]) (execVatomFadd32 (wP w) (wD w) (wA w) ((((wB w).extractLsb' 6 1)) = 1#1) (Scope.ofCode (((wB w).extractLsb' 3 2))) (AtomUse.ofCode (((wB w).extractLsb' 0 3))) ((((wF w).extractLsb' 4 1)) = 1#1) s) s) s
  else if (wF w).extractLsb' 0 4 = 12#4 then rsvRun (decide ((wB w).extractLsb' 5 1 = 0#1)) (checked (firstFail [(2, atomOk .comm ((((wB w).extractLsb' 6 1)) = 1#1) (Scope.ofCode (((wB w).extractLsb' 3 2))) (AtomUse.ofCode (((wB w).extractLsb' 0 3))) ((((wF w).extractLsb' 4 1)) = 1#1)), (3, ((((wF w).extractLsb' 4 1)) = 1#1) || even (wA w)), (3, even (wD w))]) (execVatomFadd64 (wP w) (wD w) (wA w) ((((wB w).extractLsb' 6 1)) = 1#1) (Scope.ofCode (((wB w).extractLsb' 3 2))) (AtomUse.ofCode (((wB w).extractLsb' 0 3))) ((((wF w).extractLsb' 4 1)) = 1#1) s) s) s
  else if (wF w).extractLsb' 0 4 = 13#4 then rsvRun (decide ((wB w).extractLsb' 5 1 = 0#1)) (checked (firstFail [(2, atomOk .ordered ((((wB w).extractLsb' 6 1)) = 1#1) (Scope.ofCode (((wB w).extractLsb' 3 2))) (AtomUse.ofCode (((wB w).extractLsb' 0 3))) ((((wF w).extractLsb' 4 1)) = 1#1)), (3, ((((wF w).extractLsb' 4 1)) = 1#1) || even (wA w))]) (execVatomFaddo32 (wP w) (wD w) (wA w) ((((wB w).extractLsb' 6 1)) = 1#1) (Scope.ofCode (((wB w).extractLsb' 3 2))) (AtomUse.ofCode (((wB w).extractLsb' 0 3))) ((((wF w).extractLsb' 4 1)) = 1#1) s) s) s
  else if (wF w).extractLsb' 0 4 = 14#4 then rsvRun (decide ((wB w).extractLsb' 5 1 = 0#1)) (checked (firstFail [(2, atomOk .ordered ((((wB w).extractLsb' 6 1)) = 1#1) (Scope.ofCode (((wB w).extractLsb' 3 2))) (AtomUse.ofCode (((wB w).extractLsb' 0 3))) ((((wF w).extractLsb' 4 1)) = 1#1)), (3, ((((wF w).extractLsb' 4 1)) = 1#1) || even (wA w)), (3, even (wD w))]) (execVatomFaddo64 (wP w) (wD w) (wA w) ((((wB w).extractLsb' 6 1)) = 1#1) (Scope.ofCode (((wB w).extractLsb' 3 2))) (AtomUse.ofCode (((wB w).extractLsb' 0 3))) ((((wF w).extractLsb' 4 1)) = 1#1) s) s) s
  else if (wF w).extractLsb' 0 4 = 15#4 then rsvRun (decide ((wB w).extractLsb' 5 1 = 0#1)) (checked (firstFail [(2, atomOk .comm ((((wB w).extractLsb' 6 1)) = 1#1) (Scope.ofCode (((wB w).extractLsb' 3 2))) (AtomUse.ofCode (((wB w).extractLsb' 0 3))) ((((wF w).extractLsb' 4 1)) = 1#1)), (3, ((((wF w).extractLsb' 4 1)) = 1#1) || even (wA w))]) (execVatomIncw (wP w) (wD w) (wA w) ((((wB w).extractLsb' 6 1)) = 1#1) (Scope.ofCode (((wB w).extractLsb' 3 2))) (AtomUse.ofCode (((wB w).extractLsb' 0 3))) ((((wF w).extractLsb' 4 1)) = 1#1) s) s) s
  else s.illegalNow 1
theorem runVatom_eq (w : Word) (s : State) : runDecoded (decodeVatom w) s = runVatom w s := by
  unfold decodeVatom runVatom
  simp only [runDecoded_ite, runDecoded_rsv, runDecoded_ok, runDecoded_error]
  rfl

def runSmem (w : Word) (s : State) : Result :=
  if wF3 w = 0#3 then checked (firstFail [(3, even (wA w))]) (execSld32 (wP w) (wD w) (wA w) (wImm9 w) s) s
  else if wF3 w = 1#3 then checked (firstFail [(3, even (wD w)), (3, even (wA w))]) (execSld64 (wP w) (wD w) (wA w) (wImm9 w) s) s
  else if wF3 w = 2#3 then checked (firstFail [(3, mult 4 (wD w)), (3, even (wA w))]) (execSld128 (wP w) (wD w) (wA w) (wImm9 w) s) s
  else if wF3 w = 3#3 then checked (firstFail [(3, even (wA w))]) (execSst32 (wP w) (wD w) (wA w) (wImm9 w) s) s
  else if wF3 w = 4#3 then checked (firstFail [(3, even (wD w)), (3, even (wA w))]) (execSst64 (wP w) (wD w) (wA w) (wImm9 w) s) s
  else if wF3 w = 5#3 then checked (firstFail [(3, mult 4 (wD w)), (3, even (wA w))]) (execSst128 (wP w) (wD w) (wA w) (wImm9 w) s) s
  else if wF3 w = 6#3 then checked (firstFail [(3, even (wA w))]) (execSaadd (wP w) (wD w) (wA w) (wImm9 w) s) s
  else if wF3 w = 7#3 then checked (firstFail [(3, even (wD w)), (3, even (wA w))]) (execSacas (wP w) (wD w) (wA w) (wImm9 w) s) s
  else s.illegalNow 1
theorem runSmem_eq (w : Word) (s : State) : runDecoded (decodeSmem w) s = runSmem w s := by
  unfold decodeSmem runSmem
  simp only [runDecoded_ite, runDecoded_ok, runDecoded_error]
  rfl

def runVsync (w : Word) (s : State) : Result :=
  if wF w = 0#5 then checked (firstFail [(3, even (wA w))]) (execAcp4 (wP w) (wD w) (wA w) (wB w) s) s
  else if wF w = 1#5 then checked (firstFail [(3, even (wA w))]) (execAcp8 (wP w) (wD w) (wA w) (wB w) s) s
  else if wF w = 2#5 then checked (firstFail [(3, even (wA w))]) (execAcp16 (wP w) (wD w) (wA w) (wB w) s) s
  else if wF w = 3#5 then checked (firstFail [(3, mult 4 (wA w))]) (execAcps4 (wP w) (wD w) (wA w) (wB w) s) s
  else if wF w = 4#5 then checked (firstFail [(3, mult 4 (wA w))]) (execAcps8 (wP w) (wD w) (wA w) (wB w) s) s
  else if wF w = 5#5 then checked (firstFail [(3, mult 4 (wA w))]) (execAcps16 (wP w) (wD w) (wA w) (wB w) s) s
  else if wF w = 6#5 then rsvRun (decide (wD w = 0#7)) (execBoinit (wP w) (wA w) (wB w) s) s
  else if wF w = 7#5 then rsvRun (decide (wB w = 0#7)) (execBoarr (wP w) (wD w) (wA w) s) s
  else if wF w = 8#5 then rsvRun (decide (wD w = 0#7)) (execBoexp (wP w) (wA w) (wB w) s) s
  else if wF w = 9#5 then execBowait (wP w) (wD w) (wA w) (wB w) s
  else if wF w = 10#5 then rsvRun (decide (wB w = 0#7)) (execBotest (wP w) (wD w) (wA w) s) s
  else if wF w = 11#5 then checked (firstFail [(3, even (wA w))]) (execWaitaEq (wP w) (wD w) (wA w) (wB w) s) s
  else if wF w = 12#5 then checked (firstFail [(3, even (wA w))]) (execWaitaNe (wP w) (wD w) (wA w) (wB w) s) s
  else if wF w = 13#5 then rsvRun (decide (wD w = 0#7) && decide (wA w = 0#7) && decide ((wB w).extractLsb' 2 5 = 0#5)) (execFenceAcq (wP w) (Scope.ofCode (((wB w).extractLsb' 0 2))) s) s
  else if wF w = 14#5 then rsvRun (decide (wD w = 0#7) && decide (wA w = 0#7) && decide ((wB w).extractLsb' 2 5 = 0#5)) (execFenceRel (wP w) (Scope.ofCode (((wB w).extractLsb' 0 2))) s) s
  else if wF w = 15#5 then rsvRun (decide (wD w = 0#7) && decide (wA w = 0#7) && decide ((wB w).extractLsb' 2 5 = 0#5)) (execFenceFull (wP w) (Scope.ofCode (((wB w).extractLsb' 0 2))) s) s
  else if wF w = 16#5 then rsvRun (decide (wD w = 0#7) && decide (wB w = 0#7)) (execLempty (wP w) (wA w) s) s
  else if wF w = 17#5 then rsvRun (decide (wD w = 0#7) && decide (wB w = 0#7)) (execLfill (wP w) (wA w) s) s
  else if wF w = 18#5 then rsvRun (decide (wB w = 0#7)) (execLtest (wP w) (wD w) (wA w) s) s
  else if wF w = 19#5 then execLwait (wP w) (wD w) (wA w) (wB w) s
  else s.illegalNow 1
theorem runVsync_eq (w : Word) (s : State) : runDecoded (decodeVsync w) s = runVsync w s := by
  unfold decodeVsync runVsync
  simp only [runDecoded_ite, runDecoded_rsv, runDecoded_ok, runDecoded_error]
  rfl

def runTens (w : Word) (s : State) : Result :=
  if wF w = 0#5 then checked (firstFail [(3, mult 2 (wD w)), (3, even (wB w))]) (execLdt4 (wP w) (wD w) (wA w) (wB w) s) s
  else if wF w = 1#5 then checked (firstFail [(3, mult 4 (wD w)), (3, even (wB w))]) (execLdt6 (wP w) (wD w) (wA w) (wB w) s) s
  else if wF w = 2#5 then checked (firstFail [(3, mult 4 (wD w)), (3, even (wB w))]) (execLdt8 (wP w) (wD w) (wA w) (wB w) s) s
  else if wF w = 3#5 then checked (firstFail [(3, mult 8 (wD w)), (3, even (wB w))]) (execLdt16 (wP w) (wD w) (wA w) (wB w) s) s
  else if wF w = 4#5 then checked (firstFail [(3, mult 16 (wD w)), (3, even (wB w))]) (execLdt32 (wP w) (wD w) (wA w) (wB w) s) s
  else if wF w = 5#5 then checked (firstFail [(3, mult 8 (wA w)), (3, even (wB w))]) (execTcpy (wP w) (wD w) (wA w) (wB w) s) s
  else if wF w = 6#5 then checked (firstFail [(3, mult 8 (wA w)), (3, even (wB w))]) (execTcpys (wP w) (wD w) (wA w) (wB w) s) s
  else if wF w = 7#5 then rsvRun (decide (wB w = 0#7)) (checked (firstFail [(3, mult 8 (wA w))]) (execTcpyv (wP w) (wD w) (wA w) s) s) s
  else if wF w = 8#5 then checked (firstFail [(3, even (wA w))]) (execShset (wP w) (wD w) (wA w) (wB w) s) s
  else if wF w = 9#5 then rsvRun (decide (wD w = 0#7) && decide (wB w = 0#7)) (execShdrop (wP w) (wA w) s) s
  else if wF w = 10#5 then execShqry (wP w) (wD w) (wA w) (wB w) s
  else s.illegalNow 1
theorem runTens_eq (w : Word) (s : State) : runDecoded (decodeTens w) s = runTens w s := by
  unfold decodeTens runTens
  simp only [runDecoded_ite, runDecoded_rsv, runDecoded_ok, runDecoded_error]
  rfl

def runMat (w : Word) (s : State) : Result :=
  if wF w = 0#5 then rsvRun (decide (wD w = 0#7) && decide (wA w = 0#7) && decide (wB w = 0#7)) (execMacq (wP w) s) s
  else if wF w = 1#5 then rsvRun (decide (wD w = 0#7) && decide (wA w = 0#7) && decide (wB w = 0#7)) (execMrel (wP w) s) s
  else if wF w = 2#5 then rsvRun (decide (wD w = 0#7) && decide (wB w = 0#7)) (execMmode (wP w) (wA w) s) s
  else if wF w = 3#5 then rsvRun (decide ((wD w).extractLsb' 3 2 = 0#2)) (checked (firstFail [(2, mult 8 (wB w))]) (execMma (wP w) ((((wD w).extractLsb' 6 1)) = 1#1) ((((wD w).extractLsb' 5 1)) = 1#1) (((wD w).extractLsb' 0 3)) (wA w) (wB w) s) s) s
  else if wF w = 4#5 then rsvRun (decide ((wD w).extractLsb' 3 2 = 0#2)) (checked (firstFail [(2, mult 8 (wB w))]) (execMloop (wP w) ((((wD w).extractLsb' 6 1)) = 1#1) ((((wD w).extractLsb' 5 1)) = 1#1) (((wD w).extractLsb' 0 3)) (wA w) (wB w) s) s) s
  else if wF w = 5#5 then rsvRun (decide ((wA w).extractLsb' 4 3 = 0#3)) (checked (firstFail [(3, mult 8 (wD w))]) (execMacc (wP w) (wD w) ((((wA w).extractLsb' 3 1)) = 1#1) (((wA w).extractLsb' 0 3)) (wB w) s) s) s
  else if wF w = 6#5 then rsvRun (decide ((wD w).extractLsb' 4 3 = 0#3)) (checked (firstFail [(3, mult 8 (wA w))]) (execMaccw (wP w) ((((wD w).extractLsb' 3 1)) = 1#1) (((wD w).extractLsb' 0 3)) (wA w) (wB w) s) s) s
  else if wF w = 7#5 then rsvRun (decide ((wD w).extractLsb' 3 4 = 0#4) && decide (wA w = 0#7) && decide (wB w = 0#7)) (execMzero (wP w) (((wD w).extractLsb' 0 3)) s) s
  else if wF w = 8#5 then rsvRun (decide (wA w = 0#7) && decide (wB w = 0#7)) (execMqry (wP w) (wD w) s) s
  else if wF w = 9#5 then rsvRun (decide (wD w = 0#7) && decide (wA w = 0#7) && decide (wB w = 0#7)) (execMwait (wP w) s) s
  else s.illegalNow 1
theorem runMat_eq (w : Word) (s : State) : runDecoded (decodeMat w) s = runMat w s := by
  unfold decodeMat runMat
  simp only [runDecoded_ite, runDecoded_rsv, runDecoded_ok, runDecoded_error]
  rfl

def runNet (w : Word) (s : State) : Result :=
  if wF w = 0#5 then rsvRun (decide (wD w = 0#7)) (checked (firstFail [(3, even (wA w))]) (execGpost (wP w) (wA w) (wB w) s) s) s
  else if wF w = 1#5 then rsvRun (decide (wB w = 0#7)) (execGcancel (wP w) (wD w) (wA w) s) s
  else if wF w = 2#5 then rsvRun (decide (wD w = 0#7)) (execGadd (wP w) (wA w) (wB w) s) s
  else if wF w = 3#5 then rsvRun (decide (wB w = 0#7)) (execGrd (wP w) (wD w) (wA w) s) s
  else if wF w = 4#5 then rsvRun (decide (wD w = 0#7)) (execGset (wP w) (wA w) (wB w) s) s
  else if wF w = 5#5 then rsvRun (decide (wD w = 0#7) && decide (wB w = 0#7)) (checked (firstFail [(3, mult 8 (wA w))]) (execRput (wP w) (wA w) s) s) s
  else if wF w = 6#5 then rsvRun (decide (wD w = 0#7) && decide (wB w = 0#7)) (checked (firstFail [(3, mult 8 (wA w))]) (execRget (wP w) (wA w) s) s) s
  else if wF w = 7#5 then rsvRun (decide (wD w = 0#7)) (execRflag (wP w) (wA w) (wB w) s) s
  else if wF w = 8#5 then rsvRun (decide (wB w = 0#7)) (checked (firstFail [(3, even (wD w))]) (execPublish (wP w) (wD w) (wA w) s) s) s
  else if wF w = 9#5 then rsvRun (decide (wB w = 0#7)) (execPubq (wP w) (wD w) (wA w) s) s
  else if wF w = 10#5 then rsvRun (decide (wD w = 0#7) && decide (wB w = 0#7)) (checked (firstFail [(3, even (wA w))]) (execTgath (wP w) (wA w) s) s) s
  else if wF w = 11#5 then rsvRun (decide (wD w = 0#7) && decide (wB w = 0#7)) (checked (firstFail [(3, even (wA w))]) (execTred (wP w) (wA w) s) s) s
  else if wF w = 12#5 then rsvRun (decide (wD w = 0#7) && decide (wB w = 0#7)) (checked (firstFail [(3, even (wA w))]) (execTcvt (wP w) (wA w) s) s) s
  else if wF w = 13#5 then rsvRun (decide (wD w = 0#7) && decide (wB w = 0#7)) (checked (firstFail [(3, even (wA w))]) (execStash (wP w) (wA w) s) s) s
  else if wF w = 14#5 then rsvRun (decide (wD w = 0#7) && decide (wB w = 0#7)) (checked (firstFail [(3, even (wA w))]) (execRestore (wP w) (wA w) s) s) s
  else s.illegalNow 1
theorem runNet_eq (w : Word) (s : State) : runDecoded (decodeNet w) s = runNet w s := by
  unfold decodeNet runNet
  simp only [runDecoded_ite, runDecoded_rsv, runDecoded_ok, runDecoded_error]
  rfl

def runWordImpl (w : Word) (s : State) : Result :=
  if wMajor w = 0#5 then runSys w s
  else if wMajor w = 1#5 then runSalu w s
  else if wMajor w = 2#5 then runSalui w s
  else if wMajor w = 3#5 then runSli w s
  else if wMajor w = 4#5 then runShi w s
  else if wMajor w = 5#5 then runBr w s
  else if wMajor w = 6#5 then runBrs w s
  else if wMajor w = 7#5 then runJmp w s
  else if wMajor w = 8#5 then runMbr w s
  else if wMajor w = 9#5 then runWctl w s
  else if wMajor w = 10#5 then runVint w s
  else if wMajor w = 11#5 then runVints w s
  else if wMajor w = 12#5 then runVf32 w s
  else if wMajor w = 13#5 then runVf64 w s
  else if wMajor w = 14#5 then runVf16 w s
  else if wMajor w = 15#5 then runVbf16 w s
  else if wMajor w = 16#5 then runVfmisc w s
  else if wMajor w = 17#5 then runVcvt w s
  else if wMajor w = 18#5 then runVxc w s
  else if wMajor w = 19#5 then runVcmp w s
  else if wMajor w = 20#5 then runVlane w s
  else if wMajor w = 21#5 then runVpack w s
  else if wMajor w = 22#5 then runVmx w s
  else if wMajor w = 23#5 then runVld w s
  else if wMajor w = 24#5 then runVst w s
  else if wMajor w = 25#5 then runVatom w s
  else if wMajor w = 26#5 then runSmem w s
  else if wMajor w = 27#5 then runVsync w s
  else if wMajor w = 28#5 then runTens w s
  else if wMajor w = 29#5 then runMat w s
  else if wMajor w = 30#5 then runNet w s
  else s.illegalNow 1

@[csimp] theorem runWord_eq_impl : @runWord = @runWordImpl := by
  funext w s
  unfold runWord decode runWordImpl
  simp only [runDecoded_ite, runDecoded_error, runSys_eq, runSalu_eq, runSalui_eq, runSli_eq, runShi_eq, runBr_eq, runBrs_eq, runJmp_eq, runMbr_eq, runWctl_eq, runVint_eq, runVints_eq, runVf32_eq, runVf64_eq, runVf16_eq, runVbf16_eq, runVfmisc_eq, runVcvt_eq, runVxc_eq, runVcmp_eq, runVlane_eq, runVpack_eq, runVmx_eq, runVld_eq, runVst_eq, runVatom_eq, runSmem_eq, runVsync_eq, runTens_eq, runMat_eq, runNet_eq]
  rfl

end Sys2Proof.Machine
end

