-- ==== Sys2Proof/Machine/Launch.lean ====
section
/-!
DEFINITION. The placing of one instruction where the machine fetches next. The Creruth has no program of its own after
reset: a context, its page tables and a kernel are loaded from outside and dispatched (DESIGN CHOICE: notes/assumptions/7.md).
-/
namespace Sys2Proof.Machine

/-! ## A machine that is about to fetch -/

/-- Slices of the compute dies on which a wave can fetch, with the physical address it fetches from. -/
def fetchPlace (s : State) (core slice : Nat) : Option Nat :=
  (nextUnit s core slice).bind fun u => (s.wave u).bind fun w =>
    if w.cancelDue.isSome || inWindow w.pc.toNat then none
    else ((s.block w.block).bind fun b => s.ctx b.ctx).bind fun x =>
      match via s x (if w.fetchDenied then [w.pc.toNat / 4096] else []) w.pc.toNat true false with
      | .ok e => some (e.phys w.pc.toNat)
      | _ => none
/-- The first such slice (8 is the forerunner engine) (DESIGN CHOICE: log entry 7). -/
def fetchSite (s : State) : Option (Nat × Nat × Nat) :=
  (((s.waves.map fun uw => (unitCore uw.1, unitSlice uw.1)).eraseDups).filter fun p => onDie p.1).findSome? fun p =>
    (fetchPlace s p.1 p.2).map fun a => (p.1, p.2, a)

def slotHappening (core slice : Nat) : Happening := if slice < 8 then .slice core slice else .fore core
/-- The word stands at a physical address, unpoisoned, and the next step is the slice's (DESIGN CHOICE: log entry 7). -/
def State.placeWord (s : State) (core slice pa : Nat) (w : Word) : State :=
  { s with
    mem := Memory.write s.mem pa (leBytes 4 w.toNat)
    poison := s.poison.put false (pa / 32) false
    agenda := slotHappening core slice :: s.agenda }

/-! ## A machine that is not -/

/-- One context in default mode on physical die 0, its level-4 table at 0x10000. -/
def loadedContext : Context :=
  { Context.none with
    nv := 1, table := [0], weight := 1, root := 0x10, faddoMax := 64, residency := .resident, keys := 1
    recs := [{ newRec 1 0x4000 0x4000 0 .running 0 with next := 1, live := 1 }] }
/-- One block of one communication wave of eight lanes in slice 0 of core 0, with 128 of each kind of register. -/
def loadedBlock (uid : Nat) : Block :=
  { uid := uid, ctx := 0, record := 1, index := 0, coord := (0, 0, 0), core := 0, slot := 0, group := uid, rank := 0
    groupSize := 1, vregs := 128, sregs := 128, scratch := 65536, data := [], side := [], fe := [], scrPoison := []
    barriers := [], dq := [], dqBase := 0, stack := [], scrRecords := [], replay := false, recAddr := 0x4000, nblocks := 1
    rsafe := false, rdir := false, lanes := 8, laneRegs := [1024, 0, 0, 0, 0, 0, 0, 0], ended := false
    horizon := 0, freed := false }
/-- The code stands at 0x20010, after its header. -/
def loadedPc : Nat := 0x20010
def loadedWave (uid block : Nat) : Wave := launchWave uid block 8 0 (BitVec.ofNat 64 loadedPc) 0 true
/-- Page tables that map the first GiB flat: level 4, level 3 and a leaf at level 2. -/
def loadedTables (m : List Host.Cell) : List Host.Cell :=
  Memory.write (Memory.write (Memory.write m 0x10000 (leBytes 8 0x11003)) 0x11000 (leBytes 8 0x12003)) 0x12000 (leBytes 8 0xD)

/-- Bring-up is done, every core dealt to itself. -/
def Boot.loaded (b : Boot) : Boot :=
  { b with step := 8, halted := none, thermal := 0, lct := (List.range 128).map fun k => (k, k % 32) }

/-- The machine with that context, block and wave loaded (DESIGN CHOICE: log entry 7). -/
def State.loaded (s : State) : State :=
  { s with
    boot := s.boot.loaded
    ctxs := s.ctxs.ins 0 loadedContext
    blocks := s.blocks.ins s.fresh (loadedBlock s.fresh)
    waves := (s.waves.keep fun u _ => 64 ≤ u).ins 0 (loadedWave (s.fresh + 1) s.fresh)
    cores := s.cores.del 0
    mem := loadedTables s.mem
    blocked := []
    fresh := s.fresh + 2 }

/-- The state with a word where the next fetch finds it (DESIGN CHOICE: log entry 7). -/
def State.withWord (s : State) (w : Word) : State :=
  match fetchSite s with
  | some (core, slice, pa) => s.placeWord core slice pa w
  | none => s.loaded.placeWord 0 0 loadedPc w

end Sys2Proof.Machine
end

