-- ==== Sys2Proof/Machine/Step.lean ====
section
/-!
DEFINITION. One step of the machine, and the placing of an instruction where it fetches.
-/
namespace Sys2Proof.Machine

/-- What follows of itself from a step that went on. At most 64 commands of each of four sessions wait. -/
def settled (r : Result) : Result :=
  match r with
  | .next s => startReady exec 256 s.settle
  | r => r

/-- One step: the next happening of the agenda, or the next of the default order, and what follows of itself
(DESIGN CHOICE: log entry 1). -/
def step (s : State) : Host.Outcome State Fault Refusal :=
  match s.agenda with
  | [] => settled (defaultMove runWord s)
  | h :: rest => settled (happen runWord exec h { s with agenda := rest })

/-- The state with the instruction of bits `w` where the next step fetches (DESIGN CHOICE: log entry 7). -/
def State.withFetchWord (s : State) (nbits w : Nat) : State := s.withWord (BitVec.ofNat 32 (w % 2 ^ nbits))

end Sys2Proof.Machine
end

