-- ==== Sys2Proof/Safety.lean ====
section
/-!
DEFINITION. The terms in which claims about the Creruth are stated: a unit that is ready to issue an instruction, what an
instruction shows in its wave, and what a safe run keeps.
-/
namespace Sys2Proof.Machine

/-! ## A unit ready to issue -/

/-- The wave that an instruction finds: where it parks, every earlier result is committed (02 R70). -/
def Wave.parked (w : Wave) (parks : Bool) : Wave := if parks then w.commit else w

/-- Whether an instruction that takes a return-buffer entry of `n` bytes parks for want of room (02 R70; 17 R368). -/
def Wave.lacksRoom (w : Wave) (n : Nat) : Bool := decide (16 ≤ w.rb.length) || decide (16384 < w.pendingBytes + n)

/-- Unit `u`, in which wave `w` of block `b` runs, is about to issue an instruction with register operands `ops`, and
nothing keeps it from issuing: where the instruction parks, every result has arrived and no deferred error is to be taken;
and in the wave as the park leaves it each operand lies in the allocation (02 R60), is written by no TCPYV under way (10
R269) and holds no poisoned element that the instruction reads (17 R376). -/
structure Ready (s : State) (u : Nat) (w : Wave) (b : Block) (parks : Bool) (ops : List Opnd) : Prop where
  current : s.cur = some u
  wave : s.wave u = some w
  block : s.block w.block = some b
  arrived : parks = true → w.arrived = true
  clean : parks = true → w.deferred = []
  inside : ∀ o ∈ ops, o.window (w.parked parks) b = none
  free : ∀ o ∈ ops, o.busy (w.parked parks) = false
  sound : ∀ o ∈ ops, o.poisoned (w.parked parks) = false

/-! ## What an instruction shows in its wave -/

/-- A register element's value (02 R69): one lane's part of a vector register, the same of a scale register, or a scalar
register. -/
def Wave.elem (w : Wave) : Elem → Word
  | .v key => w.regs.v.get 0 key
  | .e key => (w.regs.e.get 0 key).setWidth 32
  | .s n => w.getS n

/-- The changes an instruction of one wave makes: register elements, mask registers and lane generators with their new
values, exception flags set, and the program counter. -/
structure Change where
  elems : List (Elem × Word)
  masks : List (Nat × DWord)
  gens : List (Nat × Word)
  flags : FpFlags
  pc : DWord
  deriving DecidableEq, Repr

/-- The change of an instruction that sets elements and goes on to the next word. -/
def Wave.sets (w : Wave) (elems : List (Elem × Word)) : Change := ⟨elems, [], [], 0, w.pc + 4⟩

/-- Wave `w'` is `w` after exactly those changes: what the lists name has its new value, s0 reads 0, the instruction is
counted, no earlier result still to come overwrites a changed element (02 R69), changed elements are not poisoned, and
nothing else of the wave differs. -/
structure Shows (w w' : Wave) (c : Change) : Prop where
  elems : ∀ x, w'.elem x = if x = .s 0 then 0 else (c.elems.lookup x).getD (w.elem x)
  masks : ∀ n, w'.getM n = (c.masks.lookup n).getD (w.getM n)
  gens : ∀ q, w'.genOf q = (c.gens.lookup q).getD (w.genOf q)
  pc : w'.pc = c.pc
  csr : w'.csr = { w.csr with retired := w.csr.retired + 1, fsticky := w.csr.fsticky ||| c.flags }
  pending : w'.rb = w.rb.map fun en => { en with dests := en.dests.filter fun x => !(c.elems.map (·.1)).contains x }
  vPoison : w'.regs.vPoison = w.regs.vPoison.filter fun k => !(c.elems.map (·.1)).contains (.v k)
  ePoison : w'.regs.ePoison = w.regs.ePoison.filter fun k => !(c.elems.map (·.1)).contains (.e k)
  sPoison : w'.regs.sPoison = w.regs.sPoison.filter fun n => n = 0 || !(c.elems.map (·.1)).contains (.s n)
  vBusy : w'.regs.vBusy = w.regs.vBusy
  rest : { w' with regs := w.regs, csr := w.csr, pc := w.pc, rb := w.rb } = w

/-- The instruction answers a state in which exactly those changes show in wave `w` of unit `u`, and nothing else of the
machine differs (`blocked`, the note of units that could not issue, is cleared). -/
def Performs (s : State) (r : Result) (u : Nat) (w : Wave) (c : Change) : Prop :=
  ∃ w', r = .next { s.setWave u w' with blocked := [] } ∧ Shows w w' c

/-- Instruction `i` completes: in every unit that is ready for it, and whose wave as the park leaves it meets `may`, it
answers the next state in which exactly the changes `c` show. `parks` says whether the instruction parks. -/
def Completes (i : Instr) (parks : Wave → Bool) (ops : List Opnd) (may : Wave → Prop) (c : Wave → Change) : Prop :=
  ∀ (s : State) (u : Nat) (w : Wave) (b : Block), Ready s u w b (parks w) ops → may (w.parked (parks w)) →
    Performs s (exec i s) u (w.parked (parks w)) (c (w.parked (parks w)))

/-- Instruction `i` answers the next state `t` of its unit, wave (as the park leaves it) and block, in every unit that is
ready for it and in which `may` holds; the note of units that could not issue is cleared. -/
def Answers (i : Instr) (parks : Wave → Bool) (ops : List Opnd) (may : State → Nat → Wave → Block → Prop)
    (t : State → Nat → Wave → Block → State) : Prop :=
  ∀ (s : State) (u : Nat) (w : Wave) (b : Block), Ready s u w b (parks w) ops → may s u (w.parked (parks w)) b →
    exec i s = .next { t s u (w.parked (parks w)) b with blocked := [] }

/-- Instruction `i` traps with `t` in every unit that is ready for it and in which `may` holds. -/
def Raises (i : Instr) (parks : Wave → Bool) (ops : List Opnd) (may : State → Nat → Wave → Block → Prop)
    (t : State → Wave → Block → Trap) : Prop :=
  ∀ (s : State) (u : Nat) (w : Wave) (b : Block), Ready s u w b (parks w) ops → may s u (w.parked (parks w)) b →
    exec i s = .next (s.trap u (w.parked (parks w)) (t s (w.parked (parks w)) b))

/-- The wave once an acquire is complete (12 R298): a later release waits for the writes of its block's waves, which it has
observed (21 R430; log entry 86). -/
def Wave.synced (w : Wave) (s : State) : Wave := { w with seen := max w.seen (s.blockHorizon w.block) }

/-! ## Lanes -/

/-- One word in every active lane of vector register `d`. -/
def Wave.inLanes (w : Wave) (d : BitVec 7) (f : Nat → Word) : List (Elem × Word) :=
  w.active.map fun q => (.v (laneKey (w.phys d 0) q), f q)

/-- A doubleword in every active lane of the pair from `d`, its low half in the lower register (02 R62). -/
def Wave.inPairs (w : Wave) (d : BitVec 7) (f : Nat → DWord) : List (Elem × Word) :=
  w.active.flatMap fun q => [(.v (laneKey (w.phys d 0) q), (f q).extractLsb' 0 32),
    (.v (laneKey (w.phys d 1) q), (f q).extractLsb' 32 32)]

/-- A word with its scale in each lane of a list. -/
def Wave.moved (w : Wave) (d : BitVec 7) (lanes : List Nat) (f : Nat → Word × Byte) : List (Elem × Word) :=
  lanes.flatMap fun q => [(.v (laneKey (w.phys d 0) q), (f q).1), (.e (laneKey (w.phys d 0) q), (f q).2.setWidth 32)]

/-- The words of a run of registers from `d` in lane `q`. -/
def Wave.wordRun (w : Wave) (d : BitVec 7) (q : Nat) (xs : List Word) : List (Elem × Word) :=
  xs.zipIdx.map fun x => (.v (laneKey (w.phys d x.2) q), x.1)

/-- One scale in `n` scale registers from `d` in lane `q`. -/
def Wave.scaleRun (w : Wave) (d : BitVec 7) (q n : Nat) (c : Byte) : List (Elem × Word) :=
  (List.range n).map fun k => (.e (laneKey (w.phys d k) q), c.setWidth 32)

/-- The change of a floating-point instruction whose lane `q` delivers `o q`. -/
def Wave.delivers (w : Wave) (o : Nat → LaneOut (List (Elem × Word))) : Change :=
  ⟨w.active.flatMap fun q => (o q).val, [], w.active.map fun q => (q, (o q).gen),
    flagUnion (w.active.map fun q => (q, (o q).flags)), w.pc + 4⟩

/-- Exception `k` is the first enabled one that active lanes raise, in the order of 01 R31. -/
def Wave.raisesFirst (w : Wave) (flags : Nat → FpFlags) (k : Nat) : Prop :=
  w.csr.ftrapen.getLsbD k = true ∧ (∃ q ∈ w.active, (flags q).getLsbD k = true) ∧
    ∀ j < k, w.csr.ftrapen.getLsbD j = true → ∀ q ∈ w.active, (flags q).getLsbD j = false

/-- The trap of exception `k` (17 R355): its cause, and the mask of the active lanes that raised it. -/
def Wave.flagTrap (w : Wave) (flags : Nat → FpFlags) (k : Nat) : Trap :=
  let m := maskOf (w.active.map fun q => (q, (flags q).getLsbD k))
  ⟨BitVec.ofNat 8 (9 + k), m.extractLsb' 0 32, m.extractLsb' 32 32⟩

/-- A floating-point instruction (01 R30, R31): where no enabled exception is raised, every active lane delivers its result,
its generator and its flags; the first enabled exception raised is a trap, with nothing written. -/
structure Delivers (i : Instr) (p : Bool) (ops : List Opnd) (o : Wave → Nat → LaneOut (List (Elem × Word))) : Prop where
  done : Completes i (fun _ => p) ops
    (fun w => w.fore = false ∧ ∀ q ∈ w.active, (o w q).flags &&& w.csr.ftrapen = 0) fun w => w.delivers (o w)
  traps : ∀ k < 6, Raises i (fun _ => p) ops (fun _ _ w _ => w.fore = false ∧ w.raisesFirst (fun q => (o w q).flags) k)
    fun _ w _ => w.flagTrap (fun q => (o w q).flags) k

/-- An instruction with a return-buffer entry answers the state in which unit `u`'s wave has taken it, with the next sequence
number, and goes on to the next word, its lane generators as `gens` says; registers and memory are as they were. -/
def Enqueues (s : State) (r : Result) (u : Nat) (w : Wave) (en : Entry) (gens : List (Nat × Word)) : Prop :=
  ∃ w', r = .next { s.setWave u w' with fresh := s.fresh + 1, blocked := [] } ∧ w'.rb = w.rb ++ [en] ∧
    (∀ q, w'.genOf q = (gens.lookup q).getD (w.genOf q)) ∧
    { w' with rb := w.rb, regs := { w'.regs with gen := w.regs.gen } } = w.next

/-- A result that waits in the return buffer for its commit (02 R68, R70): the elements with their values. -/
def resultEntry (s : State) (w : Wave) (vals : List (Elem × Word)) (flags : FpFlags) : Entry :=
  ⟨s.fresh, w.pc, 4 * vals.length, vals.map (·.1), vals, 1, flags, false, .none⟩

/-! ## Operations on memory -/

/-- The operations that wave `w` of unit `u` issues at once, in order, each to be performed later: they are numbered on from
the next sequence number and remember the instruction and the fences before it (12 R298). -/
def State.withOps (s : State) (u : Nat) (w : Wave) (b : Block) (ks : List OpKind) : State :=
  { s with
    ops := s.ops ++ ks.zipIdx.map fun k =>
      { id := s.fresh + k.2, owner := w.uid, core := u / 64, unit := 9 * (u / 64) + unitSlice u, slot := eventSlot u w
        replay := b.replay, ctx := b.ctx, block := b.uid, key := b.record, pc := w.pc, waitLoads := w.ordLoads, waitStores := w.ordStores, parked := none, denied := []
        horizon := none, note := [], waits := [], got := [], reached := 0, epend := [], kind := k.1 }
    fresh := s.fresh + ks.length }

/-- A return-buffer entry for results that operations deliver (02 R68). -/
def pendingEntry (s : State) (w : Wave) (dests : List Elem) (bytes n : Nat) : Entry :=
  ⟨s.fresh, w.pc, bytes, dests, [], n, 0, false, .none⟩

/-- The wave with one more entry, on to the next word. -/
def Wave.awaits (w : Wave) (en : Entry) : Wave :=
  { w with rb := w.rb ++ [en], pc := w.pc + 4, csr := { w.csr with retired := w.csr.retired + 1 } }

/-! ## Commands of the host -/

/-- A command frame of an open session whose turn has come (19 R392, R394): the device is ready, the frame keeps the
header rules and its payload has the right length, it is the next in order, no earlier command waits and there is room for the answer. -/
structure Commands (s : State) (h : AqpenHeader) (ss : Session) : Prop where
  ready : s.boot.halted = none ∧ s.boot.step = 8
  session : s.sessions.find h.sess.toNat = some ss
  turn : h.seq.toNat = ss.done + 1
  header : headerOk h = true ∧ h.fits = true
  idle : ss.held = [] ∧ ss.early = [] ∧ ∀ kx ∈ s.ctxs, kx.2.preemptFor = none ∧ kx.2.destroying = none
  room : (ss.unacked.filter fun f => h.ack.toNat < f.1).length < 64

/-- The state `t` that a command of state `s` leaves, with the session as it stands once the command is taken. -/
def State.takes (s : State) (h : AqpenHeader) (ss : Session) (t : State) : State :=
  { t with
    sessions := s.sessions.ins h.sess.toNat { ss with
      done := h.seq.toNat, unacked := ss.unacked.filter fun f => h.ack.toNat < f.1 }
    blocked := [] }

/-- The response to a command: the opcode with bit 7 set, the device's next SEQ, the command's SEQ acknowledged. -/
def Session.response (ss : Session) (h : AqpenHeader) (op : Byte) (status : Nat) (p : Payload) : HostFrame :=
  .response h.sess.toNat (ss.seq + 1) h.seq.toNat (op ||| 0x80#8) status p

/-- The state `t` that a command of state `s` leaves, with its response sent: kept among the last 64, unacknowledged. -/
def State.replies (s : State) (h : AqpenHeader) (ss : Session) (op : Byte) (status : Nat) (p : Payload) (t : State) : State :=
  let f := ss.response h op status p
  { t with
    sessions := s.sessions.ins h.sess.toNat
      { done := h.seq.toNat, held := [], early := [], stored := (ss.stored ++ [(h.seq.toNat, f)]).drop (ss.stored.length + 1 - 64)
        seq := ss.seq + 1
        unacked := (ss.unacked.filter fun f => h.ack.toNat < f.1) ++ [(ss.seq + 1, s.pt, f)] }
    host := t.host ++ [f], blocked := [] }

/-- Command `i`, whose opcode is `op`, whenever its turn has come and `may` holds, answers with `status` and payload `p` and
leaves `t`. -/
def Replies (i : Instr) (h : AqpenHeader) (op : Byte) (may : State → Prop) (status : Nat) (p : State → Payload)
    (t : State → State) : Prop :=
  ∀ (s : State) (ss : Session), Commands s h ss → may s → exec i s = .next (s.replies h ss op status (p s) (t s))

/-- Context `c` is `x` and belongs to the session of the frame. -/
def State.owned (s : State) (h : AqpenHeader) (c : Nat) (x : Context) : Prop := s.ctx c = some x ∧ x.sess = h.sess.toNat

/-! ## Placing blocks -/

/-- The core on which the next block of record `r` goes, or the first core of its next group, is rink core `l` (11 R282; 10
R254): its index there is `first`, and the context's pointer is `ptr` afterwards. `room l` says that there is room from `l` on. A block to
be launched again goes to the logical core it was lost on (17 R380); in compulsory mode the index alone decides; in default
mode the first place with room, from the pointer on. -/
def Rec.goesTo (r : Rec) (x : Context) (room : Nat → Prop) (first l ptr : Nat) : Prop :=
  let g := r.img.cluster
  match r.replays with
  | (i, k) :: _ => first = i ∧ l = k ∧ ptr = x.ptr ∧ room l
  | [] => first = r.next ∧ room l ∧
    if x.compulsory then l = (if g = 1 then r.next % (32 * x.nv) else 4 * (r.next / g % (8 * x.nv))) ∧ ptr = x.ptr
    else if g = 1 then ptr = (l + 1) % (32 * x.nv) ∧
      ∃ i < 32 * x.nv, l = (x.ptr + i) % (32 * x.nv) ∧ ∀ j < i, ¬room ((x.ptr + j) % (32 * x.nv))
    else ∃ i < 8 * x.nv, ∃ o ≤ 4 - g,
      let cl (j : Nat) : Nat := (x.ptr / 4 + j) % (8 * x.nv)
      l = 4 * cl i + o ∧ ptr = 4 * (cl i + 1) % (32 * x.nv) ∧ (∀ j < i, ∀ q ≤ 4 - g, ¬room (4 * cl j + q)) ∧
        ∀ q < o, ¬room (4 * cl i + q)

/-! ## What a safe run keeps -/

/-- The memory's canonical form. -/
abbrev State.Canonical (s : State) : Prop := Memory.wf s.mem = true

/-- The form of the machine's tables: units, blocks, contexts, cluster groups and cores are listed once each, in the order of their
numbers; a block stands under its own number, which is no later one's; outstanding operations, and the accepted records of a
context, have numbers of their own (DESIGN CHOICE: log entry 20). -/
structure State.Tables (s : State) : Prop where
  waves : SMap.sorted 0 s.waves = true
  blocks : SMap.sorted 0 s.blocks = true
  ctxs : SMap.sorted 0 s.ctxs = true
  groups : SMap.sorted 0 s.groups = true
  cores : SMap.sorted 0 s.cores = true
  uids : ∀ kb ∈ s.blocks, kb.2.uid = kb.1 ∧ kb.1 < s.fresh
  ops : (s.ops.map (·.id)).Nodup ∧ ∀ o ∈ s.ops, o.id < s.fresh
  keys : ∀ kx ∈ s.ctxs, (kx.2.recs.map (·.key)).Nodup ∧ ∀ r ∈ kx.2.recs, r.key ≤ kx.2.keys

/-- One byte of physical memory. -/
def State.byteAt (s : State) (a : Nat) : Byte := Memory.byte s.mem a
/-- The little-endian word at a physical address. -/
def State.wordAt (s : State) (a : Nat) : Nat := leNat ((List.range 4).map fun i => s.byteAt (a + i))

/-- The `n` bytes at a virtual address lie in one page, unshadowed, which may be read or written as asked, at consecutive
physical addresses from `p` on. -/
def Mapped (s : State) (x : Context) (va n p : Nat) (read write : Bool) : Prop :=
  0 < n ∧ va % 4096 + n ≤ 4096 ∧ p + n ≤ 2 ^ 52 ∧ ∃ e : TlbEntry, walk s x va read write = .ok e ∧ e.shadow = none ∧
    ∀ i < n, e.phys (va + i) = p + i

/-- Physical address `y` lies in one of some ranges, each of a start and a length. -/
def InRanges (l : List (Nat × Nat)) (y : Nat) : Prop := ∃ r ∈ l, r.1 ≤ y ∧ y < r.1 + r.2

/-- No address translates otherwise once bytes of those ranges have been written: they hold no page table of the context. -/
def Untabled (s : State) (x : Context) (l : List (Nat × Nat)) : Prop :=
  ∀ m : List Host.Cell, (∀ y < 2 ^ 52, ¬InRanges l y → Memory.byte m y = s.byteAt y) →
    ∀ (va : Nat) (read write : Bool), walk { s with mem := m } x va read write = walk s x va read write

/-- Every byte outside those ranges is as before. -/
def SameOutside (s t : State) (l : List (Nat × Nat)) : Prop := ∀ y < 2 ^ 52, ¬InRanges l y → t.byteAt y = s.byteAt y

end Sys2Proof.Machine
end

