-- ==== Sys2Proof/Certificates/Slice0/Obligations.lean ====
section
/-!
DEFINITION. The statements about the Creruth, one definition each: what the numbered rules of spec/ say that an instruction
or the machine does.
-/
open Sys2Proof Sys2Proof.Machine

/-! ## Encoding and decoding -/

/-- Decode and encode agree: whatever instruction has a word, that word decodes to it, with every operand (03 R83 to R90). -/
def Obligations.DecodeEncode : Prop :=
  ∀ (i : Instr) (w : Word), encode i = some w → decode w = .ok i

/-- Five words of listings in the specification decode to the instructions the listings give (04, the image of gcdk). -/
def Obligations.DecodedWords : Prop :=
  decode 0x08409000#32 = .ok (.saddi false 8#7 9#7 0#9) ∧ decode 0x95000003#32 = .ok (.call true 3#18) ∧
  decode 0x24000004#32 = .ok (.wexit false) ∧ decode 0x1C002000#32 = .ok (.jr false 2#7) ∧
  decode 0x04508138#32 = .ok (.sremn false 10#7 8#7 9#7)

/-- 04 R122: a word is NOP exactly where it is one of two, NOP does nothing but go on, and a word of NOP's selector with
another field non-zero is illegal at check 2. A word that fails check 1, 2 or 3 of 03 R91 does not reach `exec`: the unit
traps with cause 0x01, the word, and the number of the first check that fails. -/
def Obligations.NopAndIllegalWords : Prop :=
  ((∀ (w : Word) (p : Bool), decode w = .ok (.nop p) ↔ w = if p then 0x80000000#32 else 0x00000000#32) ∧
   (∀ p : Bool, Completes (.nop p) (fun _ => p) [] (fun _ => True) fun w => w.sets []) ∧
   (∀ (p : Bool) (d a b : BitVec 7), ¬(d = 0 ∧ a = 0 ∧ b = 0) →
     decode (bit p ++ 0#5 ++ d ++ a ++ b ++ 0#5) = .error .reserved)) ∧
  (∀ (s : State) (u : Nat) (w : Wave), s.cur = some u → s.wave u = some w →
     (∀ e : Reject, decode s.ir = .error e →
       runWord s.ir s = .next (s.trap u w ⟨0x01#8, s.ir, if e = .selector then 1 else 2⟩)) ∧
     (∀ (i : Instr) (n : Nat), decode s.ir = .ok i → WellFormed.check i = some n →
       n ∈ [1, 2, 3] ∧ runWord s.ir s = .next (s.trap u w ⟨0x01#8, s.ir, BitVec.ofNat 32 n⟩)))

/-! ## A step -/

/-- A step runs the decoded instruction: where the slice (or, for `k` = 8, the forerunner engine) named by the agenda has a
unit to issue, whose wave takes no CANCEL trap and fetches a word that decodes and passes the checks of 03 R91, the step
is `exec` of the instruction at the state in which the unit has taken its slice; the slice then looks from the next slot
on, or, where the instruction could not issue, remembers the waves that yielded; and what follows of itself is settled.
The order among happenings is the model's (log entry 1). -/
def Obligations.StepRunsDecoded : Prop :=
  ∀ (s : State) (core k u : Nat) (rest : List Happening) (w : Wave) (b : Block) (x : Context) (ir : Word) (i : Instr),
    s.agenda = (if k < 8 then .slice core k else .fore core) :: rest → core < 128 → k ≤ 8 →
    nextUnit { s with agenda := rest } core k = some u →
    (State.takeSlot { s with agenda := rest } core k u).wave u = some w → w.cancelDue = none →
    (State.takeSlot { s with agenda := rest } core k u).block w.block = some b →
    (State.takeSlot { s with agenda := rest } core k u).ctx b.ctx = some x →
    fetchAt (State.takeSlot { s with agenda := rest } core k u) x w = .word ir →
    decode ir = .ok i → WellFormed.check i = none →
    step s = settled (match exec i ((State.takeSlot { s with agenda := rest } core k u).fetched u w ir) with
      | .next t =>
        if t.blocked.contains u then .next (t.setCore core { t.core core with yielded := (s.core core).yielded })
        else .next (t.setCore core { t.core core with last := (t.core core).last.put 0 k (unitSlot u + 1) })
      | r => r)

/-- An event of another agent is `exec` of that event, with no unit's instruction under way; a command frame that came before
its turn is kept (19 R394), and what follows of itself is settled; so it is after an act of the firmware, a read of a
copy's source word and the passing of package time. The order among happenings is the model's (log entry 1). -/
def Obligations.StepRunsEvent : Prop :=
  (∀ (s : State) (i : Instr) (rest : List Happening), s.agenda = .event i :: rest →
    step s = settled (match exec i { s with agenda := rest, cur := none } with
      | .next t => .next (t.fillFrames i)
      | r => r)) ∧
  (∀ (s : State) (act : FirmwareAct) (rest : List Happening), s.agenda = .firmware act :: rest →
    step s = settled (.next { State.firmware { s with agenda := rest } act with blocked := [] })) ∧
  (∀ (s : State) (id n : Nat) (rest : List Happening), s.agenda = .sourceRead id n :: rest →
    step s = settled (.next (State.sourceRead { s with agenda := rest } id n))) ∧
  ∀ (s : State) (n : Nat) (rest : List Happening), s.agenda = .tick n :: rest →
    step s = settled (.next (State.tick { s with agenda := rest } n))

/-! ## Traps -/

/-- What a trap leaves (02 R80, R81; 17 R357): the cause, the information words and the resume address are saved, MODE.HND is
set and the wave goes on at the context's handler, its earlier results committed; nothing else changes. A trap in a
handler, or in a context that has none (04 R126; 17 R358): the wave stops where it is with the new trap's values saved,
MODE.HND kept. -/
def Obligations.TrapTaken : Prop :=
  (∀ (s : State) (u : Nat) (w : Wave) (b : Block) (x : Context) (t : Trap),
     w.arrived = true → w.regs.vBusy = [] → w.deferred = [] → s.block w.block = some b → s.ctx b.ctx = some x →
     w.csr.hnd = false → x.traph ≠ 0 →
     s.trap u w t = { s.setWave u { w.commit with
       pc := x.traph, wait := .none, denied := [], fetchDenied := false, trapping := false
       csr := { w.commit.csr with
         hnd := true, trapcause := t.cause, trappc := w.pc, info0 := t.info0, info1 := t.info1 } } with blocked := [] }) ∧
  (∀ (s : State) (u : Nat) (w : Wave) (b : Block) (x : Context) (t : Trap),
     w.arrived = true → w.regs.vBusy = [] → w.deferred = [] → s.block w.block = some b → s.ctx b.ctx = some x →
     w.csr.hnd = true ∨ x.traph = 0 → x.compulsory = false → s.eventRoom (coreDie (unitCore u)) 1 = true →
     ∃ w', (s.trap u w t).wave u = some w' ∧
       w' = { w.commit with
         run := .stopped, wait := .none, denied := [], fetchDenied := false, trapping := false, evtHeld := false
         csr := { w.commit.csr with trapcause := t.cause, trappc := w.pc, info0 := t.info0, info1 := t.info1 } } ∧
       ∃ e : Event, e.cls = 2 ∧ e.sub = t.cause ∧ e.a0 = w.pc ∧ e.a1 = t.info1 ++ t.info0 ∧ e.ctx = b.ctx ∧
         ((s.trap u w t).eventQ = s.eventQ ++ [e] ∨
           ((s.trap u w t).dieEv.get DieEvents.empty (coreDie (unitCore u))).buffer =
             (s.dieEv.get DieEvents.empty (coreDie (unitCore u))).buffer ++ [e]))

/-- TRAP and BKPT (04 R123, R124) take their traps: the handler runs with cause 0x1A and c, or 0x19 and 0, and TRAPPC at the
instruction. BKPT where a debug session has claimed breakpoints (04 R124; 19 R393): the wave halts at the instruction.
That the halt saves the trap's values is the model's reading (log entry 30). -/
def Obligations.TrapInstructions : Prop :=
  (∀ (p : Bool) (c : BitVec 14) (i : Instr) (t : Trap),
     (i, t) ∈ [(Instr.trap p c, (⟨0x1A#8, c.setWidth 32, 0⟩ : Trap)), (.bkpt p, ⟨0x19#8, 0, 0⟩)] →
     ∀ (s : State) (u : Nat) (w : Wave) (b : Block) (x : Context), Ready s u w b true [] →
       s.ctx b.ctx = some x → x.debugClaim = false → w.csr.hnd = false → x.traph ≠ 0 → w.regs.vBusy = [] →
       exec i s = .next { s.setWave u { w.commit with
         pc := x.traph, wait := .none, denied := [], fetchDenied := false, trapping := false
         csr := { w.commit.csr with
           hnd := true, trapcause := t.cause, trappc := w.pc, info0 := t.info0, info1 := t.info1 } } with blocked := [] }) ∧
  (∀ (p : Bool) (s : State) (u : Nat) (w : Wave) (b : Block) (x : Context), Ready s u w b true [] →
     s.ctx b.ctx = some x → x.debugClaim = true → x.compulsory = false →
     exec (.bkpt p) s = .next { s.setWave u { w.commit with
       run := .halted
       csr := { w.commit.csr with trapcause := 0x19, trappc := w.pc, info0 := 0, info1 := 0 } } with blocked := [] })

/-- ERET (04 R125): its word, of which a resume choice above 1 is illegal at check 2; MODE.HND clears and the wave goes on at
TRAPPC, or one instruction after it, and nothing else changes; outside the handler it is illegal, at check 4 of 03 R91.
That a resume choice above 1 fails check 2 is the model's reading (log entry 10). -/
def Obligations.EretReturns : Prop :=
  ∀ (p : Bool) (a : BitVec 7) (s : State) (u : Nat) (w : Wave) (b : Block), Ready s u w b true [] →
    (w.csr.hnd = true → exec (.eret p a) s = .next { s.setWave u { w.commit with
      pc := w.csr.trappc + BitVec.ofNat 64 (4 * a.toNat)
      csr := { w.commit.csr with hnd := false, retired := w.csr.retired + 1 } } with blocked := [] }) ∧
    (w.csr.hnd = false → exec (.eret p a) s = .next (s.trap u w.commit ⟨0x01#8, s.ir, 4⟩)) ∧
    encode (.eret p a) = some (bit p ++ 0#5 ++ 0#7 ++ a ++ 0#7 ++ 2#5) ∧
    WellFormed.check (.eret p a) = (if 1 < a.toNat then some 2 else none)

/-! ## Scalar instructions -/

/-- SALU over words (04 R104). SCLZ and SPOPC (04 R104). SADD64 and SSUB64 over pairs, low word in the lower register (04
R104; 02 R62). SALUI (04 R106). The shift amounts are the five bits that a well-formed word has. -/
def Obligations.ScalarArithmetic : Prop :=
  (∀ (p : Bool) (d a b : BitVec 7), ∀ e ∈ ([
     (.sadd p d a b, fun x y => x + y), (.ssub p d a b, fun x y => x - y), (.smul p d a b, fun x y => x * y),
     (.smulhs p d a b, fun x y => BitVec.ofInt 32 (x.toInt * y.toInt / 2 ^ 32)),
     (.smulhn p d a b, fun x y => BitVec.ofNat 32 (x.toNat * y.toNat / 2 ^ 32)),
     (.sand p d a b, fun x y => x &&& y), (.sor p d a b, fun x y => x ||| y), (.sxor p d a b, fun x y => x ^^^ y),
     (.sshl p d a b, fun x y => x <<< (y.toNat % 32)), (.sshr p d a b, fun x y => x >>> (y.toNat % 32)),
     (.ssra p d a b, fun x y => BitVec.ofInt 32 (x.toInt / 2 ^ (y.toNat % 32))),
     (.smins p d a b, fun x y => if x.toInt ≤ y.toInt then x else y),
     (.smaxs p d a b, fun x y => if x.toInt ≥ y.toInt then x else y),
     (.sslts p d a b, fun x y => if x.toInt < y.toInt then 1 else 0),
     (.ssltn p d a b, fun x y => if x.toNat < y.toNat then 1 else 0),
     (.sseq p d a b, fun x y => if x = y then 1 else 0), (.ssne p d a b, fun x y => if x ≠ y then 1 else 0),
     (.sdivn p d a b, fun x y => if y = 0 then 0xFFFFFFFF#32 else BitVec.ofNat 32 (x.toNat / y.toNat)),
     (.sremn p d a b, fun x y => if y = 0 then x else BitVec.ofNat 32 (x.toNat % y.toNat))] :
       List (Instr × (Word → Word → Word))),
     Completes e.1 (fun _ => p) [.sd d 1, .ss a 1, .ss b 1] (fun _ => True) fun w =>
       w.sets [(.s d.toNat, e.2 (w.rdS a) (w.rdS b))]) ∧
  (∀ (p : Bool) (d a : BitVec 7), ∀ e ∈ ([
     (.sclz p d a, fun x => ((List.range 32).reverse.takeWhile fun k => !x.getLsbD k).length),
     (.spopc p d a, fun x => ((List.range 32).filter fun k => x.getLsbD k).length)] : List (Instr × (Word → Nat))),
     Completes e.1 (fun _ => p) [.sd d 1, .ss a 1] (fun _ => True) fun w =>
       w.sets [(.s d.toNat, BitVec.ofNat 32 (e.2 (w.rdS a)))]) ∧
  (∀ (p : Bool) (d a b : BitVec 7), ∀ e ∈ ([
     (.sadd64 p d a b, fun x y => x + y), (.ssub64 p d a b, fun x y => x - y)] : List (Instr × (Nat → Nat → Nat)) ),
     Completes e.1 (fun _ => p) [.sd d 2, .ss a 2, .ss b 2] (fun _ => True) fun w =>
       let pair (r : BitVec 7) : Nat := (w.getS r.toNat).toNat + 2 ^ 32 * (w.getS (r.toNat + 1)).toNat
       let z := e.2 (pair a + 2 ^ 64) (pair b)
       w.sets [(.s d.toNat, BitVec.ofNat 32 z), (.s (d.toNat + 1), BitVec.ofNat 32 (z / 2 ^ 32))]) ∧
  (∀ (p : Bool) (d a : BitVec 7) (i : BitVec 9) (n : BitVec 5), ∀ e ∈ ([
     (.saddi p d a i, fun x => x + i.signExtend 32), (.sandi p d a i, fun x => x &&& i.setWidth 32),
     (.sori p d a i, fun x => x ||| i.setWidth 32), (.sxori p d a i, fun x => x ^^^ i.setWidth 32),
     (.sshli p d a n, fun x => x <<< n.toNat), (.sshri p d a n, fun x => x >>> n.toNat),
     (.ssrai p d a n, fun x => BitVec.ofInt 32 (x.toInt / 2 ^ n.toNat)),
     (.sslti p d a i, fun x => if x.toInt < i.toInt then 1 else 0)] : List (Instr × (Word → Word))),
     Completes e.1 (fun _ => p) [.sd d 1, .ss a 1] (fun _ => True) fun w => w.sets [(.s d.toNat, e.2 (w.rdS a))])

/-- SBFE, SBINS and SSEL (04 R105): the field that the control word y names has k bits from bit off up. -/
def Obligations.ScalarFields : Prop :=
  ∀ (p : Bool) (d a b : BitVec 7), ∀ e ∈ ([
    (.sbfe p d a b, fun _ x y =>
      let off := y.toNat % 32
      let k := min (min (y.toNat / 2 ^ 8 % 64) 32) (32 - off)
      let f := x.toNat / 2 ^ off % 2 ^ k
      if k = 0 then 0
      else if y.getLsbD 16 ∧ f / 2 ^ (k - 1) = 1 then BitVec.ofInt 32 (f - 2 ^ k) else BitVec.ofNat 32 f),
    (.sbins p d a b, fun z x y =>
      let off := y.toNat % 32
      let k := min (min (y.toNat / 2 ^ 8 % 64) 32) (32 - off)
      let mask := BitVec.ofNat 32 ((2 ^ k - 1) * 2 ^ off)
      if k = 0 then z else (z &&& ~~~mask) ||| ((x <<< off) &&& mask)),
    (.ssel p d a b, fun z x y => if z ≠ 0 then x else y)] : List (Instr × (Word → Word → Word → Word))),
    Completes e.1 (fun _ => p) [.ss d 1, .ss a 1, .ss b 1] (fun _ => True) fun w =>
      w.sets [(.s d.toNat, e.2 (w.rdS d) (w.rdS a) (w.rdS b))]

/-- SLI and SHI (04 R107): their words, what they write, and that SLI then SHI with the same destination yields the second's
19 bits over the first's low 13, so that every word can be had. -/
def Obligations.LoadImmediates : Prop :=
  ∀ (p : Bool) (d : BitVec 7) (i : BitVec 19),
    encode (.sli p d i) = some (bit p ++ 3#5 ++ d ++ i) ∧ encode (.shi p d i) = some (bit p ++ 4#5 ++ d ++ i) ∧
    Completes (.sli p d i) (fun _ => p) [.sd d 1] (fun _ => True) (fun w => w.sets [(.s d.toNat, i.signExtend 32)]) ∧
    Completes (.shi p d i) (fun _ => p) [.ss d 1] (fun _ => True)
      (fun w => w.sets [(.s d.toNat, (w.rdS d &&& 0x00001FFF#32) ||| (i.setWidth 32 <<< 13))]) ∧
    ∀ v : Word, ∃ lo hi : BitVec 19, (lo.signExtend 32 &&& 0x00001FFF#32) ||| (hi.setWidth 32 <<< 13) = v

/-! ## Branches and jumps -/

/-- BR (04 R108 to R110): the target is the signed offset in words from the branch, and CALL links in s2:s3. In the forerunner
BRANY, BRALL and BRNONE are illegal (04 R116). BRS (04 R111): the words, the conditions on the signed register, the
target. -/
def Obligations.Branches : Prop :=
  (∀ (p : Bool) (k : BitVec 4) (o : BitVec 18),
     (∀ e ∈ ([
       (.bra p o, fun _ => True), (.brany p k o, fun w => w.getM k.toNat &&& w.m0 ≠ 0),
       (.brall p k o, fun w => w.m0 ≠ 0 ∧ w.getM k.toNat &&& w.m0 = w.m0),
       (.brnone p k o, fun w => w.getM k.toNat &&& w.m0 = 0)] : List (Instr × (Wave → Prop))),
       ∀ taken : Bool, Completes e.1 (fun _ => p) [] (fun w => w.fore = false ∧ (taken = true ↔ e.2 w)) fun w =>
         ⟨[], [], [], 0, if taken then w.pc + 4 * o.signExtend 64 else w.pc + 4⟩) ∧
     (∀ i ∈ ([.brany p k o, .brall p k o, .brnone p k o] : List Instr), ∀ (s : State) (u : Nat) (w : Wave) (b : Block),
       Ready s u w b p [] → w.fore = true → exec i s = .next (s.trap u (w.parked p) ⟨0x01#8, s.ir, 4⟩)) ∧
     Completes (.bra p o) (fun _ => p) [] (fun _ => True) (fun w => ⟨[], [], [], 0, w.pc + 4 * o.signExtend 64⟩) ∧
     Completes (.call p o) (fun _ => p) [] (fun _ => True) fun w =>
       ⟨[(.s 2, (w.pc + 4).extractLsb' 0 32), (.s 3, (w.pc + 4).extractLsb' 32 32)], [], [], 0, w.pc + 4 * o.signExtend 64⟩) ∧
  (∀ (p : Bool) (r : BitVec 7) (o : BitVec 16), ∀ e ∈ ([
     (.beqz p r o, 0#3, fun v => v = 0), (.bnez p r o, 1#3, fun v => v ≠ 0), (.bltz p r o, 2#3, fun v => v < 0),
     (.bgez p r o, 3#3, fun v => v ≥ 0), (.bgtz p r o, 4#3, fun v => v > 0), (.blez p r o, 5#3, fun v => v ≤ 0)] :
       List (Instr × BitVec 3 × (Int → Prop))),
     encode e.1 = some (bit p ++ 6#5 ++ r ++ e.2.1 ++ o) ∧
     ∀ taken : Bool, Completes e.1 (fun _ => p) [.ss r 1] (fun w => taken = true ↔ e.2.2 (w.rdS r).toInt) fun w =>
       ⟨[], [], [], 0, if taken then w.pc + 4 * o.signExtend 64 else w.pc + 4⟩)

/-- JR and JALR (04 R112): the jump reads its target first, JALR then links; a target that is no multiple of 4 raises MISALIGN
with nothing written. -/
def Obligations.Jumps : Prop :=
  ∀ (p : Bool) (d a : BitVec 7),
    encode (.jr p a) = some (bit p ++ 7#5 ++ 0#7 ++ a ++ 0#7 ++ 0#5) ∧
    encode (.jalr p d a) = some (bit p ++ 7#5 ++ d ++ a ++ 0#7 ++ 1#5) ∧
    Completes (.jr p a) (fun _ => p) [.ss a 2] (fun w => (w.rdS64 a).toNat % 4 = 0)
      (fun w => ⟨[], [], [], 0, w.rdS64 a⟩) ∧
    Completes (.jalr p d a) (fun _ => p) [.sd d 2, .ss a 2] (fun w => (w.rdS64 a).toNat % 4 = 0)
      (fun w => ⟨[(.s d.toNat, (w.pc + 4).extractLsb' 0 32), (.s (d.toNat + 1), (w.pc + 4).extractLsb' 32 32)], [], [], 0,
        w.rdS64 a⟩) ∧
    ∀ i ∈ ([.jr p a, .jalr p d a] : List Instr), ∀ (s : State) (u : Nat) (w : Wave) (b : Block),
      Ready s u w b p [.sd d 2, .ss a 2] → ((w.parked p).rdS64 a).toNat % 4 ≠ 0 →
      ∃ info0 info1, exec i s = .next (s.trap u (w.parked p) ⟨0x03#8, info0, info1⟩)

/-! ## Control and status registers -/

/-- CSRR of a register with fixed latency (02 R65; 04 R128, R130): what each index reads, in a wave and in a forerunner
context. CSRR of RHZ's low word also latches the high word (02 R66). CSRR of CLOCK and RETIRED (02 R66 to R68; 04 R128)
takes a return-buffer entry for the scalar register, whose value is sampled when the read is performed: the count before
this instruction, or package time, which in compulsory mode is that count. -/
def Obligations.ControlReads : Prop :=
  (∀ (p : Bool) (d : BitVec 7), ∀ e ∈ ([
     (0x000, fun w _ _ _ => if w.fore then 0 else BitVec.ofNat 32 (w.first / w.width)),
     (0x001, fun w _ _ _ => if w.fore then 0 else BitVec.ofNat 32 w.csr.wpart),
     (0x002, fun w _ _ _ => if w.fore then 0 else BitVec.ofNat 32 w.width),
     (0x003, fun w _ _ _ => match w.active with | q :: _ => BitVec.ofNat 32 (w.lanes.getD q 0) | [] => 0xFFFFFFFF#32),
     (0x004, fun _ b _ _ => b.coord.1), (0x005, fun _ b _ _ => b.coord.2.1), (0x006, fun _ b _ _ => b.coord.2.2),
     (0x007, fun _ b _ _ => b.nblocks),
     (0x008, fun _ b _ _ => b.recAddr.extractLsb' 0 32), (0x009, fun _ b _ _ => b.recAddr.extractLsb' 32 32),
     (0x00A, fun _ _ x u => BitVec.ofNat 32 (32 * x.vdOf (u / 64 / 32) + u / 64 % 32)),
     (0x00B, fun _ _ _ u => BitVec.ofNat 32 (u / 64 % 32 / 4)), (0x00C, fun _ _ x u => BitVec.ofNat 32 (x.vdOf (u / 64 / 32))),
     (0x00D, fun _ _ x _ => BitVec.ofNat 32 x.nv), (0x015, fun w _ _ _ => w.csr.rhzHi),
     (0x020, fun w _ _ _ => w.csr.fsticky.setWidth 32), (0x021, fun w _ _ _ => w.csr.ftrapen.setWidth 32),
     (0x022, fun w _ _ _ => w.csr.seed), (0x023, fun w _ _ _ => w.csr.cza.setWidth 32),
     (0x024, fun w _ _ _ => w.csr.czb.setWidth 32), (0x025, fun w _ _ _ => w.csr.zpair.setWidth 32),
     (0x026, fun w _ _ _ => if w.fore then 0 else BitVec.ofNat 32 w.csr.winbase),
     (0x027, fun w b x _ => 0#25 ++ bit w.cpt ++ bit w.csr.hnd ++ bit w.fore ++ bit (w.csr.comm && !w.fore) ++ bit b.rdir
       ++ bit b.rsafe ++ bit x.compulsory),
     (0x030, fun w _ _ _ => w.csr.trapcause.setWidth 32), (0x031, fun w _ _ _ => w.csr.trappc.extractLsb' 0 32),
     (0x032, fun w _ _ _ => w.csr.trappc.extractLsb' 32 32), (0x033, fun w _ _ _ => w.csr.info0),
     (0x034, fun w _ _ _ => w.csr.info1)] : List (BitVec 14 × (Wave → Block → Context → Nat → Word))),
     ∀ (s : State) (u : Nat) (w : Wave) (b : Block) (x : Context), Ready s u w b p [.sd d 1] → s.ctx b.ctx = some x →
       Performs s (exec (.csrr p d e.1) s) u (w.parked p) ((w.parked p).sets [(.s d.toNat, e.2 (w.parked p) b x u)])) ∧
  (∀ (p : Bool) (d : BitVec 7) (s : State) (u : Nat) (w : Wave) (b : Block) (x : Context),
     Ready s u w b p [.sd d 1] → s.ctx b.ctx = some x →
     Performs s (exec (.csrr p d 0x014) s) u
       { w.parked p with csr := { (w.parked p).csr with rhzHi := BitVec.ofNat 32 ((w.parked p).csr.rhz / 2 ^ 32) } }
       ((w.parked p).sets [(.s d.toNat, BitVec.ofNat 32 (w.parked p).csr.rhz)])) ∧
  (∀ (p : Bool) (d : BitVec 7), ∀ e ∈ ([
     (0x010, fun w cmp => if cmp then .countLo w.csr.retired else .clockLo), (0x011, fun _ _ => .clockHi),
     (0x012, fun w _ => .retiredLo w.csr.retired), (0x013, fun _ _ => .retiredHi)] : List (BitVec 14 × (Wave → Bool → Sample))),
     Answers (.csrr p d e.1) (fun w => p || w.lacksRoom 4) [.sd d 1] (fun s _ _ b => (s.ctx b.ctx).isSome)
       fun s u w b =>
         { s.setWave u { w with
             rb := w.rb ++ [⟨s.fresh, w.pc, 4, [.s d.toNat], [], 1, 0, false, e.2 w (s.cmp b)⟩]
             pc := w.pc + 4, csr := { w.csr with retired := w.csr.retired + 1 } } with fresh := s.fresh + 1 })

/-- CSRW, CSRS and CSRC of the writable registers but SEED (02 R65; 01 R33, R34; 04 R128): the new value from the old one and
S[d], its reserved bits discarded. A write of SEED reseeds the generator of every lane, active or not, from the register's
new value (01 R26). A CSR index that is not in the map, and a write of one that is read-only, are illegal at check 6 (02
R65). WBASE moves the window (04 R119); a base at or beyond the allocation raises WINDOW, and it is illegal in a
forerunner or a compacted path wave (04 R116). -/
def Obligations.ControlWrites : Prop :=
  (∀ (p : Bool) (d : BitVec 7), ∀ e ∈ ([
     (0x020, fun w => w.csr.fsticky.setWidth 32, fun w x => { w with csr := { w.csr with fsticky := x.extractLsb' 0 6 } }),
     (0x021, fun w => w.csr.ftrapen.setWidth 32, fun w x => { w with csr := { w.csr with ftrapen := x.extractLsb' 0 6 } }),
     (0x023, fun w => w.csr.cza.setWidth 32, fun w x => { w with csr := { w.csr with cza := x.extractLsb' 0 8 } }),
     (0x024, fun w => w.csr.czb.setWidth 32, fun w x => { w with csr := { w.csr with czb := x.extractLsb' 0 8 } }),
     (0x025, fun w => w.csr.zpair.setWidth 32, fun w x => { w with csr := { w.csr with zpair := x.extractLsb' 0 16 } })] :
       List (BitVec 14 × (Wave → Word) × (Wave → Word → Wave))),
     ∀ f ∈ ([(.csrw p d e.1, fun _ v => v), (.csrs p d e.1, fun o v => o ||| v), (.csrc p d e.1, fun o v => o &&& ~~~v)] :
       List (Instr × (Word → Word → Word))),
       Answers f.1 (fun _ => p) [.ss d 1] (fun _ _ _ _ => True) fun s u w _ =>
         s.setWave u { e.2.2 w (f.2 (e.2.1 w) (w.rdS d)) with
           pc := w.pc + 4
           csr := { (e.2.2 w (f.2 (e.2.1 w) (w.rdS d))).csr with retired := w.csr.retired + 1 } }) ∧
  (∀ (p : Bool) (d : BitVec 7),
     ∀ f ∈ ([(.csrw p d 0x022, fun _ v => v), (.csrs p d 0x022, fun o v => o ||| v), (.csrc p d 0x022, fun o v => o &&& ~~~v)] :
       List (Instr × (Word → Word → Word))),
     ∀ (s : State) (u : Nat) (w : Wave) (b : Block), Ready s u w b p [.ss d 1] →
       let seed := f.2 (w.parked p).csr.seed ((w.parked p).rdS d)
       let start (q : Nat) : Word := seed + BitVec.ofNat 32 ((q + 1) * 0x9E3779B9)
       Performs s (exec f.1 s) u { w.parked p with csr := { (w.parked p).csr with seed := seed } }
         { (w.parked p).sets [] with gens :=
             (List.range w.lanes.length).map fun k =>
               (k, if start (w.lanes.getD k 0) = 0 then 0x9E3779B9#32 else start (w.lanes.getD k 0)) }) ∧
  (∀ (p : Bool) (d : BitVec 7) (i : BitVec 14),
     (i.toNat ∉ (List.range 14).map (· + 0x000) ++ (List.range 6).map (· + 0x010) ++ (List.range 8).map (· + 0x020)
         ++ (List.range 5).map (· + 0x030) →
       Raises (.csrr p d i) (fun _ => p) [.sd d 1] (fun s _ _ b => (s.ctx b.ctx).isSome)
         fun s _ _ => ⟨0x01#8, s.ir, 6⟩) ∧
     (i.toNat ∉ (List.range 6).map (· + 0x020) →
       ∀ e ∈ ([.csrw p d i, .csrs p d i, .csrc p d i] : List Instr),
         Raises e (fun _ => p) [.ss d 1] (fun _ _ _ _ => True) fun s _ _ => ⟨0x01#8, s.ir, 6⟩)) ∧
  (∀ (p : Bool) (n : BitVec 5),
     Answers (.wbase p n) (fun _ => true) [] (fun _ _ w b => (w.fore || w.cpt) = false ∧ 8 * n.toNat < b.vregs)
       (fun s u w _ => s.setWave u { w with
         pc := w.pc + 4, csr := { w.csr with winbase := 8 * n.toNat, retired := w.csr.retired + 1 } }) ∧
     Raises (.wbase p n) (fun _ => true) [] (fun _ _ w b => (w.fore || w.cpt) = false ∧ b.vregs ≤ 8 * n.toNat)
       (fun s _ _ => ⟨0x02#8, s.ir, BitVec.ofNat 32 (8 * n.toNat)⟩) ∧
     Raises (.wbase p n) (fun _ => true) [] (fun _ _ w _ => (w.fore || w.cpt) = true) (fun s _ _ => ⟨0x01#8, s.ir, 4⟩))

/-! ## Waiting, yielding and lanes -/

/-- SLEEP in default mode waits until package time has advanced by S[a], from the instruction after it; with 0 it does not
wait (04 R127). A sleeping wave wakes once package time has reached its deadline; before, nothing changes (04 R127).
YIELD, and SLEEP in compulsory mode (04 R120, R127): the wave goes on, and in default mode its slice's next choice passes
it over where another of its waves is ready. -/
def Obligations.SleepAndYield : Prop :=
  (∀ (p : Bool) (a : BitVec 7),
     Answers (.sleep p a) (fun _ => p) [.ss a 1] (fun s _ _ b => s.cmp b = false) fun s u w _ =>
       s.setWave u { w with
         pc := w.pc + 4, csr := { w.csr with retired := w.csr.retired + 1 }
         wait := if w.rdS a = 0 then w.wait else .sleep (s.pt + (w.rdS a).toNat) }) ∧
  (∀ (s : State) (u : Nat) (w : Wave) (t : Nat), s.wave u = some w → w.wait = .sleep t → s.runs (u / 64) = true →
     exec (.sleepWake u) s =
       .next (if t ≤ s.pt then { s.setWave u { w with wait := .none } with blocked := [] } else s)) ∧
  (∀ (p : Bool) (a : BitVec 7),
     Answers (.yield p) (fun _ => p) [] (fun s _ _ b => s.cmp b = false) (fun s u w _ =>
       (s.setWave u { w with pc := w.pc + 4, csr := { w.csr with retired := w.csr.retired + 1 } }).setCore (u / 64)
         { s.core (u / 64) with yielded := (s.core (u / 64)).yielded.put 0 (unitSlice u) w.uid }) ∧
     Answers (.yield p) (fun _ => p) [] (fun s _ _ b => s.cmp b = true) (fun s u w _ =>
       (s.setWave u { w with pc := w.pc + 4, csr := { w.csr with retired := w.csr.retired + 1 } }).passTurn u w true) ∧
     Answers (.sleep p a) (fun _ => p) [.ss a 1] (fun s _ _ b => s.cmp b = true) (fun s u w _ =>
       (s.setWave u { w with pc := w.pc + 4, csr := { w.csr with retired := w.csr.retired + 1 } }).passTurn u w true) ∧
     ∀ (s : State) (u v core k : Nat) (c c' : Cand), s.boot.thermal ≠ 110 →
       (∀ m ∈ sliceCands s core k, m.trapDue s = false ∧ m.comp = false) →
       c ∈ sliceCands s core k → c.ready s = true → (s.core core).yielded.find k = some c.wave.uid →
       c' ∈ sliceCands s core k → c'.ready s = true → c'.wave.uid ≠ c.wave.uid → c.unit = u →
       nextUnit s core k = some v → v ≠ u)

/-- WEXIT where lanes are left (02 R75): the active lanes leave m0 for good and the wave goes on. WEXIT where no lane is left
(02 R75): the last wave of a block gives up its slot; no slot fills by it and memory is as it was. WSPLIT (02 R79): part i
takes positions i × T to i × T + T − 1 with their registers, keeps the scalar registers and goes on at the next word; part
0 keeps the slot, the others take the slice's lowest free slots. Said of a wave that has as many lanes as its width, in
whose parts and beside whom no wave is without a live lane, while none waits at WFUSE. -/
def Obligations.LanesLeaveAndSplit : Prop :=
  (∀ (p : Bool),
     Answers (.wexit p) (fun _ => true) [] (fun _ _ w _ => w.fore = false ∧ w.regs.vBusy = [] ∧
         ∃ k < w.lanes.length, k < 64 ∧ (w.exited ||| w.m0).getLsbD k = false) fun s u w _ =>
       s.setWave u { w with
         exited := w.exited ||| w.m0, regs := { w.regs with m := w.regs.m.put 0 0 0 }
         pc := w.pc + 4, csr := { w.csr with retired := w.csr.retired + 1 } }) ∧
  (∀ (p : Bool) (s : State) (u : Nat) (w : Wave) (b : Block), Ready s u w b true [] → w.fore = false → w.cpt = false →
     w.regs.vBusy = [] → (∀ k < w.lanes.length, k < 64 → (w.exited ||| w.commit.m0).getLsbD k = true) →
     (s.mat (u / 64)).queue = [] → b.stack = [] → (∀ uw ∈ s.waves, uw.2.block = w.block → uw.1 = u) →
     ∃ t, exec (.wexit p) s = .next t ∧ t.wave u = none ∧ t.mem = s.mem ∧ ∀ v, s.wave v = none → t.wave v = none) ∧
  (∀ (p : Bool) (n : BitVec 7) (s : State) (u : Nat) (w : Wave) (b : Block), Ready s u w b true [] →
     w.fore = false → w.cpt = false → w.csr.hnd = false → w.regs.vBusy = [] →
     (w.width / n.toNat = 2 ∨ w.width / n.toNat = 4) →
     w.width / n.toNat ≤ (s.freeSlots (u / 64) (unitSlice u)).length + 1 →
     w.lanes.length = w.width → w.width ≤ 64 → SMap.sorted 0 w.commit.regs.v = true →
     (∀ i < w.width / n.toNat, ∃ k < n.toNat, w.exited.getLsbD (i * n.toNat + k) = false) →
     (∀ uw ∈ s.waves, (uw.1 = u → uw.2 = w) ∧ (uw.1 ≠ u → uw.2.dead = false) ∧ ∀ T, uw.2.wait ≠ .wfuse T) →
     ∃ t, exec (.wsplit p n) s = .next t ∧ t.mem = s.mem ∧
       ∀ i < w.width / n.toNat, ∀ v,
         (u :: s.freeSlots (u / 64) (unitSlice u))[i]? = some v →
         ∃ w', t.wave v = some w' ∧ w'.width = n.toNat ∧ w'.lanes = (w.lanes.drop (i * n.toNat)).take n.toNat ∧
           w'.first = w.first + i * n.toNat ∧ w'.pc = w.pc + 4 ∧ w'.csr.wpart = i ∧
           w'.csr.comm = (w.csr.comm && decide (i = 0)) ∧ w'.csr.retired = w.csr.retired + 1 ∧
           w'.regs.s = w.commit.regs.s ∧
           (∀ r k, k < n.toNat → w'.getV r k = w.commit.getV r (i * n.toNat + k)) ∧
           ∀ m < 16, ∀ k < n.toNat, (w'.getM m).getLsbD k = (w.commit.getM m).getLsbD (i * n.toNat + k))

/-! ## Barriers -/

/-- BARA and BARS arriving where the phase does not complete (06 R176): the barrier counts the arrival with its expected
count, the wave's tag is the phase it joined, and BARS waits, which in compulsory mode passes the slice on. The arrival
that completes a phase (06 R176, R177): the barrier flips and counts from 0 again, the arriving wave goes on, and every
wave of the block that waits at BARS or BARW for this barrier goes on after its instruction, BARW's result being 1; one
whose timeout is over waits for its result 0 (log entry 31). BARRIER_MISUSE (06 R176; 10 R257, R258; 17 R355): an arrival
whose count is above the limit, of a wave that has joined the phase already, or whose count is not that of the phase's
first arrival; BARW and CBARW of a wave that has joined no phase. TRAPINFO1 is the named barrier's number, and 0 for a
cluster's barrier. The arrival at a cluster's barrier that completes its phase (10 R257, R258): the barrier flips and
counts from 0 again, the arriving wave goes on, and the waves of the group's blocks that wait at CBARW go on with result
1, their timeouts not over; waves of other groups are as they were. BARW (06 R176): where the phase that the wave joined
has completed, the result is 1 at once; else, in default mode with timeout 0, the result is 0 at once; else the wave
waits, without limit for the timeout of all ones and in compulsory mode. CBARA and CBARW in a block of a cluster launch
(10 R257, R258), as BARA and BARW at the group's barrier; elsewhere they are illegal at check 4. -/
def Obligations.Barriers : Prop :=
  (∀ (p : Bool) (a b : BitVec 7),
     let joined (w : Wave) (blk : Block) : Block :=
       let r := blk.barriers.get Barrier.launch b.toNat
       { blk with barriers := blk.barriers.put Barrier.launch b.toNat ⟨(w.rdS a).toNat, r.arrivals + 1, r.phase⟩ }
     let tagged (w : Wave) (blk : Block) : Wave :=
       { w with tags := (List.range 8).map fun i =>
           if i = b.toNat then some (blk.barriers.get Barrier.launch b.toNat).phase else w.tags.getD i none }
     let short (t : State) (w : Wave) (blk : Block) : Prop :=
       (blk.barriers.get Barrier.launch b.toNat).arrivals + 1 <
         if (w.rdS a).toNat = 0 then (t.liveWaves blk).length else (w.rdS a).toNat
     let may (s : State) (u : Nat) (w : Wave) (blk : Block) : Prop :=
       let r := blk.barriers.get Barrier.launch b.toNat
       (w.fore || w.cpt) = false ∧ arriveHolds s u w blk = false ∧ (w.rdS a).toNat ≤ 2048 ∧
         w.tags.getD b.toNat none ≠ some r.phase ∧ (r.arrivals = 0 ∨ (w.rdS a).toNat = r.expected)
     (∀ t : State → Nat → Wave → Block → State,
       (t = fun s u w blk => (s.setWave u (tagged w blk).next).setBlock (joined w blk)) →
       Answers (.bara p a b) (fun _ => p) [.ss a 1] (fun s u w blk => may s u w blk ∧ short (t s u w blk) w (joined w blk)) t) ∧
     (∀ t : State → Nat → Wave → Block → State,
       (t = fun s u w blk =>
         ((s.setWave u { tagged w blk with wait := .bars b.toNat, word := s.ir }).setBlock (joined w blk)).passTurn u w false) →
       Answers (.bars p a b) (fun _ => p) [.ss a 1]
         (fun s u w blk => may s u w blk ∧ short (t s u w blk) w (joined w blk)) t)) ∧
  (∀ (p : Bool) (a b : BitVec 7), ∀ i ∈ ([.bars p a b, .bara p a b] : List Instr),
     ∀ (s : State) (u : Nat) (w : Wave) (blk : Block), Ready s u w blk p [.ss a 1] →
       let v := w.parked p
       let c := (v.rdS a).toNat
       let r := blk.barriers.get Barrier.launch b.toNat
       (v.fore || v.cpt) = false → arriveHolds s u v blk = false → c ≤ 2048 → v.tags.getD b.toNat none ≠ some r.phase →
       (r.arrivals = 0 ∨ c = r.expected) → blk.uid = w.block → b.toNat < 8 → w.wait = .none →
       (if c = 0 then ((s.setWave u v).liveWaves blk).length else c) ≤ r.arrivals + 1 →
       ∃ t, exec i s = .next t ∧ t.mem = s.mem ∧
         (∃ blk', t.block w.block = some blk' ∧ blk'.barriers.get Barrier.launch b.toNat = ⟨c, 0, !r.phase⟩) ∧
         (∃ w', t.wave u = some w' ∧ w'.pc = w.pc + 4 ∧ w'.wait = .none) ∧
         ∀ k m, s.wave k = some m → k ≠ u → m.block = w.block →
           (m.wait = .bars b.toNat → ∃ m', t.wave k = some m' ∧ m'.pc = m.pc + 4 ∧ m'.wait = .none ∧ m'.regs = m.regs) ∧
           (∀ d dl, m.wait = .barw b.toNat d dl → (∀ e, dl = some e → s.pt ≤ e) → ∃ m', t.wave k = some m' ∧ m'.pc = m.pc + 4 ∧
             m'.wait = .none ∧ m'.getS d = if d = 0 then 0 else 1) ∧
           (∀ d e, m.wait = .barw b.toNat d (some e) → e < s.pt → t.wave k = some m)) ∧
  (∀ (p : Bool) (d a b : BitVec 7) (gr : Group),
     let bad (r : Barrier) (tag : Option Bool) (c limit : Nat) : Prop :=
       limit < c ∨ tag = some r.phase ∨ (0 < r.arrivals ∧ c ≠ r.expected)
     (∀ i ∈ ([.bara p a b, .bars p a b] : List Instr),
       Raises i (fun _ => p) [.ss a 1]
         (fun s u w blk => (w.fore || w.cpt) = false ∧ arriveHolds s u w blk = false ∧
           bad (blk.barriers.get Barrier.launch b.toNat) (w.tags.getD b.toNat none) (w.rdS a).toNat 2048)
         (fun s _ _ => ⟨0x13#8, s.ir, BitVec.ofNat 32 b.toNat⟩)) ∧
     Raises (.barw p d a b) (fun _ => p) [.sd d 1, .ss a 1]
       (fun _ _ w _ => (w.fore || w.cpt) = false ∧ w.tags.getD b.toNat none = none)
       (fun s _ _ => ⟨0x13#8, s.ir, BitVec.ofNat 32 b.toNat⟩) ∧
     Raises (.cbara p a) (fun _ => p) [.ss a 1]
       (fun s _ w blk => (w.fore || w.cpt) = false ∧ 2 ≤ blk.groupSize ∧ s.released w .cluster = true ∧
         s.groups.find blk.group = some gr ∧ bad gr.bar w.ctag (w.rdS a).toNat 128)
       (fun s _ _ => ⟨0x13#8, s.ir, 0⟩) ∧
     Raises (.cbarw p d a) (fun _ => p) [.sd d 1, .ss a 1]
       (fun _ _ w blk => (w.fore || w.cpt) = false ∧ 2 ≤ blk.groupSize ∧ w.ctag = none)
       (fun s _ _ => ⟨0x13#8, s.ir, 0⟩)) ∧
  (∀ (p : Bool) (a : BitVec 7) (s : State) (u : Nat) (w : Wave) (blk : Block) (gr : Group), Ready s u w blk p [.ss a 1] →
     let v := w.parked p
     let c := (v.rdS a).toNat
     (v.fore || v.cpt) = false → 2 ≤ blk.groupSize → s.groups.find blk.group = some gr → s.released v .cluster = true →
     c ≤ 128 → v.ctag ≠ some gr.bar.phase → (gr.bar.arrivals = 0 ∨ c = gr.bar.expected) → w.wait = .none →
     (if c = 0 then ((s.setWave u v).groupWaves blk.group).length else c) ≤ gr.bar.arrivals + 1 →
     ∃ t, exec (.cbara p a) s = .next t ∧ t.mem = s.mem ∧ t.blocks = s.blocks ∧
       t.groups.find blk.group = some { gr with bar := ⟨c, 0, !gr.bar.phase⟩ } ∧
       (∃ w', t.wave u = some w' ∧ w'.pc = w.pc + 4 ∧ w'.wait = .none ∧ w'.ctag = some gr.bar.phase) ∧
       ∀ k m kb, s.wave k = some m → k ≠ u → s.block m.block = some kb →
         (kb.group = blk.group → ∀ d dl, m.wait = .cbarw d dl → (∀ e, dl = some e → s.pt ≤ e) →
           ∃ m', t.wave k = some m' ∧ m'.pc = m.pc + 4 ∧ m'.wait = .none ∧ m'.getS d = if d = 0 then 0 else 1) ∧
         (kb.group ≠ blk.group → t.wave k = some m)) ∧
  (∀ (p : Bool) (d a b : BitVec 7) (g : Bool),
     let joined (w : Wave) (blk : Block) : Prop :=
       (w.fore || w.cpt) = false ∧ w.tags.getD b.toNat none = some g ∧
         (blk.barriers.get Barrier.launch b.toNat).phase = g
     Answers (.barw p d a b) (fun _ => p) [.sd d 1, .ss a 1]
       (fun _ _ w blk => (w.fore || w.cpt) = false ∧ w.tags.getD b.toNat none = some g ∧
         (blk.barriers.get Barrier.launch b.toNat).phase ≠ g)
       (fun s u w _ => s.setWave u ((w.synced s).wrS d 1).next) ∧
     Answers (.barw p d a b) (fun _ => p) [.sd d 1, .ss a 1]
       (fun s _ w blk => joined w blk ∧ s.cmp blk = false ∧ w.rdS a = 0)
       (fun s u w _ => s.setWave u (w.wrS d 0).next) ∧
     Answers (.barw p d a b) (fun _ => p) [.sd d 1, .ss a 1]
       (fun s _ w blk => joined w blk ∧ s.cmp blk = false ∧ w.rdS a ≠ 0)
       (fun s u w _ => (s.setWave u { w with
         word := s.ir
         wait := .barw b.toNat d.toNat (if w.rdS a = 0xFFFFFFFF then none else some (s.pt + (w.rdS a).toNat)) }).passTurn u w
           false) ∧
     Answers (.barw p d a b) (fun _ => p) [.sd d 1, .ss a 1] (fun s _ w blk => joined w blk ∧ s.cmp blk = true)
       (fun s u w _ => (s.setWave u { w with word := s.ir, wait := .barw b.toNat d.toNat none }).passTurn u w false)) ∧
  (∀ (p : Bool) (d a : BitVec 7) (gr : Group),
     let here (s : State) (w : Wave) (blk : Block) : Prop :=
       (w.fore || w.cpt) = false ∧ 2 ≤ blk.groupSize ∧ s.groups.find blk.group = some gr
     (∀ t : State → Nat → Wave → Block → State,
       (t = fun s u w blk =>
         { s.setWave u { w with ctag := some gr.bar.phase }.next with
           groups := s.groups.ins blk.group { gr with bar := ⟨(w.rdS a).toNat, gr.bar.arrivals + 1, gr.bar.phase⟩ } }) →
       Answers (.cbara p a) (fun _ => p) [.ss a 1]
         (fun s u w blk => here s w blk ∧ s.released w .cluster = true ∧ (w.rdS a).toNat ≤ 128 ∧
           w.ctag ≠ some gr.bar.phase ∧ (gr.bar.arrivals = 0 ∨ (w.rdS a).toNat = gr.bar.expected) ∧
           gr.bar.arrivals + 1 < if (w.rdS a).toNat = 0 then ((t s u w blk).groupWaves blk.group).length else (w.rdS a).toNat) t) ∧
     Answers (.cbarw p d a) (fun _ => p) [.sd d 1, .ss a 1]
       (fun s _ w blk => here s w blk ∧ w.ctag = some (!gr.bar.phase))
       (fun s u w _ => s.setWave u ((w.synced s).wrS d 1).next) ∧
     Answers (.cbarw p d a) (fun _ => p) [.sd d 1, .ss a 1]
       (fun s _ w blk => here s w blk ∧ w.ctag = some gr.bar.phase ∧ s.cmp blk = false)
       (fun s u w _ => if w.rdS a = 0 then s.setWave u (w.wrS d 0).next
         else (s.setWave u { w with
           word := s.ir
           wait := .cbarw d.toNat (if w.rdS a = 0xFFFFFFFF then none else some (s.pt + (w.rdS a).toNat)) }).passTurn u w false) ∧
     Answers (.cbarw p d a) (fun _ => p) [.sd d 1, .ss a 1]
       (fun s _ w blk => here s w blk ∧ w.ctag = some gr.bar.phase ∧ s.cmp blk = true)
       (fun s u w _ => (s.setWave u { w with word := s.ir, wait := .cbarw d.toNat none }).passTurn u w false) ∧
     Raises (.cbara p a) (fun _ => p) [.ss a 1] (fun _ _ w blk => w.fore = true ∨ w.cpt = true ∨ blk.groupSize < 2)
       (fun s _ _ => ⟨0x01#8, s.ir, 4⟩) ∧
     Raises (.cbarw p d a) (fun _ => p) [.sd d 1, .ss a 1] (fun _ _ w blk => w.fore = true ∨ w.cpt = true ∨ blk.groupSize < 2)
       (fun s _ _ => ⟨0x01#8, s.ir, 4⟩))

/-- The timeouts of BARW, CBARW, BOWAIT, WAITA and LWAIT (06 R176; 07 R211, R215; 10 R258): once package time is past the
deadline the waiting wave goes on after its instruction with result 0, and before nothing changes; WAITA and LWAIT raise
CONFLICT instead in compulsory mode, once every earlier result has arrived, which they commit (02 R80), a pending deferred
error being taken in its place (02 R81). That a wait ends only past its deadline is the model's reading (log entry 31). -/
def Obligations.WaitsTimeOut : Prop :=
  ∀ (s : State) (u : Nat) (w : Wave) (b : Block) (d t : Nat) (i : Instr) (strict : Bool),
    (strict = false ∧ ((∃ k, i = .barwTimeout u ∧ w.wait = .barw k d (some t)) ∨
      (i = .cbarwTimeout u ∧ w.wait = .cbarw d (some t)) ∨
      (∃ k o g, i = .bowaitTimeout u ∧ w.wait = .bowait k o d g (some t) ∧
        (s.block k).all (fun x => (x.object o).phase == g) = true))) ∨
    (strict = true ∧ ((∃ k o e v, i = .waitaTimeout u ∧ w.wait = .waita k o d e v (some t)) ∨
      (∃ k l, i = .lwaitTimeout u ∧ w.wait = .lwait k l d (some t)))) →
    s.wave u = some w → s.block w.block = some b → s.runs (u / 64) = true →
    (t < s.pt → (strict && s.cmp b) = false →
      Performs s (exec i s) u { w with wait := .none } (({ w with wait := .none } : Wave).sets [(.s d, 0)])) ∧
    (t < s.pt → (strict && s.cmp b) = true → w.arrived = true → w.regs.vBusy = [] → w.deferred = [] →
      exec i s = .next { (s.setWave u w.commit).enterTrap u w.commit ⟨0x17#8, w.word, 0⟩ with blocked := [] }) ∧
    (∀ (e : Deferred) (more : List Deferred), t < s.pt → (strict && s.cmp b) = true → w.arrived = true → w.regs.vBusy = [] →
      w.deferred = e :: more → exec i s = .next { (s.setWave u w.commit).enterTrap u { w.commit with deferred := [] }
        ((e.lowest more).trap w.pc) with blocked := [] }) ∧
    (t < s.pt → (strict && s.cmp b) = true → w.arrived = false → exec i s = .next s) ∧
    (s.pt ≤ t → exec i s = .next s) ∧
    ∀ (k o : Nat) (g : Bool) (x : Block), w.wait = .bowait k o d g (some t) → t < s.pt → s.block k = some x →
      (x.object o).phase ≠ g → Performs s (exec (.bowaitTimeout u) s) u { w.synced s with wait := .none }
        (({ w.synced s with wait := .none } : Wave).sets [(.s d, 1)])

/-! ## The decision queue, the multi-way branch, fusion -/

/-- DQPUSH (06 R175): with no live wave the value is discarded; with 64 entries the forerunner waits; else the entry joins the
queue, freed at once where every wave has passed it. Illegal outside the forerunner. DQPOP (06 R174, R175): the entry at
the wave's own position goes to the scalar register through the return buffer and the position moves on; where there is
none yet, the wave waits. -/
def Obligations.DecisionQueue : Prop :=
  (∀ (p : Bool) (a : BitVec 7),
     Answers (.dqpush p a) (fun _ => p) [.ss a 1] (fun s _ w b => w.fore = true ∧ s.liveWaves b = [])
       (fun s u w _ => s.setWave u w.next) ∧
     Answers (.dqpush p a) (fun _ => p) [.ss a 1]
       (fun s _ w b => w.fore = true ∧ s.liveWaves b ≠ [] ∧ 64 ≤ b.dq.length)
       (fun s u w _ => (s.setWave u { w with wait := .dqpush, word := s.ir }).passTurn u w false) ∧
     Answers (.dqpush p a) (fun _ => p) [.ss a 1] (fun s _ w b => w.fore = true ∧ s.liveWaves b ≠ [] ∧ b.dq.length < 64)
       (fun s u w b => ((s.setWave u w.next).setBlock { b with dq := b.dq ++ [w.rdS a] }).tidyQueue b.uid) ∧
     Raises (.dqpush p a) (fun _ => p) [.ss a 1] (fun _ _ w _ => w.fore = false) (fun s _ _ => ⟨0x01#8, s.ir, 4⟩)) ∧
  (∀ (p : Bool) (d : BitVec 7) (x : Word),
     Answers (.dqpop p d) (fun w => p || w.lacksRoom 4) [.sd d 1]
       (fun _ _ w b => (w.fore || w.cpt) = false ∧ b.dq[w.dqPos - b.dqBase]? = some x)
       (fun s u w b => State.tidyQueue { s.setWave u { w with
           rb := w.rb ++ [⟨s.fresh, w.pc, 4, [.s d.toNat], [(.s d.toNat, x)], 1, 0, false, .none⟩]
           dqPos := w.dqPos + 1, pc := w.pc + 4, csr := { w.csr with retired := w.csr.retired + 1 } } with
         fresh := s.fresh + 1 } b.uid) ∧
     Answers (.dqpop p d) (fun w => p || w.lacksRoom 4) [.sd d 1]
       (fun _ _ w b => (w.fore || w.cpt) = false ∧ b.dq[w.dqPos - b.dqBase]? = none)
       (fun s u w _ => (s.setWave u { w with wait := .dqpop, word := s.ir }).passTurn u w false))

/-- MBR (06 R178): a wave that is not the last of its block waits for the meeting with its mask, pairs, join address and
targets. MBR of a block's only wave (06 R178 to R180): the meeting takes place at once. The entry with the join address
and the wave is pushed, and a compacted path wave starts in the wave's slot at the path of the lanes with the lowest path
number: the first k for which a lane's bit of M[m + k] is set, or the instruction after MBR. BJOIN (06 R181): at another
address than the top entry's join it is BARRIER_MISUSE; at it, a path wave waits while another of its path runs. Outside a
path wave it is illegal. The last path wave's BJOIN with no path left (06 R181): the entry is popped and the meeting wave
goes on after the join address, its MBR and the BJOIN counted. Said of a meeting of one wave that keeps a live lane. -/
def Obligations.MultiwayBranch : Prop :=
  (∀ (p : Bool) (t : BitVec 7) (m : BitVec 4) (n : BitVec 2) (o : BitVec 13),
     Answers (.mbr p t m n o) (fun _ => true) [.ss t (n.toNat + 1)]
       (fun s u w b => w.fore = false ∧ b.stack.length < 8 ∧ w.regs.vBusy = [] ∧ arriveHolds s u w b = false ∧
         b.uid = w.block ∧ (∃ v m, s.wave v = some m ∧ v ≠ u ∧ m.block = w.block ∧ m.fore = false) ∧
         (∀ x ∈ s.waves, x.2.block = w.block → x.2.wait = .none ∧ x.2.dead = false))
       (fun s u w _ => (s.setWave u { w with
         word := s.ir
         wait := .mbr t.toNat m.toNat (n.toNat + 1) (w.pc + 4 * o.signExtend 64)
           ((List.range (n.toNat + 1)).map fun i => w.getS (t.toNat + i)) }).passTurn u w false)) ∧
  (∀ (p : Bool) (t : BitVec 7) (m : BitVec 4) (n : BitVec 2) (o : BitVec 13)
     (s : State) (u : Nat) (w : Wave) (b : Block) (k : Nat), Ready s u w b true [.ss t (n.toNat + 1)] →
     w.fore = false → b.stack.length < 8 → w.regs.vBusy = [] → arriveHolds s u w.commit b = false → b.uid = w.block →
     b.core = u / 64 → u % 64 < 32 → s.waves = [(u, w)] → k ≤ n.toNat + 1 → (∃ q ∈ w.commit.active, lanePath w.commit m.toNat (n.toNat + 1) q = k) →
     (∀ q ∈ w.commit.active, k ≤ lanePath w.commit m.toNat (n.toNat + 1) q) →
     ∃ x c e b', exec (.mbr p t m n o) s = .next x ∧ x.block w.block = some b' ∧ b'.stack = e :: b.stack ∧
       e.join = w.pc + 4 * o.signExtend 64 ∧ e.saved.map SavedWave.slot = [u % 64] ∧
       x.wave u = some c ∧ c.cpt = true ∧
       c.pc = (if k ≤ n.toNat then w.pc + 4 * (w.commit.getS (t.toNat + k)).signExtend 64 else w.pc + 4) ∧
       ∀ q ∈ c.lanes, q ∈ w.lanes) ∧
  (∀ (p : Bool),
     Answers (.bjoin p) (fun _ => true) []
       (fun s u w b => w.cpt = true ∧ (∃ e l, b.stack = e :: l ∧ w.pc = e.join) ∧ w.regs.vBusy = [] ∧
         arriveHolds s u w b = false ∧ b.uid = w.block ∧
         (∃ v m, s.wave v = some m ∧ v ≠ u ∧ m.block = w.block ∧ m.fore = false ∧ m.wait = .none) ∧
         (∀ x ∈ s.waves, x.2.block = w.block → x.2.dead = false ∧ (x.2.fore = true ∨ (x.2.cpt = true ∧ (x.2.wait = .none ∨ x.2.wait = .bjoin)))))
       (fun s u w _ => (s.setWave u { w with wait := .bjoin, word := s.ir }).passTurn u w false) ∧
     Raises (.bjoin p) (fun _ => true) [] (fun _ _ w b => w.cpt = true ∧ ∃ e l, b.stack = e :: l ∧ w.pc ≠ e.join)
       (fun s _ b => ⟨0x13#8, s.ir, ((b.stack.head?.map StackEntry.join).getD 0).extractLsb' 0 32⟩) ∧
     Raises (.bjoin p) (fun _ => true) [] (fun _ _ w _ => w.cpt = false) (fun s _ _ => ⟨0x01#8, s.ir, 4⟩)) ∧
  (∀ (p : Bool) (s : State) (u : Nat) (w : Wave) (b : Block) (e : StackEntry) (sw : SavedWave) (rest : List StackEntry),
     Ready s u w b true [] → w.cpt = true → w.fore = false → w.regs.vBusy = [] → arriveHolds s u w.commit b = false →
     b.uid = w.block → s.waves = [(u, w)] → b.stack = e :: rest → e.join = w.pc → (∀ q ∈ e.paths, q.2 = []) →
     e.saved = [sw] → w.exited = 0 → (∃ k < sw.wave.lanes.length, k < 64 ∧ sw.wave.exited.getLsbD k = false) →
     ∃ x m b', exec (.bjoin p) s = .next x ∧ x.block w.block = some b' ∧ b'.stack = rest ∧
       x.wave (64 * b.core + sw.slot) = some m ∧ m.pc = w.pc + 4 ∧ m.wait = .none ∧ m.lanes = sw.wave.lanes ∧
       m.csr.retired = sw.wave.csr.retired + 2)

/-- WFUSE (02 R77, R78): a width that is not above the wave's, or eight times it, is illegal; a partner waits while another
has not arrived. The last partner's WFUSE (02 R77): the fused wave stands in the leading partner's slot, goes on after its
WFUSE with the lanes of all in order, their registers, masks and lane generators, the leading partner's scalars and the OR
of the sticky flags; the other partners' slots are free. Said of two or four waves of one width that make up a block. The
number of the check that a bad width fails is the model's reading (log entry 32). -/
def Obligations.Fusion : Prop :=
  (∀ (p : Bool) (n : BitVec 7),
     Raises (.wfuse p n) (fun _ => true) []
       (fun _ _ w _ => (w.fore || w.cpt || w.csr.hnd) = false ∧ w.regs.vBusy = [] ∧
         (n.toNat ≤ w.width ∨ n.toNat / w.width = 8)) (fun s _ _ => ⟨0x01#8, s.ir, 6⟩) ∧
     Answers (.wfuse p n) (fun _ => true) []
       (fun s u w b => (w.fore || w.cpt || w.csr.hnd) = false ∧ w.regs.vBusy = [] ∧ w.width < n.toNat ∧
         n.toNat / w.width ≠ 8 ∧ (∀ x ∈ s.waves, x.2.block = w.block → ∀ T, x.2.wait ≠ .wfuse T) ∧ b.uid = w.block ∧
         fuseState (s.setWave u { w with wait := .wfuse n.toNat, word := s.ir }) b
           { w with wait := .wfuse n.toNat, word := s.ir } n.toNat = .wait)
       (fun s u w b => ((s.setWave u { w with wait := .wfuse n.toNat, word := s.ir }).passTurn u w false).tidyQueue b.uid)) ∧
  (∀ (p : Bool) (T : BitVec 7) (s : State) (u : Nat) (w : Wave) (b : Block) (parts : List (Nat × Wave)),
     Ready s u w b true [] → (w.fore || w.cpt || w.csr.hnd) = false → w.regs.vBusy = [] →
     w.width ∈ [8, 16, 32] → (parts.length = 2 ∨ parts.length = 4) → parts.length * w.width = T.toNat → T.toNat ≤ 64 →
     b.uid = w.block → b.lanes = T.toNat → s.waves.Perm parts → s.waves.Pairwise (fun k l => k.1 < l.1) →
     (∀ k < parts.length, ∀ v m, parts[k]? = some (v, m) →
       m.block = w.block ∧ m.fore = false ∧ m.cpt = false ∧ m.width = w.width ∧ m.first = k * w.width ∧
       m.lanes = (List.range w.width).map (k * w.width + ·) ∧ SMap.sorted 0 m.regs.v = true ∧
       (v ≠ u → m.wait = .wfuse T.toNat)) → SMap.sorted 0 w.commit.regs.v = true →
     let as (k : Nat) : Wave := let part := parts.getD k (u, w)
       if part.1 = u then w.commit else part.2
     ∃ x f, exec (.wfuse p T) s = .next x ∧ x.mem = s.mem ∧
       (∀ k v m, parts[k]? = some (v, m) → x.wave v = if k = 0 then some f else none) ∧
       f.width = T.toNat ∧ f.first = 0 ∧ f.pc = (as 0).pc + 4 ∧ f.wait = .none ∧ f.lanes = List.range T.toNat ∧
       f.regs.s = (as 0).regs.s ∧
       f.csr.fsticky = (List.range parts.length).foldl (fun g k => g ||| (as k).csr.fsticky) 0 ∧
       f.csr.comm = (List.range parts.length).any (fun k => (as k).csr.comm) ∧ f.csr.wpart = 0 ∧
       f.csr.retired = (as 0).csr.retired + 1 ∧
       ∀ k < parts.length, ∀ q < w.width, (∀ r, f.getV r (k * w.width + q) = (as k).getV r q) ∧
         ∀ m < 16, (f.getM m).getLsbD (k * w.width + q) = ((as k).getM m).getLsbD q)

/-! ## Records and queries -/

/-- EVT (11 R277; 17 R385): the pair of program events is posted and the wave goes on, held where its die has no room. SPAWN
(11 R276, R277; 17 R380): in default mode the record is submitted; in compulsory mode, or from a replay-safe record, it is
held with its order key. A misaligned address raises MISALIGN. JOIN (11 R277, R278): it lowers the record's counter at its
home, and at 0 a WAITING record becomes QUEUED, in memory and in the sequencer's queue, from that time on; a counter that
is too small raises JOIN_UNDERFLOW with its value; n = 0 does nothing. Said where the address is translated. CANCEL (11
R287) of a record, or of every record of a graph, phase or job: a WAITING or QUEUED record leaves its queue and completes,
of a RUNNING one the strength is recorded, and so it is in the live entry that the control word names; a hard cancel that
a RUNNING record has not had yet is also due in each of its waves. Behind submissions that the sequencer has not accepted
yet it waits its turn (19 R394). A malformed control word is illegal at check 6, an identifier out of range among them
(log entry 51); a misaligned record address raises MISALIGN. Said of distinct records, and where no wave is stopped or
saved by a multi-way branch for the hard cancel. -/
def Obligations.RecordInstructions : Prop :=
  (∀ (p : Bool) (a b : BitVec 7),
     Answers (.evt p a b) (fun _ => p) [.ss a 1, .ss b 1] (fun _ _ w _ => w.fore = false) fun s u w blk =>
       (s.setWave u { w with
         pc := w.pc + 4, csr := { w.csr with retired := w.csr.retired + 1 }
         evtHeld := !s.eventRoom (u / 64 / 32) 2 }).post (u / 64 / 32) true (some w.uid)
           [waveEvent s u w 5 0 (w.rdS b ++ w.rdS a) blk.recAddr,
            waveEvent s u w 5 1 (BitVec.ofNat 32 (w.first / w.width) ++ BitVec.ofNat 32 blk.index) 0]) ∧
  (∀ (p : Bool) (a : BitVec 7),
     Answers (.spawn p a) (fun _ => p) [.ss a 2]
       (fun s _ w b => w.fore = false ∧ (w.rdS64 a).toNat % 64 = 0 ∧ s.released w .device = true ∧ s.cmp b = false ∧
         b.rsafe = false)
       (fun s u w b => (s.setWave u w.next).onCtx b.ctx fun x =>
         { x with subs := x.subs ++ [⟨[(w.rdS64 a).toNat], none, [], 0, b.uid, none⟩] }) ∧
     Answers (.spawn p a) (fun _ => p) [.ss a 2]
       (fun s _ w b => w.fore = false ∧ (w.rdS64 a).toNat % 64 = 0 ∧ s.released w .device = true ∧
         (s.cmp b = true ∨ b.rsafe = true))
       (fun s u w b => (s.setWave u w.next).onCtx b.ctx fun x => { x with recs := x.recs.map fun r =>
         if r.key = b.record then
           { r with held := r.held ++ [⟨b.index, w.lanes.headD 0, w.csr.retired.toNat, (w.rdS64 a).toNat, b.uid⟩] }
         else r }) ∧
     Raises (.spawn p a) (fun _ => p) [.ss a 2] (fun _ _ w _ => w.fore = false ∧ (w.rdS64 a).toNat % 64 ≠ 0)
       (fun _ w _ => ⟨0x03#8, BitVec.ofNat 32 (w.rdS64 a).toNat,
         BitVec.ofNat 25 ((w.rdS64 a).toNat / 2 ^ 32) ++ 0#1 ++ 0#6⟩)) ∧
  (∀ (p : Bool) (a b : BitVec 7) (x : Context) (e : TlbEntry),
     let ok (w : Wave) (blk : Block) : Prop :=
       w.fore = false ∧ blk.rsafe = false ∧ (w.rdS64 a).toNat % 64 = 0
     let found (s : State) (w : Wave) (blk : Block) : Prop :=
       s.ctx blk.ctx = some x ∧ s.released w .device = true ∧ w.denied = [] ∧
         walk s x (w.rdS64 a).toNat true true = .ok e
     Answers (.join p a b) (fun _ => p) [.ss a 2, .ss b 1] (fun _ _ w blk => ok w blk ∧ w.rdS b = 0)
       (fun s u w _ => s.setWave u w.next) ∧
     (∀ (s : State) (u : Nat) (w : Wave) (blk : Block), Ready s u w blk p [.ss a 2, .ss b 1] →
       ok (w.parked p) blk → found s (w.parked p) blk → (w.parked p).rdS b ≠ 0 →
       let pa := e.phys ((w.parked p).rdS64 a).toNat
       let n := ((w.parked p).rdS b).toNat
       (n ≤ s.joinc pa → pa + 64 ≤ 2 ^ 52 → ∃ t, exec (.join p a b) s = .next t ∧ t.joinc pa = s.joinc pa - n ∧
         (t.readNat (pa + 37) 1 =
           if s.joinc pa = n ∧ s.readNat (pa + 37) 1 = 1 then 2 else s.readNat (pa + 37) 1) ∧
         (∀ c y, s.ctx c = some y → t.ctx c = some
           (if s.joinc pa = n ∧ s.readNat (pa + 37) 1 = 1 then
             { y with recs := y.recs.map fun r =>
               if r.pa = pa && r.state = .waiting then { r with state := .queued, queued := s.pt } else r }
            else y)) ∧
         (∀ i, i < pa + 16 ∨ pa + 20 ≤ i ∧ i ≠ pa + 37 → i < 2 ^ 52 → t.byteAt i = s.byteAt i) ∧
         ∃ w', t.wave u = some w' ∧ w'.pc = w.pc + 4) ∧
       (s.joinc pa < n → exec (.join p a b) s =
         .next (s.trap u (w.parked p) ⟨0x16#8, s.ir, BitVec.ofNat 32 (s.joinc pa)⟩)))) ∧
  (∀ (p : Bool) (a b : BitVec 7) (x : Context),
     let named (s : State) (word : Word) (addr : Nat) (r : Rec) : Bool :=
       let id := word.toNat / 16
       match word.toNat % 4 with
       | 0 => match walk s x addr false false with
         | .ok e => r.pa = e.phys addr
         | _ => r.addr = addr
       | 1 => r.img.graph = id
       | 2 => r.img.phase = id
       | _ => r.img.job = id
     let entry (word : Word) (k level : Nat) (m : SMap Node) : SMap Node :=
       if word.toNat % 4 = level then
         let n := m.get Node.idle (word.toNat / 16)
         m.put Node.idle (word.toNat / 16) (if n.live && n.cancel < k then { n with cancel := k, word := word } else n)
       else m
     let after (s : State) (word : Word) (addr k : Nat) (x : Context) : Context :=
       { x with
         recs := x.recs.map fun r =>
           if named s word addr r && r.state ≠ .completing then
             { r with
               state := if r.state = .running then .running else .completing
               cancel := max r.cancel k, word := if r.cancel < k then word else r.word }
           else r
         graphs := entry word k 1 x.graphs, phases := entry word k 2 x.phases, jobs := entry word k 3 x.jobs }
     let may (s : State) (w : Wave) (blk : Block) : Prop :=
       w.fore = false ∧ blk.rsafe = false ∧ (w.rdS a).toNat < 2 ^ 16 ∧ (w.rdS a).getLsbD 3 = false ∧
         (w.rdS a).toNat / 16 < (match (w.rdS a).toNat % 4 with
           | 0 => 1
           | 1 => 4096
           | 2 => 256
           | _ => 16) ∧
         ((w.rdS a).toNat % 4 = 0 → (w.rdS64 b).toNat % 64 = 0) ∧ s.released w .device = true ∧ s.ctx blk.ctx = some x ∧
         x.live = true ∧ (x.recs.map (·.key)).Nodup
     let due (s : State) (c : Nat) (word : Word) (addr : Nat) (m : Wave) : Bool :=
       match s.block m.block with
       | some k => k.ctx = c && x.recs.any fun r => r.key = k.record && named s word addr r && r.state = .running && r.cancel < 2
       | none => false
     Answers (.cancel p a b) (fun _ => p) [.ss a 1, .ss b 2]
       (fun s _ w blk => may s w blk ∧ x.subs = [] ∧ (w.rdS a).getLsbD 2 = false)
       (fun s u w blk => (s.setWave u w.next).onCtx blk.ctx (after s (w.rdS a) (w.rdS64 b).toNat 1)) ∧
     Answers (.cancel p a b) (fun _ => p) [.ss a 1, .ss b 2]
       (fun s _ w blk => may s w blk ∧ x.subs = [] ∧ (w.rdS a).getLsbD 2 = true ∧
         (∀ kw ∈ s.waves, kw.2.run ≠ .stopped) ∧ ∀ kb ∈ s.blocks, kb.2.stack = [])
       (fun s u w blk =>
         let t := (s.setWave u w.next).onCtx blk.ctx (after s (w.rdS a) (w.rdS64 b).toNat 2)
         { t with waves := t.waves.map fun kw =>
             (kw.1, if due s blk.ctx (w.rdS a) (w.rdS64 b).toNat kw.2 then { kw.2 with cancel := some (w.rdS a) } else kw.2) }) ∧
     Answers (.cancel p a b) (fun _ => p) [.ss a 1, .ss b 2] (fun s _ w blk => may s w blk ∧ x.subs ≠ [])
       (fun s u w blk => (s.setWave u w.next).onCtx blk.ctx fun x =>
         { x with subs := x.subs ++ [⟨[], none, [], 0, 0, some (w.rdS a, (w.rdS64 b).toNat)⟩] }) ∧
     Raises (.cancel p a b) (fun _ => p) [.ss a 1, .ss b 2]
       (fun _ _ w blk => w.fore = false ∧ blk.rsafe = false ∧
         ((w.rdS a).getLsbD 3 ∨ (w.rdS a).toNat / 2 ^ 16 ≠ 0 ∨ ((w.rdS a).toNat % 4 = 0 ∧ (w.rdS a).toNat / 16 ≠ 0) ∨
           ((w.rdS a).toNat % 4 = 2 ∧ 256 ≤ (w.rdS a).toNat / 16) ∨ ((w.rdS a).toNat % 4 = 3 ∧ 16 ≤ (w.rdS a).toNat / 16)))
       (fun s _ _ => ⟨0x01#8, s.ir, 6⟩) ∧
     Raises (.cancel p a b) (fun _ => p) [.ss a 1, .ss b 2]
       (fun _ _ w blk => w.fore = false ∧ blk.rsafe = false ∧ ctlOk (w.rdS a) = true ∧ (w.rdS a).toNat % 4 = 0 ∧
         (w.rdS64 b).toNat % 64 ≠ 0)
       (fun _ w _ => ⟨0x03#8, BitVec.ofNat 32 (w.rdS64 b).toNat,
         BitVec.ofNat 25 ((w.rdS64 b).toNat / 2 ^ 32) ++ 0#1 ++ 0#6⟩))

/-- RINKQ (14 R324 to R326): what each selector answers, compulsory mode showing no physical placement; an unknown selector
and an argument beyond its limit are illegal at check 6. HOPS counts the links between two virtual dies (14 R327), and
VDIE names the virtual die of an address's home, 4 for the second tier and all ones where it is not mapped (14 R326); VDIE
raises CONFLICT in compulsory mode. -/
def Obligations.RinkAndHomeQueries : Prop :=
  (∀ (p : Bool) (d a b : BitVec 7) (s : State) (u : Nat) (w : Wave) (blk : Block) (x : Context),
     s.ctx blk.ctx = some x → Ready s u w blk p [.sd d 1, .ss a 1, .ss b 1] →
     let v := w.parked p
     (∀ e ∈ ([(0, fun _ => BitVec.ofNat 32 x.nv),
         (1, fun n => BitVec.ofNat 32 (if x.compulsory then n else x.table.getD n 0)),
         (2, fun n => if x.compulsory then 0xFFFFFFFF#32 else (s.boot.harvest.get 0 (x.table.getD n 0)).extractLsb' 0 32),
         (3, fun n => if x.compulsory then 0 else ((s.boot.harvest.get 0 (x.table.getD n 0)).extractLsb' 32 4).setWidth 32),
         (4, fun n => if x.compulsory then 0 else (s.boot.spare.get 0 (x.table.getD n 0)).extractLsb' 0 32),
         (5, fun n => if x.compulsory then 0 else ((s.boot.spare.get 0 (x.table.getD n 0)).extractLsb' 32 4).setWidth 32)] :
         List (Nat × (Nat → Word))),
       (v.rdS a).toNat = e.1 → e.1 = 0 ∨ (v.rdS b).toNat < x.nv →
       Performs s (exec (.rinkq p d a b) s) u v (v.sets [(.s d.toNat, e.2 (v.rdS b).toNat)])) ∧
     (∀ c, (v.rdS a).toNat = 6 → (v.rdS b).toNat < 32 * x.nv →
       (x.compulsory = false → s.boot.lct.find (32 * x.table.getD ((v.rdS b).toNat / 32) 0 + (v.rdS b).toNat % 32) = some c) →
       Performs s (exec (.rinkq p d a b) s) u v
         (v.sets [(.s d.toNat, BitVec.ofNat 32 (if x.compulsory then (v.rdS b).toNat % 32 else c))])) ∧
     (6 < (v.rdS a).toNat ∨ (0 < (v.rdS a).toNat ∧ (v.rdS a).toNat < 6 ∧ x.nv ≤ (v.rdS b).toNat) ∨
         ((v.rdS a).toNat = 6 ∧ 32 * x.nv ≤ (v.rdS b).toNat) →
       exec (.rinkq p d a b) s = .next (s.trap u v ⟨0x01#8, s.ir, 6⟩))) ∧
  (∀ (p : Bool) (d a b : BitVec 7) (s : State) (u : Nat) (w : Wave) (blk : Block) (x : Context),
     s.ctx blk.ctx = some x →
     let v := w.parked p
     (Ready s u w blk p [.sd d 1, .ss a 1, .ss b 1] →
       ((v.rdS a).toNat < x.nv → (v.rdS b).toNat < x.nv → x.nv ≤ 4 →
         Performs s (exec (.hops p d a b) s) u v (v.sets [(.s d.toNat,
           BitVec.ofNat 32 (((v.rdS a).toNat % 2 + (v.rdS b).toNat % 2) % 2
             + ((v.rdS a).toNat / 2 + (v.rdS b).toNat / 2) % 2))])) ∧
       ((v.rdS a).toNat ≥ x.nv ∨ (v.rdS b).toNat ≥ x.nv →
         exec (.hops p d a b) s = .next (s.trap u v ⟨0x01#8, s.ir, 6⟩))) ∧
     (Ready s u w blk p [.sd d 1, .ss a 2] →
       (x.compulsory = false → Performs s (exec (.vdie p d a) s) u v (v.sets [(.s d.toNat,
         match walk s x (v.rdS64 a).toNat false false with
         | .ok e => if e.phys (v.rdS64 a).toNat < 2 ^ 42
           then BitVec.ofNat 32 (x.vdOf (e.phys (v.rdS64 a).toNat / 2 ^ 40)) else 4
         | _ => 0xFFFFFFFF)])) ∧
       (x.compulsory = true → exec (.vdie p d a) s = .next (s.trap u v ⟨0x17#8, s.ir, 0⟩))))

/-! ## Vector instructions -/

/-- VINT and VINTS over words (05 R131 to R137): every active lane's result from its operands, the second a vector register
or, in VINTS, one scalar register. The other forms of VINT and VINTS (05 R131 to R137): VMAD and VBINS, which read d; VCLZ
and VPOPC; VADD64 and VSUB64 over pairs; VMOV, which moves a vector register's scale with it; VLANEID. In a forerunner
every VINT and VINTS is illegal at check 4, whatever its operands (06 R173). -/
def Obligations.VectorIntegers : Prop :=
  (∀ (p : Bool) (d a b : BitVec 7), ∀ e ∈ ([
     (.vadd p d a b, .vaddScalar p d a b, fun x y => x + y), (.vsub p d a b, .vsubScalar p d a b, fun x y => x - y),
     (.vmul p d a b, .vmulScalar p d a b, fun x y => x * y),
     (.vmulhs p d a b, .vmulhsScalar p d a b, fun x y => BitVec.ofInt 32 (x.toInt * y.toInt / 2 ^ 32)),
     (.vand p d a b, .vandScalar p d a b, fun x y => x &&& y), (.vor p d a b, .vorScalar p d a b, fun x y => x ||| y),
     (.vxor p d a b, .vxorScalar p d a b, fun x y => x ^^^ y),
     (.vandn p d a b, .vandnScalar p d a b, fun x y => x &&& ~~~y),
     (.vshl p d a b, .vshlScalar p d a b, fun x y => x <<< (y.toNat % 32)),
     (.vshr p d a b, .vshrScalar p d a b, fun x y => x >>> (y.toNat % 32)),
     (.vsra p d a b, .vsraScalar p d a b, fun x y => BitVec.ofInt 32 (x.toInt / 2 ^ (y.toNat % 32))),
     (.vmins p d a b, .vminsScalar p d a b, fun x y => BitVec.ofInt 32 (min x.toInt y.toInt)),
     (.vmaxs p d a b, .vmaxsScalar p d a b, fun x y => BitVec.ofInt 32 (max x.toInt y.toInt)),
     (.vminn p d a b, .vminnScalar p d a b, fun x y => BitVec.ofNat 32 (min x.toNat y.toNat)),
     (.vmaxn p d a b, .vmaxnScalar p d a b, fun x y => BitVec.ofNat 32 (max x.toNat y.toNat)),
     (.vaddss p d a b, .vaddssScalar p d a b, fun x y =>
       BitVec.ofInt 32 (max (-(2 ^ 31)) (min (x.toInt + y.toInt) (2 ^ 31 - 1)))),
     (.vsubss p d a b, .vsubssScalar p d a b, fun x y =>
       BitVec.ofInt 32 (max (-(2 ^ 31)) (min (x.toInt - y.toInt) (2 ^ 31 - 1)))),
     (.vbfe p d a b, .vbfeScalar p d a b, fun x y =>
       let off := y.toNat % 32
       let k := min (min (y.toNat / 2 ^ 8 % 64) 32) (32 - off)
       let f := x.toNat / 2 ^ off % 2 ^ k
       if k = 0 then 0
       else if y.getLsbD 16 ∧ f / 2 ^ (k - 1) = 1 then BitVec.ofInt 32 (f - 2 ^ k) else BitVec.ofNat 32 f)] :
       List (Instr × Instr × (Word → Word → Word))),
     Completes e.1 (fun _ => p) [.vd d 1, .vs a 1, .vs b 1] (fun w => w.fore = false)
       (fun w => w.sets (w.inLanes d fun q => e.2.2 (w.rdV a q) (w.rdV b q))) ∧
     Completes e.2.1 (fun _ => p) [.vd d 1, .vs a 1, .sl b 1] (fun w => w.fore = false)
       (fun w => w.sets (w.inLanes d fun q => e.2.2 (w.rdV a q) (w.rdS b)))) ∧
  (∀ (p : Bool) (d a b : BitVec 7),
     (∀ e ∈ ([
       (.vmad p d a b, .vmadScalar p d a b, fun z x y => x * y + z),
       (.vbins p d a b, .vbinsScalar p d a b, fun z x y =>
         let off := y.toNat % 32
         let k := min (min (y.toNat / 2 ^ 8 % 64) 32) (32 - off)
         let mask := BitVec.ofNat 32 ((2 ^ k - 1) * 2 ^ off)
         if k = 0 then z else (z &&& ~~~mask) ||| ((x <<< off) &&& mask))] :
         List (Instr × Instr × (Word → Word → Word → Word))),
       Completes e.1 (fun _ => p) [.vs d 1, .vs a 1, .vs b 1] (fun w => w.fore = false)
         (fun w => w.sets (w.inLanes d fun q => e.2.2 (w.rdV d q) (w.rdV a q) (w.rdV b q))) ∧
       Completes e.2.1 (fun _ => p) [.vs d 1, .vs a 1, .sl b 1] (fun w => w.fore = false)
         (fun w => w.sets (w.inLanes d fun q => e.2.2 (w.rdV d q) (w.rdV a q) (w.rdS b)))) ∧
     (∀ e ∈ ([
       (.vclz p d a, fun x => ((List.range 32).reverse.takeWhile fun k => !x.getLsbD k).length),
       (.vpopc p d a, fun x => ((List.range 32).filter fun k => x.getLsbD k).length)] : List (Instr × (Word → Nat))),
       Completes e.1 (fun _ => p) [.vd d 1, .vs a 1] (fun w => w.fore = false) fun w =>
         w.sets (w.inLanes d fun q => BitVec.ofNat 32 (e.2 (w.rdV a q)))) ∧
     (∀ e ∈ ([(.vadd64 p d a b, .vadd64Scalar p d a b, fun x y => x + y),
         (.vsub64 p d a b, .vsub64Scalar p d a b, fun x y => x - y)] : List (Instr × Instr × (DWord → DWord → DWord))),
       Completes e.1 (fun _ => p) [.vd d 2, .vs a 2, .vs b 2] (fun w => w.fore = false)
         (fun w => w.sets (w.inPairs d fun q => e.2.2 (w.rdV64 a q) (w.rdV64 b q))) ∧
       Completes e.2.1 (fun _ => p) [.vd d 2, .vs a 2, .sl b 2] (fun w => w.fore = false)
         (fun w => w.sets (w.inPairs d fun q => e.2.2 (w.rdV64 a q) (w.rdS64 b)))) ∧
     Completes (.vmov p d a) (fun _ => p) [.vd d 1, .vs a 1, .es a 1] (fun w => w.fore = false)
       (fun w => w.sets (w.moved d w.active fun q => (w.rdV a q, w.rdE a q))) ∧
     Completes (.vmovScalar p d b) (fun _ => p) [.vd d 1, .sl b 1] (fun w => w.fore = false)
       (fun w => w.sets (w.inLanes d fun _ => w.rdS b)) ∧
     Completes (.vlaneid p d) (fun _ => p) [.vd d 1] (fun w => w.fore = false)
       (fun w => w.sets (w.inLanes d fun q => BitVec.ofNat 32 (w.lanes.getD q 0))) ∧
     ∀ i ∈ ([Instr.vadd, .vsub, .vmul, .vmulhs, .vmad, .vadd64, .vsub64, .vand, .vor, .vxor, .vandn, .vshl, .vshr, .vsra,
         .vmins, .vmaxs, .vminn, .vmaxn, .vaddss, .vsubss, .vbfe, .vbins, .vaddScalar, .vsubScalar, .vmulScalar, .vmulhsScalar,
         .vmadScalar, .vadd64Scalar, .vsub64Scalar, .vandScalar, .vorScalar, .vxorScalar, .vandnScalar, .vshlScalar,
         .vshrScalar, .vsraScalar, .vminsScalar, .vmaxsScalar, .vminnScalar, .vmaxnScalar, .vaddssScalar, .vsubssScalar,
         .vbfeScalar, .vbinsScalar].map fun f => f p d a b) ++
         [.vclz p d a, .vpopc p d a, .vmov p d a, .vmovScalar p d b, .vlaneid p d],
       Raises i (fun _ => p) [] (fun _ _ w _ => w.fore = true) (fun s _ _ => ⟨0x01#8, s.ir, 4⟩))

/-- A finite value that a format represents rounds to its code in every rounding mode, and raises nothing (01 R21). -/
def Obligations.RoundingIsExact : Prop :=
  ∀ f ∈ [f64, f32, f16, bf16, e5m2, e4m3, e3m2, e2m3, e2m1], ∀ (c m D : Nat) (n sat : Bool) (e : Int) (r : Rounding),
    c < 2 ^ f.bits → f.decode c = .fin n m e → f.round r sat n m e false D = ⟨c, 0⟩

/-- VF32, VF64, VF16 and VBF16 (05 R136, R138; 01 R14, R27): each active lane's sum, difference, product or fused multiply-add
with one rounding, which alone reads d; under rsr every result element takes one draw of the lane's generator, element 0
of a packed register first. VFMISC (05 R139 to R142): minimum and maximum, absolute value and negation, which raise
nothing, the class, x × 2^n and the exponent. -/
def Obligations.FloatingPoint : Prop :=
  (∀ (p : Bool) (d a b : BitVec 7) (r : Rounding),
     let drawn (g : Word) : Word := if r = .rsr then drawStep g else g
     let D (g : Word) : Nat := if r = .rsr then (drawStep g).toNat else 0
     let ops (f : Fmt) (k : Nat) : List (Opnd × (Nat → Nat → Nat → Nat → FpRes)) :=
       [(.vd d k, fun x y _ t => fpAdd f r x y t), (.vd d k, fun x y _ t => fpSub f r x y t),
         (.vd d k, fun x y _ t => fpMul f r x y t), (.vs d k, fun x y z t => fpFma f r x y z t)]
     (∀ e ∈ ([.vfaddF32 p d a b r, .vfsubF32 p d a b r, .vfmulF32 p d a b r, .vffmaF32 p d a b r] : List Instr).zip (ops f32 1),
       Delivers e.1 p [e.2.1, .vs a 1, .vs b 1] fun w q =>
         let o := e.2.2 (w.rdV a q).toNat (w.rdV b q).toNat (w.rdV d q).toNat (D (w.genOf q))
         ⟨w.wordRun d q [BitVec.ofNat 32 o.code], o.flags, drawn (w.genOf q)⟩) ∧
     (∀ e ∈ ([.vfaddF64 p d a b r, .vfsubF64 p d a b r, .vfmulF64 p d a b r, .vffmaF64 p d a b r] : List Instr).zip (ops f64 2),
       Delivers e.1 p [e.2.1, .vs a 2, .vs b 2] fun w q =>
         let o := e.2.2 (w.rdV64 a q).toNat (w.rdV64 b q).toNat (w.rdV64 d q).toNat (D (w.genOf q))
         ⟨w.wordRun d q [BitVec.ofNat 32 o.code, BitVec.ofNat 32 (o.code / 2 ^ 32)], o.flags, drawn (w.genOf q)⟩) ∧
     ∀ e ∈ ([.vfaddF16 p d a b r, .vfsubF16 p d a b r, .vfmulF16 p d a b r, .vffmaF16 p d a b r] : List Instr).zip (ops f16 1) ++
         ([.vfaddBf16 p d a b r, .vfsubBf16 p d a b r, .vfmulBf16 p d a b r, .vffmaBf16 p d a b r] : List Instr).zip (ops bf16 1),
       Delivers e.1 p [e.2.1, .vs a 1, .vs b 1] fun w q =>
         let x (t : BitVec 7) (k : Nat) : Nat := (w.rdV t q).toNat / 2 ^ (16 * k) % 2 ^ 16
         let o0 := e.2.2 (x a 0) (x b 0) (x d 0) (D (w.genOf q))
         let o1 := e.2.2 (x a 1) (x b 1) (x d 1) (D (drawn (w.genOf q)))
         ⟨w.wordRun d q [BitVec.ofNat 16 o1.code ++ BitVec.ofNat 16 o0.code], o0.flags ||| o1.flags,
           drawn (drawn (w.genOf q))⟩) ∧
  (∀ (p : Bool) (d a b : BitVec 7),
     (∀ e ∈ ([(.vfminF32 p d a b, fpMinMax f32 false), (.vfmaxF32 p d a b, fpMinMax f32 true),
         (.vfsclF32 p d a b, fun x n => fpScale f32 x (BitVec.ofNat 32 n).toInt)] : List (Instr × (Nat → Nat → FpRes))),
       Delivers e.1 p [.vd d 1, .vs a 1, .vs b 1] fun w q =>
         let o := e.2 (w.rdV a q).toNat (w.rdV b q).toNat
         ⟨w.wordRun d q [BitVec.ofNat 32 o.code], o.flags, w.genOf q⟩) ∧
     (∀ e ∈ ([(.vfminF64 p d a b, false), (.vfmaxF64 p d a b, true)] : List (Instr × Bool)),
       Delivers e.1 p [.vd d 2, .vs a 2, .vs b 2] fun w q =>
         let o := fpMinMax f64 e.2 (w.rdV64 a q).toNat (w.rdV64 b q).toNat
         ⟨w.wordRun d q [BitVec.ofNat 32 o.code, BitVec.ofNat 32 (o.code / 2 ^ 32)], o.flags, w.genOf q⟩) ∧
     (Delivers (.vfsclF64 p d a b) p [.vd d 2, .vs a 2, .vs b 1] fun w q =>
         let o := fpScale f64 (w.rdV64 a q).toNat (w.rdV b q).toInt
         ⟨w.wordRun d q [BitVec.ofNat 32 o.code, BitVec.ofNat 32 (o.code / 2 ^ 32)], o.flags, w.genOf q⟩) ∧
     (∀ e ∈ ([(.vfabsF32 p d a, fun x => ⟨x % 2 ^ 31, 0⟩),
         (.vfnegF32 p d a, fun x => ⟨if x < 2 ^ 31 then x + 2 ^ 31 else x - 2 ^ 31, 0⟩),
         (.vfclassF32 p d a, fun x => ⟨(fpClass f32 x).toNat, 0⟩), (.vfgexF32 p d a, fpGex f32)] :
         List (Instr × (Nat → FpRes))),
       Delivers e.1 p [.vd d 1, .vs a 1] fun w q =>
         ⟨w.wordRun d q [BitVec.ofNat 32 (e.2 (w.rdV a q).toNat).code], (e.2 (w.rdV a q).toNat).flags, w.genOf q⟩) ∧
     (∀ e ∈ ([(.vfabsF64 p d a, fun x => x % 2 ^ 63),
         (.vfnegF64 p d a, fun x => if x < 2 ^ 63 then x + 2 ^ 63 else x - 2 ^ 63)] : List (Instr × (Nat → Nat))),
       Delivers e.1 p [.vd d 2, .vs a 2] fun w q =>
         let o := e.2 (w.rdV64 a q).toNat
         ⟨w.wordRun d q [BitVec.ofNat 32 o, BitVec.ofNat 32 (o / 2 ^ 32)], 0, w.genOf q⟩) ∧
     ∀ e ∈ ([(.vfclassF64 p d a, fun x => ⟨(fpClass f64 x).toNat, 0⟩), (.vfgexF64 p d a, fpGex f64)] :
         List (Instr × (Nat → FpRes))),
       Delivers e.1 p [.vd d 1, .vs a 2] fun w q =>
         ⟨w.wordRun d q [BitVec.ofNat 32 (e.2 (w.rdV64 a q).toNat).code], (e.2 (w.rdV64 a q).toNat).flags, w.genOf q⟩)

/-- VCVT (05 R143 to R146; 01 R16, R17): exact conversions raise invalid on a signalling NaN alone; conversions that round
take a draw under rsr; a narrow source is the low bits of its register, and E2M1's code 8 reads as the value of CZA. -/
def Obligations.Conversions : Prop :=
  ∀ (p sat : Bool) (d a : BitVec 7) (r : Rounding),
    let drawn (t : Rounding) (g : Word) : Word := if t = .rsr then drawStep g else g
    let D (t : Rounding) (g : Word) : Nat := if t = .rsr then (drawStep g).toNat else 0
    let exact (src : Fmt) (x : Nat) : FpRes := fpOfVal f32 .rne false (src.decode (x % 2 ^ src.bits)) 0
    let int (src : Fmt) (lo hi : Int) (width x t : Nat) : FpRes :=
      ⟨(BitVec.ofInt width (cvtInt src lo hi r sat x t).1).toNat, (cvtInt src lo hi r sat x t).2⟩
    (∀ e ∈ ([(.vcvtF16F32 p d a sat r, r, fun _ x t => cvtRound f32 f16 r sat x t),
        (.vcvtBf16F32 p d a sat r, r, fun _ x t => cvtRound f32 bf16 r sat x t),
        (.vcvtE4m3F32 p d a sat r, r, fun _ x t => cvtRound f32 e4m3 r sat x t),
        (.vcvtE5m2F32 p d a sat r, r, fun _ x t => cvtRound f32 e5m2 r sat x t),
        (.vcvtS32F32 p d a sat r, r, fun _ x t => int f32 (-(2 ^ 31)) (2 ^ 31 - 1) 32 x t),
        (.vcvtN32F32 p d a sat r, r, fun _ x t => int f32 0 (2 ^ 32 - 1) 32 x t),
        (.vcvtF32S32 p d a sat r, r, fun _ x t => cvtFromInt f32 r (BitVec.ofNat 32 x).toInt t),
        (.vcvtF32N32 p d a sat r, r, fun _ x t => cvtFromInt f32 r x t),
        (.vcvtF32F16 p d a, .rne, fun _ x _ => exact f16 x), (.vcvtF32Bf16 p d a, .rne, fun _ x _ => exact bf16 x),
        (.vcvtF32E4m3 p d a, .rne, fun _ x _ => exact e4m3 x), (.vcvtF32E5m2 p d a, .rne, fun _ x _ => exact e5m2 x),
        (.vcvtF32E2m3 p d a, .rne, fun _ x _ => exact e2m3 x), (.vcvtF32E3m2 p d a, .rne, fun _ x _ => exact e3m2 x),
        (.vcvtF32E2m1 p d a, .rne, fun w x _ =>
          if x % 16 = 8 then fpOfVal f32 .rne false (e4m3.decode w.csr.cza.toNat) 0 else exact e2m1 x)] :
        List (Instr × Rounding × (Wave → Nat → Nat → FpRes))),
      Delivers e.1 p [.vd d 1, .vs a 1] fun w q =>
        let o := e.2.2 w (w.rdV a q).toNat (D e.2.1 (w.genOf q))
        ⟨w.wordRun d q [BitVec.ofNat 32 o.code], o.flags, drawn e.2.1 (w.genOf q)⟩) ∧
    (∀ e ∈ ([(.vcvtF64F32 p d a, fun x => fpOfVal f64 .rne false (f32.decode x) 0),
        (.vcvtF64S32 p d a, fun x => cvtFromInt f64 .rne (BitVec.ofNat 32 x).toInt 0)] : List (Instr × (Nat → FpRes))),
      Delivers e.1 p [.vd d 2, .vs a 1] fun w q =>
        let o := e.2 (w.rdV a q).toNat
        ⟨w.wordRun d q [BitVec.ofNat 32 o.code, BitVec.ofNat 32 (o.code / 2 ^ 32)], o.flags, w.genOf q⟩) ∧
    (∀ e ∈ ([(.vcvtF32F64 p d a sat r, fun x t => cvtRound f64 f32 r sat x t),
        (.vcvtS32F64 p d a sat r, fun x t => int f64 (-(2 ^ 31)) (2 ^ 31 - 1) 32 x t)] : List (Instr × (Nat → Nat → FpRes))),
      Delivers e.1 p [.vd d 1, .vs a 2] fun w q =>
        let o := e.2 (w.rdV64 a q).toNat (D r (w.genOf q))
        ⟨w.wordRun d q [BitVec.ofNat 32 o.code], o.flags, drawn r (w.genOf q)⟩) ∧
    ∀ e ∈ ([(.vcvtS64F64 p d a sat r, fun x t => int f64 (-(2 ^ 63)) (2 ^ 63 - 1) 64 x t),
        (.vcvtF64S64 p d a sat r, fun x t => cvtFromInt f64 r (BitVec.ofNat 64 x).toInt t)] :
        List (Instr × (Nat → Nat → FpRes))),
      Delivers e.1 p [.vd d 2, .vs a 2] fun w q =>
        let o := e.2 (w.rdV64 a q).toNat (D r (w.genOf q))
        ⟨w.wordRun d q [BitVec.ofNat 32 o.code, BitVec.ofNat 32 (o.code / 2 ^ 32)], o.flags, drawn r (w.genOf q)⟩

/-- VCMP (05 R149): with m0 zero nothing is written; else every bit of the mask is, set in the active lanes where the
condition holds, exited lanes staying clear in m0. For an ordered comparison any NaN is invalid, for the others a
signalling one. The mask functions (05 R153; 02 R57, R75): whole registers, whatever m0 holds, bits beyond the wave's
lanes reading 0 and exited lanes staying clear in m0. -/
def Obligations.ComparisonsAndMasks : Prop :=
  (∀ (p : Bool) (d a b : BitVec 7) (c : Cond),
     let order (nan lt eq : Bool) : Bool :=
       match c with
       | .eq => !nan && eq | .ne => nan || !eq | .lt => !nan && lt | .le => !nan && (lt || eq)
       | .gt => !nan && !lt && !eq | .ge => !nan && !lt | .un => nan | .or => !nan
     let float (f : Fmt) (x y : Nat) : Bool × FpFlags :=
       let nan := (f.decode x).isNan || (f.decode y).isNan
       (order nan ((f.decode x).cmp (f.decode y) == .lt) ((f.decode x).cmp (f.decode y) == .eq),
         if (f.decode x).isSnan || (f.decode y).isSnan || (nan && (c == .lt || c == .le || c == .gt || c == .ge)) then 1 else 0)
     ∀ e ∈ ([
       (.vcmpF32 p d a b c, [.vs a 1, .vs b 1], fun w q => float f32 (w.rdV a q).toNat (w.rdV b q).toNat),
       (.vcmpF64 p d a b c, [.vs a 2, .vs b 2], fun w q => float f64 (w.rdV64 a q).toNat (w.rdV64 b q).toNat),
       (.vcmpS32 p d a b c, [.vs a 1, .vs b 1], fun w q =>
         (order false ((w.rdV a q).toInt < (w.rdV b q).toInt) (w.rdV a q = w.rdV b q), 0)),
       (.vcmpN32 p d a b c, [.vs a 1, .vs b 1], fun w q =>
         (order false ((w.rdV a q).toNat < (w.rdV b q).toNat) (w.rdV a q = w.rdV b q), 0))] :
         List (Instr × List Opnd × (Wave → Nat → Bool × FpFlags))),
       (Completes e.1 (fun _ => p) e.2.1 (fun w => w.fore = false ∧ ∀ q ∈ w.active, (e.2.2 w q).2 &&& w.csr.ftrapen = 0) fun w =>
         let bits := maskOf (w.active.map fun q => (q, (e.2.2 w q).1))
         ⟨[], if w.active = [] then [] else [(d.toNat, if d = 0 then bits &&& ~~~w.exited else bits)], [],
           flagUnion (w.active.map fun q => (q, (e.2.2 w q).2)), w.pc + 4⟩) ∧
       ∀ k < 6, Raises e.1 (fun _ => p) e.2.1 (fun _ _ w _ => w.fore = false ∧ w.raisesFirst (fun q => (e.2.2 w q).2) k)
         fun _ w _ => w.flagTrap (fun q => (e.2.2 w q).2) k) ∧
  (∀ (p : Bool) (d a b : BitVec 7),
     let kept (w : Wave) (x : DWord) : DWord :=
       BitVec.ofNat 64 ((if d = 0 then x &&& ~~~w.exited else x).toNat % 2 ^ w.lanes.length)
     (∀ e ∈ ([(.mand p d a b, fun x y => x &&& y), (.mor p d a b, fun x y => x ||| y), (.mxor p d a b, fun x y => x ^^^ y),
         (.mandn p d a b, fun x y => x &&& ~~~y), (.mnot p d a, fun x _ => ~~~x), (.mmov p d a, fun x _ => x)] :
         List (Instr × (DWord → DWord → DWord))),
       Completes e.1 (fun _ => p) [] (fun w => w.fore = false) fun w =>
         { w.sets [] with masks := [(d.toNat, kept w (e.2 (w.getM a.toNat) (w.getM b.toNat)))] }) ∧
     Completes (.stom p d a) (fun _ => p) [.ss a 2] (fun w => w.fore = false)
       (fun w => { w.sets [] with masks := [(d.toNat, kept w (w.rdS64 a))] }) ∧
     Completes (.mpopc p d a) (fun _ => p) [.sd d 1] (fun w => w.fore = false)
       (fun w => w.sets [(.s d.toNat, BitVec.ofNat 32 ((List.range 64).filter fun i => (w.getM a.toNat).getLsbD i).length)]) ∧
     (∀ i : Option Nat, Completes (.mfirst p d a) (fun _ => p) [.sd d 1]
       (fun w => w.fore = false ∧ match i with
         | some k => (w.getM a.toNat).getLsbD k = true ∧ ∀ j < k, (w.getM a.toNat).getLsbD j = false
         | none => w.getM a.toNat = 0)
       (fun w => w.sets [(.s d.toNat, (i.map (BitVec.ofNat 32)).getD 0xFFFFFFFF)])) ∧
     Completes (.mtos p d a) (fun _ => p) [.sd d 2] (fun w => w.fore = false)
       (fun w => w.sets [(.s d.toNat, (w.getM a.toNat).extractLsb' 0 32), (.s (d.toNat + 1), (w.getM a.toNat).extractLsb' 32 32)]))

/-- VXC (05 R147, R148; 01 R32): with m0 zero it only goes on; else, where no enabled exception is raised, one entry holds the
lanes' results and flags; an enabled exception is a precise trap. The lanes' values are those of `xcValue`, `fpSqrt` and
`fpDiv`; the entry does not say when they arrive. A bounded function's value is a free one (log entry 5). -/
def Obligations.Transcendentals : Prop :=
  ∀ (p : Bool) (d a : BitVec 7) (r : Rounding),
    let drawn (t : Rounding) (g : Word) : Word := if t = .rsr then drawStep g else g
    let D (t : Rounding) (g : Word) : Nat := if t = .rsr then (drawStep g).toNat else 0
    let fn (f : Fmt) (k : XcFn) (cmp : Bool) (_ x _ : Nat) : FpRes := xcValue f (f == f64) cmp k x
    let rounded (r32 r64 : Nat → Nat → Nat → FpRes) (wide : Bool) (_ : Bool) (z x t : Nat) : FpRes :=
      if wide then r64 z x t else r32 z x t
    let x32 (w : Wave) (t : BitVec 7) (q : Nat) : Nat := (w.rdV t q).toNat
    let x64 (w : Wave) (t : BitVec 7) (q : Nat) : Nat := (w.rdV64 t q).toNat
    ∀ e ∈ ([
      (.vrcpF32 p d a, [.vd d 1, .vs a 1], false, .rne, fn f32 .rcp), (.vrsqF32 p d a, [.vd d 1, .vs a 1], false, .rne, fn f32 .rsq),
      (.vexp2F32 p d a, [.vd d 1, .vs a 1], false, .rne, fn f32 .exp2),
      (.vlog2F32 p d a, [.vd d 1, .vs a 1], false, .rne, fn f32 .log2),
      (.vsinF32 p d a, [.vd d 1, .vs a 1], false, .rne, fn f32 .sin), (.vcosF32 p d a, [.vd d 1, .vs a 1], false, .rne, fn f32 .cos),
      (.vtanhF32 p d a, [.vd d 1, .vs a 1], false, .rne, fn f32 .tanh),
      (.vrcpF64 p d a, [.vd d 2, .vs a 2], true, .rne, fn f64 .rcp), (.vrsqF64 p d a, [.vd d 2, .vs a 2], true, .rne, fn f64 .rsq),
      (.vexp2F64 p d a, [.vd d 2, .vs a 2], true, .rne, fn f64 .exp2),
      (.vlog2F64 p d a, [.vd d 2, .vs a 2], true, .rne, fn f64 .log2),
      (.vsinF64 p d a, [.vd d 2, .vs a 2], true, .rne, fn f64 .sin), (.vcosF64 p d a, [.vd d 2, .vs a 2], true, .rne, fn f64 .cos),
      (.vsqrtF32 p d a r, [.vd d 1, .vs a 1], false, r, rounded (fun _ x t => fpSqrt f32 r x t) (fun _ x t => fpSqrt f64 r x t) false),
      (.vsqrtF64 p d a r, [.vd d 2, .vs a 2], true, r, rounded (fun _ x t => fpSqrt f32 r x t) (fun _ x t => fpSqrt f64 r x t) true),
      (.vdivF32 p d a r, [.vs d 1, .vs a 1], false, r, rounded (fpDiv f32 r) (fpDiv f64 r) false),
      (.vdivF64 p d a r, [.vs d 2, .vs a 2], true, r, rounded (fpDiv f32 r) (fpDiv f64 r) true)] :
        List (Instr × List Opnd × Bool × Rounding × (Bool → Nat → Nat → Nat → FpRes))),
      let regs (w : Wave) : Nat := 4 * (if e.2.2.1 then 2 else 1) * w.active.length
      let parks (w : Wave) : Bool := p || (!w.active.isEmpty && w.lacksRoom (regs w))
      let o (cmp : Bool) (w : Wave) (q : Nat) : FpRes :=
        let t := D e.2.2.2.1 (w.genOf q)
        if e.2.2.1 then e.2.2.2.2 cmp (x64 w d q) (x64 w a q) t else e.2.2.2.2 cmp (x32 w d q) (x32 w a q) t
      ∀ (s : State) (u : Nat) (w : Wave) (b : Block), Ready s u w b (parks w) e.2.1 → w.fore = false →
        let v := w.parked (parks w)
        let flags (q : Nat) : FpFlags := (o (s.cmp b) v q).flags
        (v.active = [] → Performs s (exec e.1 s) u v (v.sets [])) ∧
        (v.active ≠ [] → (∀ q ∈ v.active, flags q &&& v.csr.ftrapen = 0) → Enqueues s (exec e.1 s) u v
          (resultEntry s v (v.active.flatMap fun q =>
            let c := (o (s.cmp b) v q).code
            v.wordRun d q (if e.2.2.1 then [BitVec.ofNat 32 c, BitVec.ofNat 32 (c / 2 ^ 32)] else [BitVec.ofNat 32 c]))
            (flagUnion (v.active.map fun q => (q, flags q))))
          (v.active.map fun q => (q, drawn e.2.2.2.1 (v.genOf q)))) ∧
        ∀ k < 6, v.raisesFirst flags k → exec e.1 s = .next (s.trap u v (v.flagTrap flags k))

/-- The movements of VLANE (05 R150; 17 R376): a source lane's value and scale, from any lane, active or not, and zero from a
position that has no lane. VSELM writes only the active lanes that its mask names. A poisoned source lane that is read
traps, and no other does. The reductions and scans of VLANE (05 R151, R152; 01 R45, R46): over words a reduction is the
sum of the active lanes and a scan the sum up to each lane; over binary32 they are the roots and covers of the tree of
R45, a NaN delivered as the canonical one (01 R28), minimum and maximum with the infinities as identities. A reduction
takes an entry whatever m0 holds; an enabled exception traps with the lanes under the nodes that raised it. That a lone
NaN raises nothing, and that only nodes which an active lane's result takes raise, is the model's reading (log entry 79). -/
def Obligations.LaneMovesAndReductions : Prop :=
  (∀ (p : Bool) (d a b k : BitVec 7),
     let src (w : Wave) (i : Int) : Word × Byte :=
       if 0 ≤ i ∧ i < w.lanes.length then (w.rdV a i.toNat, w.rdE a i.toNat) else (0, 0)
     let bad (w : Wave) (i : Int) : Bool := decide (0 ≤ i ∧ i < w.lanes.length) &&
       (w.regs.vPoison.contains (laneKey (w.phys a 0) i.toNat) || w.regs.ePoison.contains (laneKey (w.phys a 0) i.toNat))
     (∀ e ∈ ([
       (.vshfl p d a b, [.vs b 1], fun w q => ((w.rdV b q).toNat : Int)), (.vshflx p d a k, [], fun _ q => ((q ^^^ k.toNat : Nat) : Int)),
       (.vshflu p d a k, [], fun _ q => (q : Int) - k.toNat), (.vshfld p d a k, [], fun _ q => (q : Int) + k.toNat),
       (.vbcst p d a b, [.sl b 1], fun w _ => ((w.rdS b).toNat : Int))] : List (Instr × List Opnd × (Wave → Nat → Int))),
       Completes e.1 (fun _ => p) ([.vd d 1, .vx a 1, .ex a 1] ++ e.2.1)
         (fun w => w.fore = false ∧ ∀ q ∈ w.active, bad w (e.2.2 w q) = false)
         (fun w => w.sets (w.moved d w.active fun q => src w (e.2.2 w q))) ∧
       Raises e.1 (fun _ => p) ([.vd d 1, .vx a 1, .ex a 1] ++ e.2.1)
         (fun _ _ w _ => w.fore = false ∧ ∃ q ∈ w.active, bad w (e.2.2 w q) = true) (fun s _ _ => ⟨0x06#8, s.ir, 0⟩)) ∧
     (let chosen (w : Wave) : List Nat := w.active.filter fun q => (w.getM b.toNat).getLsbD q
     Completes (.vselm p d a b) (fun _ => p) [.vd d 1, .vx a 1, .ex a 1]
       (fun w => w.fore = false ∧ ∀ q ∈ chosen w, bad w q = false)
       (fun w => w.sets (w.moved d (chosen w) fun q => (w.rdV a q, w.rdE a q))) ∧
     Raises (.vselm p d a b) (fun _ => p) [.vd d 1, .vx a 1, .ex a 1]
       (fun _ _ w _ => w.fore = false ∧ ∃ q ∈ chosen w, bad w q = true) (fun s _ _ => ⟨0x06#8, s.ir, 0⟩))) ∧
  (∀ (p : Bool) (d a : BitVec 7),
     let set (w : Wave) : List Nat := (List.range 64).filter fun q => w.m0.getLsbD q
     let code (w : Wave) (q : Nat) : Option Nat := if w.m0.getLsbD q then some (w.rdV a q).toNat else none
     let under (w : Wave) (log : List (Nat × Nat × FpFlags)) : List (Nat × FpFlags) :=
       log.flatMap fun n => (w.active.filter fun q => decide (n.1 ≤ q ∧ q < n.1 + n.2.1)).map fun q => (q, n.2.2)
     let out (x : Nat) : Word := if (f32.decode x).isNan then 0x7FC00000 else BitVec.ofNat 32 x
     (∀ e ∈ ([
       (.vredaddS32 p d a, fun w => (BitVec.ofNat 32 ((set w).map fun q => (w.rdV a q).toNat).sum, [])),
       (.vredaddF32 p d a, fun w => let t := treeNode (fun x y => fpAdd f32 .rne x y 0) (code w) 6 0
         ((t.val.map out).getD 0, under w t.log)),
       (.vredmaxF32 p d a, fun w => let t := treeNode (fpMinMax f32 true) (code w) 6 0
         ((t.val.map out).getD 0xFF800000, under w t.log)),
       (.vredminF32 p d a, fun w => let t := treeNode (fpMinMax f32 false) (code w) 6 0
         ((t.val.map out).getD 0x7F800000, under w t.log))] :
         List (Instr × (Wave → Word × List (Nat × FpFlags)))),
       ∀ (s : State) (u : Nat) (w : Wave) (b : Block), Ready s u w b (p || w.lacksRoom 4) [.sd d 1, .vs a 1] → w.fore = false →
         let v := w.parked (p || w.lacksRoom 4)
         let raised := (e.2 v).2
         ((∀ q ∈ raised, q.2 &&& v.csr.ftrapen = 0) →
           Enqueues s (exec e.1 s) u v (resultEntry s v [(.s d.toNat, (e.2 v).1)] (flagUnion raised)) []) ∧
         ∀ k < 6, v.csr.ftrapen.getLsbD k = true → (∃ q ∈ raised, q.2.getLsbD k = true) →
           (∀ j < k, v.csr.ftrapen.getLsbD j = true → ∀ q ∈ raised, q.2.getLsbD j = false) →
           exec e.1 s = .next (s.trap u v
             ⟨BitVec.ofNat 8 (9 + k), (flagLanes k raised).extractLsb' 0 32, (flagLanes k raised).extractLsb' 32 32⟩)) ∧
     Completes (.vscanS32 p d a) (fun _ => p) [.vd d 1, .vs a 1] (fun w => w.fore = false)
       (fun w => w.sets (w.inLanes d fun q => BitVec.ofNat 32 (((set w).filter fun i => i ≤ q).map fun i => (w.rdV a i).toNat).sum)) ∧
     let steps (w : Wave) (q : Nat) := scanAt (fun x y => fpAdd f32 .rne x y 0) (code w) q
     let raised (w : Wave) : List (Nat × FpFlags) := w.active.flatMap fun q => (q, (steps w q).2.2) :: under w (steps w q).2.1
     Completes (.vscanF32 p d a) (fun _ => p) [.vd d 1, .vs a 1]
       (fun w => w.fore = false ∧ ∀ x ∈ raised w, x.2 &&& w.csr.ftrapen = 0)
       (fun w => { w.sets (w.inLanes d fun q => out ((steps w q).1.getD 0)) with flags := flagUnion (raised w) }) ∧
     ∀ k < 6, Raises (.vscanF32 p d a) (fun _ => p) [.vd d 1, .vs a 1]
       (fun _ _ w _ => w.fore = false ∧ w.csr.ftrapen.getLsbD k = true ∧ (∃ x ∈ raised w, x.2.getLsbD k = true) ∧
         ∀ j < k, w.csr.ftrapen.getLsbD j = true → ∀ x ∈ raised w, x.2.getLsbD j = false)
       fun _ w _ =>
         ⟨BitVec.ofNat 8 (9 + k), (flagLanes k (raised w)).extractLsb' 0 32, (flagLanes k (raised w)).extractLsb' 32 32⟩)

/-- VPACK (05 R154 to R157): the integer dot products with ZPAIR's zero points, the floating dot products with one rounding of
an exact sum, the unpacks, and the moves of scales, a NaN scale staying one under VEADD. VMX (05 R158 to R162; 01 R47 to
R51): a block of 32 registers requantised to packed elements with their scale in every scale register of the run, or to
grouped integers with their parameter word; the block's largest magnitude; the Hadamard transforms. The free bits that a
stochastic rounding draws follow the lane generators. -/
def Obligations.PackedAndBlocks : Prop :=
  (∀ (p : Bool) (d a b : BitVec 7),
     (∀ e ∈ ([
       (.vdp4s p d a b, 4, fun x => (x.setWidth 4).toInt), (.vdp4z p d a b, 4, fun x => (x.toNat % 16 : Int)),
       (.vdp8s p d a b, 8, fun x => (x.setWidth 8).toInt), (.vdp8z p d a b, 8, fun x => (x.toNat % 256 : Int))] :
         List (Instr × Nat × (Word → Int))),
       Completes e.1 (fun _ => p) [.vs d 1, .vs a 1, .vs b 1] (fun w => w.fore = false) fun w =>
         w.sets (w.inLanes d fun q =>
           let zA := e.2.2 (w.csr.zpair.setWidth 32)
           let zB := e.2.2 ((w.csr.zpair >>> 8).setWidth 32)
           w.rdV d q + BitVec.ofInt 32 ((List.range (32 / e.2.1)).map fun i =>
             (e.2.2 (w.rdV a q >>> (e.2.1 * i)) - zA) * (e.2.2 (w.rdV b q >>> (e.2.1 * i)) - zB)).sum)) ∧
     (∀ e ∈ ([(.vdpf4 p d a b, 4, fun w c => if c = 8 then e4m3.decode w.csr.cza.toNat else e2m1.decode c),
         (.vdpf8a p d a b, 8, fun _ c => e4m3.decode c), (.vdpf8b p d a b, 8, fun _ c => e5m2.decode c)] :
         List (Instr × Nat × (Wave → Nat → FVal))),
       Delivers e.1 p [.vs d 1, .vs a 1, .vs b 1] fun w q =>
         let elem (t : BitVec 7) (i : Nat) : FVal := e.2.2 w ((w.rdV t q).toNat / 2 ^ (e.2.1 * i) % 2 ^ e.2.1)
         let o := accumulate f32 (w.rdV d q).toNat (ExSum.sum ((List.range (32 / e.2.1)).map fun i => (elem a i, elem b i)))
         ⟨w.wordRun d q [BitVec.ofNat 32 o.code], o.flags, w.genOf q⟩) ∧
     (∀ e ∈ ([(.vunpk4l p d a, 4, 0), (.vunpk4h p d a, 4, 16), (.vunpk6 p d a, 6, 0)] : List (Instr × Nat × Nat)),
       Completes e.1 (fun _ => p) [.vd d 1, .vs a 1, .es a 1] (fun w => w.fore = false) fun w =>
         w.sets (w.moved d w.active fun q => (BitVec.ofNat 32 ((List.range 4).map fun k =>
           (w.rdV a q).toNat / 2 ^ (e.2.2 + e.2.1 * k) % 2 ^ e.2.1 * 2 ^ (8 * k)).sum, w.rdE a q))) ∧
     (∀ e ∈ ([
       (.veset p d b, [.ed d 1, .sl b 1], fun w _ => (w.rdS b).setWidth 8), (.vemov p d a, [.ed d 1, .es a 1], fun w q => w.rdE a q),
       (.veadd p d a b, [.ed d 1, .es a 1, .vs b 1], fun w q => if w.rdE a q = 0xFF then 0xFF
         else BitVec.ofInt 8 (max 0 (min (((w.rdE a q).toNat : Int) + (w.rdV b q).toInt) 254)))] :
         List (Instr × List Opnd × (Wave → Nat → Byte))),
       Completes e.1 (fun _ => p) e.2.1 (fun w => w.fore = false) fun w =>
         w.sets (w.active.flatMap fun q => w.scaleRun d q 1 (e.2.2 w q))) ∧
     Completes (.veget p d a) (fun _ => p) [.vd d 1, .es a 1] (fun w => w.fore = false) fun w =>
       w.sets (w.inLanes d fun q => (w.rdE a q).setWidth 32)) ∧
  (∀ (p c8 : Bool) (d a : BitVec 7) (h : HadOpt) (r : RqRound),
     let block (w : Wave) (n q : Nat) : List Nat := (List.range n).map fun k => (w.rdVk a k q).toNat
     (∀ e ∈ ([
       (.rqntE2m1 p d a c8 h r, 4, fun w x g => requantise e2m1 true false x r h (if c8 then some w.csr.cza else none) g),
       (.rqntE2m3 p d a h r, 6, fun _ x g => requantise e2m3 false false x r h none g),
       (.rqntE3m2 p d a h r, 6, fun _ x g => requantise e3m2 false false x r h none g),
       (.rqntE4m3 p d a h r, 8, fun _ x g => requantise e4m3 false false x r h none g),
       (.rqntE5m2 p d a h r, 8, fun _ x g => requantise e5m2 false true x r h none g)] :
         List (Instr × Nat × (Wave → List Nat → Word → MxBlock))),
       Delivers e.1 p [.vd d e.2.1, .vs a 32] fun w q =>
         let o := e.2.2 w (block w 32 q) (w.genOf q)
         ⟨w.wordRun d q (packBits e.2.1 o.codes e.2.1) ++ w.scaleRun d q e.2.1 (BitVec.ofNat 8 o.scale), o.flags, o.gen⟩) ∧
     (∀ e ∈ ([(.rqntg4 p d a h r, 4, 7), (.rqntg8 p d a h r, 8, 127)] : List (Instr × Nat × Nat)),
       Delivers e.1 p [.vd d (e.2.1 + 1), .vs a 32] fun w q =>
         let o := requantiseGroup e.2.2 (block w 32 q) r h (w.genOf q)
         ⟨w.wordRun d q (packBits e.2.1 (o.codes.map fun i => (BitVec.ofInt e.2.1 i).toNat) e.2.1 ++ [o.param])
           ++ w.scaleRun d q e.2.1 0x7F, o.flags, o.gen⟩) ∧
     (Delivers (.vebmax p d a) p [.vd d 1, .vs a 32] fun w q =>
       ⟨w.wordRun d q [BitVec.ofNat 32 (blockMax (block w 32 q)).code], (blockMax (block w 32 q)).flags, w.genOf q⟩) ∧
     ∀ e ∈ ([(.vhad16 p d a, 4), (.vhad32 p d a, 5)] : List (Instr × Nat)),
       Delivers e.1 p [.vd d (2 ^ e.2), .vs a (2 ^ e.2)] fun w q =>
         ⟨w.wordRun d q ((hadamard e.2 (block w (2 ^ e.2) q)).1.map (BitVec.ofNat 32)), (hadamard e.2 (block w (2 ^ e.2) q)).2,
           w.genOf q⟩)

/-! ## Memory instructions -/

/-- VLD (07 R190 to R193): where every lane's address passes its checks, one return-buffer entry for all active lanes and one
load per lane; memory and registers are as they were. The first lane in order whose check fails traps. Outside the counter
window a global address passes where it is a multiple of the width. VST (07 R190 to R192, R194): where every lane's
address passes its checks, one store per active lane, with the bytes of its registers in little-endian order; of several
lanes that write one address, only the highest stores. Which lane's check comes first is the model's reading (log entry
22). -/
def Obligations.VectorMemory : Prop :=
  (∀ (p : Bool) (d a b : BitVec 7) (m : AddrMode),
     let addrOps : List Opnd := match m with
       | .base => [.sl a 2, .vs b 1] | .pair => [.vs a 2] | .scratch => [.vs a 1] | .scratchBase => [.sl a 1, .vs b 1]
     let glob : Bool := m = .base ∨ m = .pair
     ∀ e ∈ ([(.vldB8 p d a b m, 1, 1, false, false), (.vldS8 p d a b m, 1, 1, true, false), (.vldB16 p d a b m, 2, 1, false, false),
         (.vldS16 p d a b m, 2, 1, true, false), (.vldW32 p d a b m, 4, 1, false, false), (.vldW64 p d a b m, 8, 2, false, false),
         (.vldW128 p d a b m, 16, 4, false, false), (.vldE p d a b m, 1, 1, false, true)] :
         List (Instr × Nat × Nat × Bool × Bool)),
       let (i, size, regs, signed, side) := e
       let dests (w : Wave) (q : Nat) : List Elem :=
         if side then [.e (laneKey (w.phys d 0) q)] else (List.range regs).map fun k => .v (laneKey (w.phys d k) q)
       let check (s : State) (w : Wave) (blk : Block) (q : Nat) : Option Trap :=
         checkAddr s (s.ctxD blk) blk glob (size = 4 && !side) true side size (laneAddr m w a b q) q
       let parks (w : Wave) : Bool := p || (!w.active.isEmpty && w.lacksRoom (4 * regs * w.active.length))
       ∀ (s s1 : State) (u : Nat) (w : Wave) (blk : Block),
         Ready s u w blk (parks w) ((if side then .ed d 1 else .vd d regs) :: addrOps) → w.fore = false →
         let v := w.parked (parks w)
         let access (q : Nat) : Access := mkAccess s blk glob side size (laneAddr m v a b q)
         ((∀ q ∈ v.active, check s v blk q = none) → scratchConflict s u blk (v.active.map access) true false none = some s1 →
           exec i s = .next (if v.active = [] then { s1.setWave u v.next with blocked := [] } else
             { State.withOps { s1.setWave u (v.awaits
                 (pendingEntry s v (v.active.flatMap (dests v)) (4 * regs * v.active.length) v.active.length)) with
                 fresh := s1.fresh + 1 } u v blk
                 (v.active.map fun q => .load (access q) (dests v q) signed s.fresh) with blocked := [] })) ∧
         (∀ q ∈ v.active, ∀ t, check s v blk q = some t → (∀ r ∈ v.active, r < q → check s v blk r = none) →
           exec i s = .next (s.trap u v t)) ∧
         (glob = true → side = false → ∀ q, inWindow (laneAddr m v a b q) = false →
           check s v blk q = if laneAddr m v a b q % size = 0 then none else some (misalignTrap (laneAddr m v a b q) false q))) ∧
  (∀ (p : Bool) (d a b : BitVec 7) (m : AddrMode),
     let addrOps : List Opnd := match m with
       | .base => [.sl a 2, .vs b 1] | .pair => [.vs a 2] | .scratch => [.vs a 1] | .scratchBase => [.sl a 1, .vs b 1]
     let glob : Bool := m = .base ∨ m = .pair
     ∀ e ∈ ([(.vstB8 p d a b m, 1, 1, false), (.vstB16 p d a b m, 2, 1, false), (.vstW32 p d a b m, 4, 1, false),
         (.vstW64 p d a b m, 8, 2, false), (.vstW128 p d a b m, 16, 4, false), (.vstE p d a b m, 1, 1, true)] :
         List (Instr × Nat × Nat × Bool)),
       let (i, size, regs, side) := e
       let data (w : Wave) (q : Nat) : List Byte := (List.range size).map fun k =>
         if side then w.rdE d q else (w.rdVk d (k / 4) q >>> (8 * (k % 4))).setWidth 8
       let check (s : State) (w : Wave) (blk : Block) (q : Nat) : Option Trap :=
         checkAddr s (s.ctxD blk) blk glob false false side size (laneAddr m w a b q) q
       ∀ (s s1 : State) (u : Nat) (w : Wave) (blk : Block),
         Ready s u w blk p ((if side then .es d 1 else .vs d regs) :: addrOps) → w.fore = false →
         let v := w.parked p
         let stores : List Nat := v.active.filter fun q =>
           !v.active.any fun r => decide (q < r) && laneAddr m v a b r == laneAddr m v a b q
         let access (q : Nat) : Access := mkAccess s blk glob side size (laneAddr m v a b q)
         ((∀ q ∈ v.active, check s v blk q = none) → scratchConflict s u blk (stores.map access) false true none = some s1 →
           exec i s = .next { State.withOps (s1.setWave u v.next) u v blk (stores.map fun q => .store (access q) (data v q)) with
             blocked := [] }) ∧
         (∀ q ∈ v.active, ∀ t, check s v blk q = some t → (∀ r ∈ v.active, r < q → check s v blk r = none) →
           exec i s = .next (s.trap u v t)))

/-- VATOM and FADDO (07 R198 to R201): one atomic per active lane with the lane's operands, its use and its scope (block scope
on a partner's scratch being cluster scope, 07 R199), and, unless it returns nothing, one entry for the old values; FADDO,
where the overflow list has room, one contribution per lane, numbered by its lane and its physical word, which it fixes at
issue where the page is mapped (12 R302, R303); of an unmapped page it counts by the virtual address (log entry 42). The
core then reaches no older face of the pages it named (12 R309). Every VATOM of global memory is illegal at check 4 in a
replay-safe record, whatever its operands (17 R380). SMEM (07 R196, R197), which a forerunner may run too: the address is
the pair's plus four times the signed offset; a load takes an entry of n scalar registers, a store their bytes, SAADD and
SACAS an entry for the old value; in a replay-safe record those two are illegal at check 4 (17 R380). Which lane's check
comes first is the model's reading (log entry 22). -/
def Obligations.AtomicAndScalarMemory : Prop :=
  (∀ (p : Bool) (d a : BitVec 7) (n : Bool) (sc : Scope) (use : AtomUse) (x : Bool),
     let addrOps : List Opnd := if x then [.vs a 1] else [.vs a 2]
     let mode : AddrMode := if x then .scratch else .pair
     (∀ e ∈ ([(.vatomAdd32 p d a n sc use x, .add32, 4, 1), (.vatomAdd64 p d a n sc use x, .add64, 8, 2),
         (.vatomMinS32 p d a n sc use x, .minS32, 4, 1), (.vatomMaxS32 p d a n sc use x, .maxS32, 4, 1),
         (.vatomAnd p d a n sc use x, .and, 4, 1), (.vatomOr p d a n sc use x, .or, 4, 1), (.vatomXor p d a n sc use x, .xor, 4, 1),
         (.vatomXch32 p d a n sc use x, .xch32, 4, 1), (.vatomXch64 p d a n sc use x, .xch64, 8, 2),
         (.vatomCas32 p d a n sc use x, .cas32, 4, 2), (.vatomCas64 p d a n sc use x, .cas64, 8, 4),
         (.vatomFadd32 p d a n sc use x, .fadd32, 4, 1), (.vatomFadd64 p d a n sc use x, .fadd64, 8, 2),
         (.vatomIncw p d a n sc use x, .incw, 4, 1)] : List (Instr × AtomOp × Nat × Nat)),
       let (i, op, size, regs) := e
       let operand (w : Wave) (q k : Nat) : Nat :=
         if size = 8 then (w.rdVk d (2 * k + 1) q ++ w.rdVk d (2 * k) q).toNat else (w.rdVk d k q).toNat
       let second (w : Wave) (q : Nat) : Nat := if op = .cas32 ∨ op = .cas64 then operand w q 1 else 0
       let dests (w : Wave) (q : Nat) : List Elem :=
         if n then [] else (List.range (size / 4)).map fun k => .v (laneKey (w.phys d k) q)
       let signals : Bool := op = .add32 ∧ use = .commutative ∧ n = true ∧ (sc = .device ∨ sc = .system)
       let comm : Option Nat := if use = .commutative ∧ op ≠ .fadd32 ∧ op ≠ .fadd64 then some 0 else none
       let parks (w : Wave) : Bool := p || (!n && !w.active.isEmpty && w.lacksRoom (size * w.active.length))
       ∀ (s s1 : State) (u : Nat) (w : Wave) (blk : Block), Ready s u w blk (parks w) (.vs d regs :: addrOps) →
         w.fore = false → (x = false → blk.rsafe = false) →
         let v := w.parked (parks w)
         let access (q : Nat) : Access := mkAccess s blk (!x) false size (laneAddr mode v a 0 q)
         (∀ q ∈ v.active, checkAddr s (s.ctxD blk) blk (!x) signals false false size (laneAddr mode v a 0 q) q = none) →
         scratchConflict s u blk (v.active.map access) true true comm = some s1 →
         exec i s = .next { State.withOps { s1.setWave u (if n || v.active.isEmpty then v.next else v.awaits
             (pendingEntry s v (v.active.flatMap (dests v)) (size * v.active.length) v.active.length)) with
             fresh := s1.fresh + 1 } u v blk
             (v.active.map fun q => .atomic (access q) op (operand v q 0) (second v q) (dests v q)
               (if n then none else some s.fresh) use
               (if sc = .block ∧ (access q).glob = false ∧ (access q).block ≠ blk.uid then .cluster else sc)) with blocked := [] }) ∧
     (x = false → ∀ r ∈ ([(.vatomAdd32 p d a n sc use x, 4), (.vatomAdd64 p d a n sc use x, 8), (.vatomMinS32 p d a n sc use x, 4),
         (.vatomMaxS32 p d a n sc use x, 4), (.vatomAnd p d a n sc use x, 4), (.vatomOr p d a n sc use x, 4),
         (.vatomXor p d a n sc use x, 4), (.vatomXch32 p d a n sc use x, 4), (.vatomXch64 p d a n sc use x, 8),
         (.vatomCas32 p d a n sc use x, 4), (.vatomCas64 p d a n sc use x, 8), (.vatomFadd32 p d a n sc use x, 4),
         (.vatomFadd64 p d a n sc use x, 8), (.vatomIncw p d a n sc use x, 4)] : List (Instr × Nat)),
       Raises r.1 (fun w => p || (!n && !w.active.isEmpty && w.lacksRoom (r.2 * w.active.length))) []
         (fun s _ w _ => w.fore = false ∧ ∃ k, s.block w.block = some k ∧ k.rsafe = true) fun s _ _ => ⟨0x01#8, s.ir, 4⟩) ∧
     (∀ e ∈ ([(.vatomFaddo32 p d a n sc use x, false), (.vatomFaddo64 p d a n sc use x, true)] : List (Instr × Bool)),
       let size : Nat := if e.2 then 8 else 4
       ∀ (s : State) (u : Nat) (w : Wave) (blk : Block), Ready s u w blk p [.vs d (if e.2 then 2 else 1), .vs a 2] → w.fore = false →
         let v := w.parked p
         let word (q : Nat) : Option Nat := match walk s (s.ctxD blk) (laneAddr .pair v a 0 q) true true with
           | .ok e => some (e.phys (laneAddr .pair v a 0 q))
           | _ => none
         let loc (q : Nat) : Nat := faddoLoc (word q) (laneAddr .pair v a 0 q)
         (∀ q ∈ v.active, checkAddr s (s.ctxD blk) blk true false false false size (laneAddr .pair v a 0 q) q = none) →
         faddoRoom s blk v.active.length = true → (v.active.map fun q => v.lanes.getD q 0).Nodup →
         ∃ v' s', { s' with cores := s.cores, tlb2 := s.tlb2 } = s ∧
           (∀ k, { s'.core k with tlb := (s.core k).tlb } = s.core k) ∧
           ((∀ q ∈ v.active, ∀ e, walk s (s.ctxD blk) (laneAddr .pair v a 0 q) true true = .ok e → e.shadow = none) → s' = s) ∧
           (∀ q ∈ v.active, ∀ e, walk s (s.ctxD blk) (laneAddr .pair v a 0 q) true true = .ok e → e.shadow.isSome = true →
             e ∈ (s'.core (u / 64)).tlb) ∧
           exec e.1 s = .next { State.withOps (s'.setWave u v') u v blk (v.active.map fun q =>
             .faddo (laneAddr .pair v a 0 q) (word q) e.2 (if e.2 then (v.rdV64 d q).toNat else (v.rdV d q).toNat) blk.index
               (v.lanes.getD q 0) (faddoCount v (v.lanes.getD q 0) (loc q))) with blocked := [] } ∧
           { v' with faddoN := v.faddoN } = v.next ∧
           ∀ q k, faddoCount v' q k = faddoCount v q k +
             if v.active.any (fun r => v.lanes.getD r 0 = q && loc r = k) then 1 else 0)) ∧
  (∀ (p : Bool) (d a : BitVec 7) (i : BitVec 9),
     let addr (w : Wave) : Nat := (w.rdS64 a + i.signExtend 64 * 4).toNat
     let dests (n : Nat) : List Elem := (List.range n).map fun k => .s (d.toNat + k)
     (∀ e ∈ ([(.sld32 p d a i, 1), (.sld64 p d a i, 2), (.sld128 p d a i, 4)] : List (Instr × Nat)),
       Answers e.1 (fun w => p || w.lacksRoom (4 * e.2)) [.sd d e.2, .ss a 2]
         (fun s _ w b => checkAddr s (s.ctxD b) b true (e.2 = 1) true false (4 * e.2) (addr w) 0 = none)
         (fun s u w b => State.withOps { s.setWave u (w.awaits (pendingEntry s w (dests e.2) (4 * e.2) 1)) with
           fresh := s.fresh + 1 } u w b [.load ⟨true, 0, addr w, 4 * e.2, false⟩ (dests e.2) false s.fresh])) ∧
     (∀ e ∈ ([(.sst32 p d a i, 1), (.sst64 p d a i, 2), (.sst128 p d a i, 4)] : List (Instr × Nat)),
       Answers e.1 (fun _ => p) [.ss d e.2, .ss a 2]
         (fun s _ w b => checkAddr s (s.ctxD b) b true false false false (4 * e.2) (addr w) 0 = none)
         (fun s u w b => State.withOps (s.setWave u w.next) u w b [.store ⟨true, 0, addr w, 4 * e.2, false⟩
           ((List.range (4 * e.2)).map fun k => (w.rdSk d (k / 4) >>> (8 * (k % 4))).setWidth 8)]) ∧
       Raises e.1 (fun _ => p) [.ss d e.2, .ss a 2] (fun _ _ w _ => inWindow (addr w) = false ∧ addr w % (4 * e.2) ≠ 0)
         (fun _ w _ => ⟨0x03#8, BitVec.ofNat 32 (addr w), BitVec.ofNat 25 (addr w / 2 ^ 32) ++ 0#1 ++ 0#6⟩)) ∧
     ∀ e ∈ ([(.saadd p d a i, .add32, 1), (.sacas p d a i, .cas32, 2)] : List (Instr × AtomOp × Nat)),
       Answers e.1 (fun w => p || w.lacksRoom 4) [.ss d e.2.2, .ss a 2]
         (fun s _ w b => (∀ k, s.block w.block = some k → k.rsafe = false) ∧
           checkAddr s (s.ctxD b) b true false false false 4 (addr w) 0 = none)
         (fun s u w b => State.withOps { s.setWave u (w.awaits (pendingEntry s w (dests 1) 4 1)) with fresh := s.fresh + 1 } u w b
           [.atomic ⟨true, 0, addr w, 4, false⟩ e.2.1 (w.rdS d).toNat (w.rdSk d 1).toNat (dests 1) (some s.fresh) .acqRel .device]) ∧
       Raises e.1 (fun w => p || w.lacksRoom 4) [] (fun s _ w _ => ∃ k, s.block w.block = some k ∧ k.rsafe = true)
         (fun s _ _ => ⟨0x01#8, s.ir, 4⟩))

/-- A load that its wave's order lets be performed (07 R188, R193, R195; 12 R292, R294, R298): with a translated address, from
memory's bytes, or its sideband byte on an MX page, or from a live leased copy in its core's L1, unless the page's class
holds none; from scratch, its lines full, the block's bytes. The destinations' values reach the wave's entry; memory,
registers and other operations are as they were, but that one which a full line let go is an acquire and observes (07
R216; 21 R430, log entry 86). One that meets poison, or an address that is malformed or whose fault was answered FAIL,
fails its entry and leaves the wave a deferred POISON or PAGE (07 R195; 17 R364, R374); one that meets a replayable fault
parks on a translation-fault record, the page's own or a new one that is posted (17 R364). A store that its wave's order
lets be performed (07 R184, R194; 12 R295): its bytes are written at the physical address of its virtual one, every other
byte of memory is as it was, and its operation is gone; a sideband store writes one sideband byte of an MX page; a scratch
store writes its block's scratch and no memory. -/
def Obligations.LoadsAndStoresPerform : Prop :=
  (∀ (s : State) (id : Nat) (copy tlb : Bool) (o : Op) (a : Access) (dst : List Elem) (signed : Bool) (entry : Nat),
     s.op id = some o → o.kind = .load a dst signed entry → inOrder s o = true → a.size ≤ 16 → (signed = true → 0 < a.size) →
     let delivered (t : State) (n : Nat) : Prop :=
       t.mem = s.mem ∧ t.side = s.side ∧ t.ops = s.ops.filter (fun x => x.id ≠ id) ∧
       ∀ v w, s.wave v = some w → t.wave v = some { w with
         seen := if w.owns o.owner && o.acquires then max w.seen (s.blockHorizon w.block) else w.seen
         rb := if w.uid = o.owner then w.rb.map fun en =>
           if en.seq = entry then { en with
             vals := en.vals ++ (if a.size < 4 then dst.map fun x => (x, if signed ∧ 2 ^ (8 * a.size - 1) ≤ n
                 then BitVec.ofInt 32 (n - 2 ^ (8 * a.size)) else BitVec.ofNat 32 n)
               else dst.zipIdx.map fun x => (x.1, BitVec.ofNat 32 (n / 2 ^ (32 * x.2))))
             waiting := en.waiting - 1 } else en else w.rb }
     let failed (t : State) (cause : BitVec 8) (addr : Nat) (scratch : Bool) : Prop :=
       t.mem = s.mem ∧ t.side = s.side ∧ t.ops = s.ops.filter (fun x => x.id ≠ id) ∧
       ∀ v w, s.wave v = some w → w.uid = o.owner → (∀ k ∈ s.waves, k.2.owns o.owner = true → k = (v, w)) →
         t.wave v = some { w with
           deferred := w.deferred ++ [⟨cause, addr, scratch, o.pc, o.id⟩]
           rb := w.rb.map fun en => if en.seq = entry then { en with failed := true, waiting := en.waiting - 1 } else en }
     (∀ (x : Context) (s1 s2 : State) (e : TlbEntry), a.glob = true → inWindow a.addr = false → s.ctx o.ctx = some x →
       a.addr / 4096 ∉ o.denied → translate s o.core x a.addr true false tlb = (s1, .ok e) → (a.side = true → e.mx = true) →
       s1.recordGlobal o (e.phys a.addr) a.mask true false none = some s2 →
       let pa := e.phys a.addr
       let live (l : L1Line) : Prop :=
         copy = true ∧ 1 ≤ e.lease ∧ e.lease ≤ 3 ∧ (s.core o.core).l1.find (pa / 128) = some l ∧ s.pt < l.expiry
       let poisoned : Bool := s.poisoned (if a.side then pa / 128 * 128 else pa) (if a.side then 1 else a.size)
       let spoilt (l : L1Line) : Bool :=
         if a.side then l.poison.contains 0 else (List.range a.size).any fun i => l.poison.contains ((pa % 128 + i) / 32)
       ∃ t, exec (.loadPerform id copy tlb) s = .next t ∧
         ((∀ l, ¬live l) → poisoned = false →
           delivered t (if a.side then (s.side.get 0 (pa / 128 * 8 + pa % 8)).toNat else s.readNat pa a.size)) ∧
         ((∀ l, ¬live l) → poisoned = true → failed t 0x06 a.addr false) ∧
         ∀ l, live l → (spoilt l = false → delivered t (if a.side then (l.side.getD (pa % 8) 0).toNat
             else leNat ((List.range a.size).map fun i => l.data.getD (pa % 128 + i) 0))) ∧
           (spoilt l = true → failed t 0x06 a.addr false)) ∧
     (∀ (x : Context) (s1 : State) (r : Xlate), a.glob = true → inWindow a.addr = false → s.ctx o.ctx = some x →
       translate s o.core x a.addr true false tlb = (s1, r) →
       (a.addr / 4096 ∈ o.denied ∨ r = .malformed → ∃ t, exec (.loadPerform id copy tlb) s = .next t ∧ failed t 0x05 a.addr false) ∧
       (a.addr / 4096 ∉ o.denied → r = .notPresent ∨ r = .permission → s.parkedIn (o.core / 32) + 1 < 512 →
         let same (f : FaultRecord) : Bool :=
           f.asid = x.asid.toNat && f.page = a.addr / 4096 && !f.write && !f.fetch && !f.engine
         ∃ t token, exec (.loadPerform id copy tlb) s = .next t ∧ t.mem = s.mem ∧ t.waves = s.waves ∧
           t.op id = some { o with parked := some token } ∧
           (∀ f, s.faults.find? same = some f → token = f.token ∧
             t.faults = s.faults.map fun g => if g.token = f.token then { g with merged := g.merged + 1 } else g) ∧
           ((∀ f ∈ s.faults, same f = false) → token = s.fresh ∧ t.fresh = s.fresh + 1 ∧
             t.faults = s.faults ++ [⟨token, o.ctx, x.asid.toNat, a.addr / 4096, false, false, false, 1⟩] ∧
             (s.eventRoom (o.core / 32) 1 = true → ∃ ev : Event, ev.cls = 1 ∧ ev.sub = (if r = .permission then 1 else 0) ∧
               ev.a0 = BitVec.ofNat 64 a.addr ∧ ev.a1.toNat % 2 ^ 32 = token % 2 ^ 32 ∧
               (t.eventQ = s.eventQ ++ [ev] ∨ (t.dieEv.get DieEvents.empty (o.core / 32)).buffer =
                 (s.dieEv.get DieEvents.empty (o.core / 32)).buffer ++ [ev]))))) ∧
     ∀ (b : Block), a.glob = false → s.block a.block = some b →
       (∀ k < (if a.side then 1 else a.size), (b.lineFE ((a.addr + k) / 128)).full = true) →
       let poisoned : Bool := if a.side then b.sidePoisoned (a.addr / 128) else b.poisoned a.addr a.size
       ∃ t, exec (.loadPerform id copy tlb) s = .next t ∧
         (poisoned = false →
           delivered t (if a.side then (b.side.get 0 (8 * (a.addr / 128) + a.addr % 8)).toNat else leNat (b.read a.addr a.size))) ∧
         (poisoned = true → failed t 0x06 (2 ^ 20 * b.rank + a.addr) true)) ∧
  (∀ (s : State) (id : Nat) (tlb : Bool) (o : Op) (a : Access) (data : List Byte),
     s.op id = some o → o.kind = .store a data → inOrder s o = true → a.addr / 4096 ∉ o.denied →
     (∀ (x : Context) (s1 s2 : State) (e : TlbEntry), a.glob = true → s.ctx o.ctx = some x →
       translate s o.core x a.addr false true tlb = (s1, .ok e) → (a.side = true → e.mx = true) →
       s1.recordGlobal o (e.phys a.addr) a.mask false true none = some s2 → e.phys a.addr + data.length ≤ 2 ^ 52 →
       ∃ t, exec (.storePerform id tlb) s = .next t ∧ t.ops = s.ops.filter (fun y => y.id ≠ id) ∧
         (a.side = false → t.side = s.side ∧ (∀ i (h : i < data.length), t.byteAt (e.phys a.addr + i) = data[i]) ∧
           ∀ y < 2 ^ 52, y < e.phys a.addr ∨ e.phys a.addr + data.length ≤ y → t.byteAt y = s.byteAt y) ∧
         (a.side = true → t.mem = s.mem ∧ ∀ k, t.side.get 0 k =
           if k = e.phys a.addr / 128 * 8 + e.phys a.addr % 8 then data.headD 0 else s.side.get 0 k)) ∧
     ∀ b : Block, a.glob = false → s.block a.block = some b → b.uid = a.block →
       ∃ t b', exec (.storePerform id tlb) s = .next t ∧ t.ops = s.ops.filter (fun y => y.id ≠ id) ∧ t.mem = s.mem ∧
         t.block a.block = some b' ∧
         (a.side = false → b'.side = b.side ∧ ∀ k, b'.data.get 0 k =
           if a.addr ≤ k ∧ k < a.addr + data.length then data.getD (k - a.addr) 0 else b.data.get 0 k) ∧
         (a.side = true → b'.data = b.data ∧ ∀ k, b'.side.get 0 k =
           if k = 8 * (a.addr / 128) + a.addr % 8 then data.headD 0 else b.side.get 0 k))

/-- An atomic that its wave's order lets be performed (07 R198 to R201; 12 R300 to R303), one that returns the old value or
not: it reads the old value, writes the new one in the same step (a compare and swap only where they agree) and no other
byte, of memory or of its block's scratch, and the old value reaches the wave's entry where there is one. Combined with
another floating-point addition it adds their sum, rounded once, and both are performed (12 R301). FADDO's contribution is
queued in its record, with the physical word that it fixed at issue, or else its page's now. -/
def Obligations.AtomicsPerform : Prop :=
  ∀ (s : State) (id : Nat) (tlb : Bool) (others : List Nat) (o : Op) (x : Context) (s1 s2 : State) (e : TlbEntry),
    s.op id = some o → inOrder s o = true → s.ctx o.ctx = some x →
    (∀ r ∈ ([(.add32, fun m v _ => (m + v) % 2 ^ 32), (.add64, fun m v _ => (m + v) % 2 ^ 64),
        (.minS32, fun m v _ => if (BitVec.ofNat 32 m).toInt ≤ (BitVec.ofNat 32 v).toInt then m else v),
        (.maxS32, fun m v _ => if (BitVec.ofNat 32 v).toInt ≤ (BitVec.ofNat 32 m).toInt then m else v),
        (.and, fun m v _ => m &&& v), (.or, fun m v _ => m ||| v), (.xor, fun m v _ => m ^^^ v), (.xch32, fun _ v _ => v),
        (.xch64, fun _ v _ => v), (.cas32, fun m v w => if m = v then w else m), (.cas64, fun m v w => if m = v then w else m),
        (.fadd32, fun m v _ => (fpAdd f32 .rne m v 0).code), (.fadd64, fun m v _ => (fpAdd f64 .rne m v 0).code),
        (.incw, fun m v _ => if v ≤ m then 0 else m + 1)] : List (AtomOp × (Nat → Nat → Nat → Nat))),
      ∀ (a : Access) (v w : Nat) (entry : Option Nat) (dst : List Elem) (use : AtomUse) (sc : Scope),
        o.kind = .atomic a r.1 v w dst entry use sc →
        (others.eraseDups.filterMap s.op).filter (combines s o) = [] → a.size = (if r.1 = .add64 ∨ r.1 = .xch64 ∨ r.1 = .cas64 ∨
          r.1 = .fadd64 then 8 else 4) →
        let results (k : Wave) (m : Nat) : List Entry := match entry with
          | none => k.rb
          | some n => k.rb.map fun en => if en.seq = n then { en with
              vals := en.vals ++ dst.zipIdx.map fun y => (y.1, BitVec.ofNat 32 (m / 2 ^ (32 * y.2)))
              waiting := en.waiting - 1 } else en
        (a.glob = true → a.addr / 4096 ∉ o.denied → inWindow a.addr = false →
          translate s o.core x a.addr true true tlb = (s1, .ok e) → use ≠ .speculative ∨ x.compulsory = true →
          s1.recordGlobal o (e.phys a.addr) (wordMask (e.phys a.addr) a.size) true true
            ((r.1.commTag use).map fun t => (t, if r.1 = .incw then v else 0)) = some s2 →
          (entry = none ∨ s.poisoned (e.phys a.addr) a.size = false) → e.phys a.addr + a.size ≤ 2 ^ 52 →
          let m := s.readNat (e.phys a.addr) a.size
          ∃ t, exec (.atomicPerform id ⟨tlb, others⟩) s = .next t ∧ t.ops = s.ops.filter (fun y => y.id ≠ id) ∧ t.side = s.side ∧
            (∀ i < a.size, t.byteAt (e.phys a.addr + i) = BitVec.ofNat 8 (r.2 m v w / 256 ^ i)) ∧
            (∀ y < 2 ^ 52, y < e.phys a.addr ∨ e.phys a.addr + a.size ≤ y → t.byteAt y = s.byteAt y) ∧
            ∀ u k, s.wave u = some k → ∃ k', t.wave u = some k' ∧ k'.regs = k.regs ∧ k'.pc = k.pc ∧
              (k.uid = o.owner → k'.rb = results k m)) ∧
        ∀ b : Block, a.glob = false → s.block a.block = some b → b.uid = a.block →
          (∀ i < a.size, (b.lineFE ((a.addr + i) / 128)).full = true) → (entry = none ∨ b.poisoned a.addr a.size = false) →
          let m := leNat (b.read a.addr a.size)
          ∃ t b', exec (.atomicPerform id ⟨tlb, others⟩) s = .next t ∧ t.ops = s.ops.filter (fun y => y.id ≠ id) ∧
            t.mem = s.mem ∧ t.side = s.side ∧ t.block a.block = some b' ∧ b'.side = b.side ∧
            (∀ k, b'.data.get 0 k = if a.addr ≤ k ∧ k < a.addr + a.size then BitVec.ofNat 8 (r.2 m v w / 256 ^ (k - a.addr))
              else b.data.get 0 k) ∧
            ∀ u k, s.wave u = some k → k.wait = .none → ∃ k', t.wave u = some k' ∧ k'.regs = k.regs ∧ k'.pc = k.pc ∧
              (k.uid = o.owner → k'.rb = results k m)) ∧
    (∀ r ∈ ([(.fadd32, f32, 4), (.fadd64, f64, 8)] : List (AtomOp × Fmt × Nat)),
      ∀ (a a' : Access) (v w v' w' : Nat) (dst dst' : List Elem) (sc : Scope) (o' : Op),
        o.kind = .atomic a r.1 v w dst none .commutative sc → o'.kind = .atomic a' r.1 v' w' dst' none .commutative sc →
        s.op o'.id = some o' → combines s o o' = true → a.size = r.2.2 → a.glob = true → inWindow a.addr = false →
        a.addr / 4096 ∉ o.denied → translate s o.core x a.addr true true tlb = (s1, .ok e) →
        walk s x a.addr true true = .ok e → x.compulsory = false → e.phys a.addr + a.size ≤ 2 ^ 52 →
        let m := s.readNat (e.phys a.addr) a.size
        ∃ t, exec (.atomicPerform id ⟨tlb, [o'.id]⟩) s = .next t ∧
          t.ops = s.ops.filter (fun y => y.id ≠ id && y.id ≠ o'.id) ∧ t.side = s.side ∧
          (∀ i < a.size, t.byteAt (e.phys a.addr + i) =
            BitVec.ofNat 8 ((fpAdd r.2.1 .rne m (fpSumOnce r.2.1 [v, v']) 0).code / 256 ^ i)) ∧
          ∀ y < 2 ^ 52, y < e.phys a.addr ∨ e.phys a.addr + a.size ≤ y → t.byteAt y = s.byteAt y) ∧
    ∀ (va value index q n : Nat) (pa : Option Nat) (wide : Bool), o.kind = .faddo va pa wide value index q n →
      ∀ word, pa = some word ∨
        (pa = none ∧ va / 4096 ∉ o.denied ∧ translate s o.core x va true true tlb = (s1, .ok e) ∧ word = e.phys va) →
      ∃ t y, exec (.atomicPerform id ⟨tlb, others⟩) s = .next t ∧ t.mem = s.mem ∧ t.waves = s.waves ∧ t.ctx o.ctx = some y ∧
        y.recs = x.recs.map fun r => if r.key = o.key
          then { r with contribs := r.contribs ++ [⟨word, wide, value, index, q, n, o.block⟩] } else r

/-- Results in the return buffer (02 R66 to R72): a CSRR of CLOCK or RETIRED samples its count as it is performed, a low read
latching the high word; a DQPOP's value arrives; the commit of a parking wave, all results in, writes the elements that an
entry still names and ORs its flags into FSTICKY, and an entry with a deferred error writes nothing; the wave takes a
pending deferred error there (02 R81). A lease that package time has reached ends (12 R294, R306): the core's copy of the
line, or its translation of a shadowed page, is gone, and nothing else changes; before that nothing does. -/
def Obligations.ResultsAndLeases : Prop :=
  ((∀ (s : State) (u : Nat) (w : Wave) (en : Entry) (n : DWord), s.wave u = some w → s.runs (u / 64) = true → w.rb = [en] →
     en.waiting = 1 → entryInFlight s en.seq = false →
     (en.sample = .none → exec (.resultArrival u en.seq) s =
       .next { s.setWave u { w with rb := [{ en with waiting := 0 }] } with blocked := [] }) ∧
     ∀ r ∈ ([(.clockLo, BitVec.ofNat 32 s.pt, { w.csr with clockHi := BitVec.ofNat 32 (s.pt / 2 ^ 32) }),
         (.countLo n, n.setWidth 32, { w.csr with clockHi := n.extractLsb' 32 32 }), (.clockHi, w.csr.clockHi, w.csr),
         (.retiredLo n, n.setWidth 32, { w.csr with retiredHi := n.extractLsb' 32 32 }), (.retiredHi, w.csr.retiredHi, w.csr)] :
         List (Sample × Word × Csrs)),
       en.sample = r.1 → exec (.resultArrival u en.seq) s = .next { s.setWave u { w with
         rb := [{ en with vals := en.vals ++ en.dests.map (fun d => (d, r.2.1)), waiting := 0 }], csr := r.2.2 } with
         blocked := [] }) ∧
   (∀ (s : State) (u : Nat) (w : Wave), s.wave u = some w → s.runs (u / 64) = true → w.parking = true →
     (∀ en ∈ w.rb, en.waiting = 0) →
     (w.deferred = [] → exec (.parkCommit u) s = .next { s.setWave u w.commit with blocked := [] } ∧
       w.commit.rb = [] ∧ w.commit.pc = w.pc) ∧
     ∀ (e : Deferred) (more : List Deferred), w.deferred = e :: more → w.regs.vBusy = [] →
       exec (.parkCommit u) s =
         .next { s.enterTrap u { w.commit with deferred := [] } ((e.lowest more).trap w.pc) with blocked := [] }) ∧
   ∀ (w : Wave) (en : Entry), w.rb = [en] → (en.vals.map (·.1)).Nodup → (∀ x ∈ en.dests, x ∈ en.vals.map (·.1)) →
     (∀ x v, (.e x, v) ∈ en.vals → v.toNat < 256) →
     (∀ x, w.commit.elem x = if en.failed = false ∧ x ∈ en.dests ∧ x ≠ .s 0 then (en.vals.lookup x).getD 0 else w.elem x) ∧
     w.commit.csr.fsticky = (if en.failed then w.csr.fsticky else w.csr.fsticky ||| en.flags)) ∧
  (∀ (s : State) (core n : Nat),
     (∀ l : L1Line, (s.core core).l1.find n = some l → exec (.leaseExpiry core n) s = .next (if l.expiry ≤ s.pt then
       { s.setCore core { s.core core with l1 := (s.core core).l1.del n } with blocked := [] } else s)) ∧
     ∀ (e : TlbEntry) (t : Nat), (s.core core).tlb = [e] → e.va / 4096 = n → e.expiry = some t →
       exec (.tlbLeaseExpiry core n) s =
         .next (if t ≤ s.pt then { s.setCore core { s.core core with tlb := [] } with blocked := [] } else s))

/-- Barrier objects (07 R209 to R212), where no earlier acquire is outstanding (12 R298): what BOINIT, BOARR and BOEXP make of
an object, evaluation flipping the phase where nothing is pending; BOWAIT and BOTEST answer 1, an acquire, where the phase
differs from the token, else BOTEST answers 0 and BOWAIT answers 0 or waits; BOWAIT that completes passes the slice (06
R171). An object written reads back, and no byte of memory changes. -/
def Obligations.BarrierObjects : Prop :=
  ∀ (p : Bool) (d a b : BitVec 7) (t off : Nat) (k : Block),
    let at_ (s : State) (w : Wave) (blk : Block) : Prop :=
      scratchTarget s blk (w.rdS a).toNat 16 = some (t, off) ∧ (w.rdS a).toNat % 16 = 0 ∧ s.scratchOps w t off 16 = false ∧
        s.acquiring w false = false ∧ s.block t = some k
    let eval (o : BarObj) : BarObj := if o.pend = 0 ∧ o.bytes = 0 then { o with phase := !o.phase, pend := o.exp } else o
    let met (s : State) (u : Nat) (w : Wave) : State :=
      s.setWave u ((w.synced s).wrS d 1).next
    Answers (.boinit p a b) (fun _ => p) [.ss a 1, .ss b 1]
      (fun s _ w blk => at_ s w blk ∧ (k.object off).valid = false ∧ 1 ≤ (w.rdS b).toNat ∧ (w.rdS b).toNat ≤ 65535)
      (fun s u w _ => (s.setWave u w.next).setObject t off
        ⟨(w.rdS b).setWidth 16, (w.rdS b).setWidth 16, 0, false, true, 0⟩) ∧
    Answers (.boarr p d a) (fun _ => p) [.sd d 1, .ss a 1]
      (fun s _ w blk => at_ s w blk ∧ (k.object off).valid = true ∧ (k.object off).pend ≠ 0 ∧ s.released w .block = true)
      (fun s u w _ => (s.setWave u (w.wrS d (if (k.object off).phase then 1 else 0)).next).setObject t off
        (eval { k.object off with pend := (k.object off).pend - 1 })) ∧
    Answers (.boexp p a b) (fun _ => p) [.ss a 1, .ss b 1]
      (fun s _ w blk => at_ s w blk ∧ (k.object off).valid = true ∧ (w.rdS b).toNat < 2 ^ 31)
      (fun s u w _ => (s.setWave u w.next).setObject t off (eval { k.object off with bytes := (k.object off).bytes + w.rdS b })) ∧
    Answers (.bowait p d a b) (fun _ => p) [.ss d 1, .ss a 1, .ss b 1]
      (fun s _ w blk => at_ s w blk ∧ (k.object off).valid = true ∧ (k.object off).phase ≠ (w.rdS d).getLsbD 0)
      (fun s u w _ => (met s u w).passTurn u w false) ∧
    Answers (.bowait p d a b) (fun _ => p) [.ss d 1, .ss a 1, .ss b 1]
      (fun s _ w blk => at_ s w blk ∧ (k.object off).valid = true ∧ (k.object off).phase = (w.rdS d).getLsbD 0)
      (fun s u w blk => if s.cmp blk = false ∧ w.rdS b = 0 then s.setWave u (w.wrS d 0).next else
        (s.setWave u { w with word := s.ir, wait := (.bowait t off d.toNat ((w.rdS d).getLsbD 0)
          (if s.cmp blk = true ∨ w.rdS b = 0xFFFFFFFF then none else some (s.pt + (w.rdS b).toNat))) }).passTurn u w false) ∧
    Answers (.botest p d a) (fun _ => p) [.ss d 1, .ss a 1]
      (fun s _ w blk => at_ s w blk ∧ (k.object off).valid = true)
      (fun s u w _ => if (k.object off).phase ≠ (w.rdS d).getLsbD 0 then met s u w else s.setWave u (w.wrS d 0).next) ∧
    (∀ i ∈ ([.boarr p d a, .botest p d a] : List Instr), ∀ (s : State) (u : Nat) (w : Wave) (blk : Block),
      Ready s u w blk p [.ss d 1, .ss a 1] → at_ s (w.parked p) blk → (k.object off).valid = false →
      exec i s = .next (s.trap u (w.parked p) ⟨0x13#8, s.ir, (w.parked p).rdS a⟩)) ∧
    ∀ (s : State) (o : BarObj), s.block t = some k → k.uid = t →
      (s.setObject t off o).mem = s.mem ∧ ∃ k', (s.setObject t off o).block t = some k' ∧ k'.object off = o

/-- WAITA and the lines (07 R185, R213 to R216), where no earlier acquire is outstanding (12 R298): WAITA answers 1, an
acquire, where the word meets its condition, else 0 with no time, which in compulsory mode is CONFLICT, else it waits, and
a forerunner's passes its turn (06 R171); LEMPTY and LFILL mark a line, LFILL only one without counted writes; LTEST reads
its state; LWAIT answers 1 on a full line, and on an empty one does as WAITA. Fences (07 R217; 12 R297, R298): with no
deferred error to take, at block scope or once what the scope names is performed, the wave goes on; after an acquire no
later access is performed before the loads and returning atomics issued so far, and it has observed the writes of its
block's waves (21 R430; the model's log entry 86); after a release no later access is performed before the stores and
atomics issued so far. A pending deferred error is taken there, of several that of the first instruction's lowest lane
(the model's log entry 19). -/
def Obligations.WordsLinesAndFences : Prop :=
  (∀ (p : Bool) (d a b : BitVec 7) (t off : Nat) (k : Block),
     let met (s : State) (u : Nat) (w : Wave) : State :=
       s.setWave u ((w.synced s).wrS d 1).next
     let limit (s : State) (w : Wave) : Option Nat := if w.rdS b = 0xFFFFFFFF then none else some (s.pt + (w.rdS b).toNat)
     (∀ e ∈ ([(.waitaEq p d a b, true), (.waitaNe p d a b, false)] : List (Instr × Bool)),
       let at_ (s : State) (w : Wave) (blk : Block) : Prop :=
         scratchTarget s blk (w.rdS a).toNat 4 = some (t, off) ∧ (w.rdS a).toNat % 4 = 0 ∧ s.scratchOps w t off 4 = false ∧
           s.acquiring w false = false ∧ s.block t = some k
       let turn (t : State) (u : Nat) (w : Wave) : State := if w.fore then t.passTurn u w false else t
       let holds (w : Wave) : Prop := (BitVec.ofNat 32 (leNat (k.read off 4)) = w.rdSk a 1) ↔ e.2 = true
       Answers e.1 (fun _ => p) [.sd d 1, .ss a 2, .ss b 1] (fun s _ w blk => at_ s w blk ∧ holds w)
         (fun s u w _ => turn (met s u w) u w) ∧
       Answers e.1 (fun _ => p) [.sd d 1, .ss a 2, .ss b 1]
         (fun s _ w blk => at_ s w blk ∧ ¬holds w ∧ w.rdS b = 0 ∧ s.cmp blk = false) (fun s u w _ => s.setWave u (w.wrS d 0).next) ∧
       Raises e.1 (fun _ => p) [.sd d 1, .ss a 2, .ss b 1]
         (fun s _ w blk => at_ s w blk ∧ ¬holds w ∧ w.rdS b = 0 ∧ s.cmp blk = true) (fun s _ _ => ⟨0x17#8, s.ir, 0⟩) ∧
       Answers e.1 (fun _ => p) [.sd d 1, .ss a 2, .ss b 1] (fun s _ w blk => at_ s w blk ∧ ¬holds w ∧ w.rdS b ≠ 0)
         (fun s u w _ => turn (s.setWave u { w with word := s.ir, wait := .waita t off d.toNat e.2 (w.rdSk a 1) (limit s w) }) u w)) ∧
     (let at_ (s : State) (w : Wave) (blk : Block) : Prop :=
       scratchTarget s blk (w.rdS a).toNat 1 = some (t, off) ∧ s.block t = some k ∧ s.scratchWrites w (some (t, off / 128)) = false ∧
         s.acquiring w true = false
     let x := k.lineFE (off / 128)
     Answers (.lempty p a) (fun _ => p) [.ss a 1] (fun s _ w blk => at_ s w blk ∧ s.readsFull w t (off / 128) = false)
       (fun s u w _ => (s.setWave u w.next).setLine t (off / 128) { x with full := false }) ∧
     Answers (.lfill p a) (fun _ => p) [.ss a 1] (fun s _ w blk => at_ s w blk ∧ s.scratchWrites w none = false)
       (fun s u w _ => (s.setWave u w.next).setLine t (off / 128) { x with full := x.full || x.pend = 0 }) ∧
     Answers (.ltest p d a) (fun _ => p) [.sd d 1, .ss a 1] (fun s _ w blk => at_ s w blk)
       (fun s u w _ => s.setWave u (w.wrS d (if x.full then 1 else 0)).next) ∧
     Answers (.lwait p d a b) (fun _ => p) [.sd d 1, .ss a 1, .ss b 1] (fun s _ w blk => at_ s w blk ∧ x.full = true)
       (fun s u w _ => met s u w) ∧
     Answers (.lwait p d a b) (fun _ => p) [.sd d 1, .ss a 1, .ss b 1]
       (fun s _ w blk => at_ s w blk ∧ x.full = false ∧ w.rdS b ≠ 0)
       (fun s u w _ => s.setWave u { w with word := s.ir, wait := .lwait t (off / 128) d.toNat (limit s w) }) ∧
     Answers (.lwait p d a b) (fun _ => p) [.sd d 1, .ss a 1, .ss b 1]
       (fun s _ w blk => at_ s w blk ∧ x.full = false ∧ w.rdS b = 0 ∧ s.cmp blk = false) (fun s u w _ => s.setWave u (w.wrS d 0).next) ∧
     Raises (.lwait p d a b) (fun _ => p) [.sd d 1, .ss a 1, .ss b 1]
       (fun s _ w blk => at_ s w blk ∧ x.full = false ∧ w.rdS b = 0 ∧ s.cmp blk = true) (fun s _ _ => ⟨0x17#8, s.ir, 0⟩) ∧
     ∀ (s : State) (y : LineFE), s.block t = some k → k.uid = t →
       (s.setLine t (off / 128) y).mem = s.mem ∧
       ∃ k', (s.setLine t (off / 128) y).block t = some k' ∧ k'.data = k.data ∧
         ∀ l, k'.lineFE l = if l = off / 128 then y else k.lineFE l)) ∧
  (∀ (p : Bool) (sc : Scope), ∀ e ∈ ([(.fenceAcq p sc, true, false), (.fenceRel p sc, false, true), (.fenceFull p sc, true, true)] :
       List (Instr × Bool × Bool)),
     Answers e.1 (fun _ => p) []
       (fun s _ w _ => w.deferred = [] ∧ (sc ≠ .block → s.partnerOps w = false ∧ (e.2.2 = true → s.released w sc = true)))
       (fun s u w _ => s.setWave u { w.next with
         seen := if e.2.1 then max w.seen (s.blockHorizon w.block) else w.seen
         ordLoads := if e.2.1 then s.fresh else w.ordLoads
         ordStores := if e.2.2 then s.fresh else w.ordStores }) ∧
     ∀ (x : Deferred) (l : List Deferred), Raises e.1 (fun _ => p) [] (fun _ _ w _ => w.deferred = x :: l)
       fun _ w _ => (x.lowest l).trap w.pc)

/-- ACP, ACPS, TCPY, TCPYS and TCPYV at issue (07 R202 to R206; 10 R262, R263, R268, R269): with their checks passed, room in
their queue, no earlier global store or acquire of the wave outstanding and, for copies into scratch, a write counted on
every destination line, one operation takes the descriptor and the wave goes on. TCPYV's destinations are busy until it
delivers. LDT (07 R218 to R220): one operation per active lane that reads its sixteen elements and, for formats with
scales, their block's scale, and one entry for the registers and their scales. A poisoned parameter of an active lane's
quad traps (17 R376). Shape records (10 R259 to R261): SHSET reads the image, raises the slot's generation and answers the
handle; SHDROP of a current handle invalidates the slot, of another does nothing; SHQRY answers a word of a current
handle's record, and a stale one is HANDLE_STALE. Where the specification gives no order of the address checks the model's
is log entry 22. -/
def Obligations.CopiesIssue : Prop :=
  (∀ (p : Bool) (d a b : BitVec 7),
     (∀ e ∈ ([(.acp4 p d a b, .acps4 p d a b, 4), (.acp8 p d a b, .acps8 p d a b, 8), (.acp16 p d a b, .acps16 p d a b, 16)] :
         List (Instr × Instr × Nat)),
       let lanes (w : Wave) : List (Nat × Nat × Nat) := w.active.map fun q => (q, laneAddr .base w a b q, (w.rdV d q).toNat)
       let lines (s : State) (w : Wave) (blk : Block) : List (Nat × Nat) :=
         ((copyTargets s blk e.2.2 (lanes w)).map fun t => (t.2.1, t.2.2 / 128)).eraseDups
       let may (s : State) (u : Nat) (w : Wave) (blk : Block) : Prop :=
         w.fore = false ∧ w.active ≠ [] ∧ checkCopy s blk e.2.2 (lanes w) = none ∧ copyQueue s (u / 64) < 64 ∧
           s.globalStores w = false ∧ s.acquiring w true = false
       (∀ (s s1 : State) (u : Nat) (w : Wave) (blk : Block), Ready s u w blk p [.vs d 1, .sl a 2, .vs b 1] →
         may s u (w.parked p) blk →
         s.countLines (lines s (w.parked p) blk) = some s1 →
         exec e.1 s = .next { State.withOps (s1.setWave u (w.parked p).next) u (w.parked p) blk
           [.acp (copyTargets s blk e.2.2 (lanes (w.parked p))) e.2.2] with blocked := [] }) ∧
       Answers e.2.1 (fun _ => p) [.vs d 1, .sl a 3, .vs b 1] may fun s u w blk =>
         let ts := copyTargets s blk e.2.2 (lanes w)
         let obj := (w.rdSk a 2).toNat
         let place := if obj % 16 = 0 then scratchTarget s blk obj 16 else none
         (s.setWave u w.next).addEngineOp u w blk (pendLines s (s.ctxD blk) none true (ts.map fun t => (t.1, e.2.2))).eraseDups
           (.acps ts e.2.2 (place.getD (0, 0)).1 (place.getD (0, 0)).2 obj place.isSome none)) ∧
     (∀ (s s1 : State) (u : Nat) (w : Wave) (blk : Block) (r : CopyReq),
       Ready s u w blk p [.ss d 1, .ss a 8, .ss b (if b = 0 then 1 else 2)] →
       let v := w.parked p
       checkCopyReq s v blk d a b = .ok r → s.globalStores v = false → s.acquiring v true = false → tensorQueue s (u / 64) < 256 →
       (exec (.tcpys p d a b) s = .next { (s.setWave u v.next).addEngineOp u v blk
         (pendLines s (s.ctxD blk) none false r.c.dests).eraseDups (.tcpys r.c r.obj r.word (s.ctxD blk).regions none) with
           blocked := [] }) ∧
       (s.countLines (r.c.lines.map fun l => (r.c.block, l)) = some s1 →
         exec (.tcpy p d a b) s =
           .next { State.withOps (s1.setWave u v.next) u v blk [.tcpy r.c r.obj r.word] with blocked := [] })) ∧
     ∀ (s : State) (u : Nat) (w : Wave) (blk : Block) (sh : Shape) (t : Nat × Nat), Ready s u w blk p [.vd d 1, .ss a 8] →
       let v := w.parked p
       let c := copyDescOf v a sh.img blk.uid 0
       let R := c.boxk 0 * c.esize / 32
       (v.fore || v.cpt) = false → blk.rdir = true → d.toNat % 8 = 0 → current (s.ctxD blk) (v.rdS a) = some sh →
       checkBox s v a c = none → (v.rdSk a 1).toNat % 16 = 0 → scratchTarget s blk (v.rdSk a 1).toNat 16 = some t →
       c.boxk 1 ≤ v.width → c.boxk 2 = 1 → c.boxk 3 = 1 → c.boxk 4 = 1 → c.boxk 0 * c.esize % 32 = 0 →
       c.boxk 0 * c.esize ≤ 1024 → (Opnd.vd d R).window v blk = none → (Opnd.vd d R).busy v = false →
       s.globalStores v = false → s.acquiring v true = false → tensorQueue s (u / 64) < 256 →
       ∃ v', exec (.tcpyv p d a) s = .next { State.withOps (s.setWave u v') u v blk
           [.tcpyv c (t.1, t.2, (v.rdSk a 1).toNat) (v.phys d 0) R] with blocked := [] } ∧
         v'.pc = v.pc + 4 ∧ v'.regs.vBusy = v.regs.vBusy ++ (List.range R).map (fun k => (s.fresh, v.phys d k)) ∧
         (∀ x, v'.elem x = v.elem x)) ∧
  (∀ (p : Bool) (d a b : BitVec 7), ∀ e ∈ ([(.ldt4 p d a b, ⟨2, 4, 2, 8, some 16⟩), (.ldt6 p d a b, ⟨3, 6, 4, 4, some 24⟩),
       (.ldt8 p d a b, ⟨4, 8, 4, 4, some 32⟩), (.ldt16 p d a b, ⟨8, 16, 8, 2, none⟩), (.ldt32 p d a b, ⟨16, 32, 16, 1, none⟩)] :
       List (Instr × Ldt)),
     let k := e.2
     let parks (w : Wave) : Bool := p || (!w.active.isEmpty && w.lacksRoom (4 * k.regs * w.active.length))
     ∀ (s s1 : State) (u : Nat) (w : Wave) (blk : Block),
       Ready s u w blk (parks w) [.vd d k.regs, .ed d k.regs, .vx a 1, .sl b 2] → w.fore = false →
       let v := w.parked (parks w)
       let rows := (v.rdS b).toNat
       let cols := (v.rdSk b 1).toNat
       let vd (q : Nat) : List Elem := (List.range k.regs).map fun r => .v (laneKey (v.phys d r) q)
       let ed (q : Nat) : List Elem := (List.range k.regs).map fun r => .e (laneKey (v.phys d r) q)
       let op (q : Nat) : OpKind :=
         let els := ldtElems s v blk k a rows cols q
         let scale := match k.block, els.headD none with
           | some n, some (t, at_) => some (t, at_ / 8 / 128, at_ / 8 % 128 / n)
           | _, _ => none
         .ldt els k.esize k.per scale (vd q) (ed q) s.fresh
       let quad (q : Nat) : Bool := (List.range 4).any fun j => decide (q / 4 * 4 + j < v.lanes.length) &&
         v.regs.vPoison.contains (laneKey (v.phys a 0) (q / 4 * 4 + j))
       ((∃ q ∈ v.active, quad q = true) → exec e.1 s = .next (s.trap u v ⟨0x06#8, s.ir, 0⟩)) ∧
       (v.active ≠ [] → (∀ q ∈ v.active, quad q = false ∧ ldtCheck s v blk k a rows cols q = none) →
       scratchConflict s u blk (v.active.flatMap fun q => (op q).accesses) true false none = some s1 →
       exec e.1 s = .next { State.withOps { s1.setWave u (v.awaits
           (pendingEntry s v (v.active.flatMap fun q => vd q ++ ed q) (4 * k.regs * v.active.length) v.active.length)) with
           fresh := s1.fresh + 1 } u v blk (v.active.map op) with blocked := [] })) ∧
  (∀ (p : Bool) (d a b : BitVec 7),
     (∀ (l : List Byte) (s1 : State), Answers (.shset p d a b) (fun _ => p) [.sd d 1, .ss a 2, .ss b 1]
       (fun s u w blk => (w.rdS b).toNat ≤ 4095 ∧ inWindow (w.rdS64 a).toNat = false ∧ (w.rdS64 a).toNat % 16 = 0 ∧
         s.globalStores w = false ∧ s.acquiring w false = false ∧ homeRead s u w blk (w.rdS64 a).toNat 64 = .ok l ∧ shapeOk (BitVec.ofNat 512 (leNat l)) = true ∧
         s.recordLoad u blk (w.rdS64 a).toNat 64 = some s1)
       fun s u w blk =>
         let n := (w.rdS b).toNat
         let g := ((s.ctxD blk).shapes.get Shape.empty n).gen
         let gen : BitVec 20 := if g = 0xFFFFF then 1 else g + 1
         (s1.setWave u (({ w with denied := [] } : Wave).wrS d (gen.setWidth 32 <<< 12 ||| BitVec.ofNat 32 n)).next).onCtx blk.ctx
           fun x => { x with shapes := (x.shapes.put Shape.empty n ⟨true, gen, BitVec.ofNat 512 (leNat l) ||| (gen.setWidth 512 <<< 480)⟩) }) ∧
     Answers (.shdrop p a) (fun _ => p) [.ss a 1] (fun _ _ _ _ => True) (fun s u w blk =>
       match current (s.ctxD blk) (w.rdS a) with
       | none => s.setWave u w.next
       | some sh => (s.setWave u w.next).onCtx blk.ctx fun x => { x with
         shapes := (x.shapes.put Shape.empty ((w.rdS a).toNat % 4096) ⟨false, if sh.gen = 0xFFFFF then 1 else sh.gen + 1, sh.img⟩) }) ∧
     (∀ sh : Shape, Answers (.shqry p d a b) (fun _ => p) [.sd d 1, .ss a 1, .ss b 1]
       (fun s _ w blk => current (s.ctxD blk) (w.rdS a) = some sh ∧ (w.rdS b).toNat ≤ 15)
       (fun s u w _ => s.setWave u (w.wrS d (sh.img.extractLsb' (32 * (w.rdS b).toNat) 32)).next)) ∧
     Raises (.shqry p d a b) (fun _ => p) [.sd d 1, .ss a 1, .ss b 1]
       (fun s _ w blk => current (s.ctxD blk) (w.rdS a) = none) (fun s w _ => ⟨0x0F#8, s.ir, w.rdS a⟩))

/-- Copies as they are performed (07 R203 to R208; 10 R265 to R268; 12 R312): an ACP's line lands with memory's bytes and is
counted down once none of its lanes is left to land, a lane that meets a replayable fault waiting alone; a TCPY's line
lands with the bytes of its image, and it completes once its lines have landed; ACPS and TCPYS read each source word at
some time once its line is full, and once all have been read release the source, before their writes complete; TCPYS's
completion word waits for those; a TCPYV delivers the lanes whose rows can be read, and is complete once all are. That a
source is read word by word is the model's log entry 37, that a command completes once its writes' time has come its log
entry 39. -/
def Obligations.CopiesPerform : Prop :=
  ∀ (s : State) (id : Nat) (o : Op), s.op id = some o →
    (∀ (lanes rest : List (Nat × Nat × Nat)) (uid off line n size : Nat) (x : Context) (b : Block), o.kind = .acp lanes size →
      inOrder s o = true → s.ctx o.ctx = some x → s.block uid = some b → b.uid = uid →
      (∃ more va, lanes.filter (fun l => scratchLine s l.2.1 l.2.2 = line) = (va, uid, off) :: more) →
      rest = lanes.filter (fun l => scratchLine s l.2.1 l.2.2 ≠ line) → b.lineFE (off / 128) = ⟨false, n⟩ →
      (∀ l ∈ lanes, scratchLine s l.2.1 l.2.2 = line → o.lineWaits l.1 = false ∧
        readFail s x o.denied l.1 size = none ∧ firstFault s x o.denied true false [(l.1, size)] = none) →
      ∃ t b', exec (.copyWriteLands id line) s = .next t ∧ t.mem = s.mem ∧ t.block uid = some b' ∧
        b'.lineFE (off / 128) = ⟨decide (n ≤ 1), n - 1⟩ ∧ (∀ l ≠ off / 128, b'.lineFE l = b.lineFE l) ∧
        (rest = [] → t.op id = none) ∧ (rest ≠ [] → t.op id = some { o with kind := .acp rest size })) ∧
    (∀ (lanes : List (Nat × Nat × Nat)) (uid off line size : Nat) (x : Context) (b : Block), o.kind = .acp lanes size →
      inOrder s o = true → s.ctx o.ctx = some x → s.block uid = some b → b.uid = uid → scratchLine s uid off = line →
      let here (l : Nat × Nat × Nat) : Bool := scratchLine s l.2.1 l.2.2 = line
      let lands (l : Nat × Nat × Nat) : Bool :=
        here l && !o.lineWaits l.1 && (firstFault s x o.denied true false [(l.1, size)]).isNone
      (∃ l ∈ lanes, here l = true ∧ lands l = false) → (∀ l ∈ lanes, here l = true → l.2.1 = uid) →
      (∀ l ∈ lanes, lands l = true → readFail s x o.denied l.1 size = none) →
      ∃ t b', exec (.copyWriteLands id line) s = .next t ∧ t.block uid = some b' ∧ (∀ k, b'.lineFE k = b.lineFE k) ∧
        (t.op id).map Op.kind = some (.acp (lanes.filter fun l => !lands l) size) ∧
        ∀ l va e, lanes.filter lands = [l] → l = (va, uid, off) → b.freed = false → (size = 4 ∨ size = 8 ∨ size = 16) →
          va % size = 0 → va / 4096 ∉ o.denied → walk s x va true false = .ok e → (∀ i < size, e.phys (va + i) = e.phys va + i) →
          ∀ k, b'.data.get 0 k = if off ≤ k ∧ k < off + size then s.byteAt (e.phys va + (k - off)) else b.data.get 0 k) ∧
    (∀ (va uid off line n size : Nat) (x : Context) (e : TlbEntry) (b : Block), o.kind = .acp [(va, uid, off)] size →
      inOrder s o = true → s.ctx o.ctx = some x → s.block uid = some b → b.uid = uid → b.freed = false → 0 < size → size ≤ 16 →
      va / 4096 ∉ o.denied → o.lineWaits va = false → va % size = 0 → (size = 4 ∨ size = 8 ∨ size = 16) → walk s x va true false = .ok e →
      line = 8192 * b.rank + off / 128 → b.lineFE (off / 128) = ⟨false, n⟩ →
      (∀ i < size, e.phys (va + i) = e.phys va + i) →
      ∃ t b', exec (.copyWriteLands id line) s = .next t ∧ t.mem = s.mem ∧
        t.ops = (if n ≤ 1 then s.ops.map (Op.releaseRead uid (off / 128)) else s.ops).filter (fun y => y.id ≠ id) ∧
        t.block uid = some b' ∧ b'.lineFE (off / 128) = ⟨decide (n ≤ 1), n - 1⟩ ∧
        ∀ k, b'.data.get 0 k = if off ≤ k ∧ k < off + size then s.byteAt (e.phys va + (k - off)) else b.data.get 0 k) ∧
    (∀ (c : CopyDesc) (obj : Option (Nat × Nat × Nat)) (word : Option (Nat × Nat × Word)) (line n : Nat) (x : Context) (b : Block),
      o.kind = .tcpy c obj word → inOrder s o = true → s.ctx o.ctx = some x → line ∈ c.lines → line ∉ o.note →
      o.lineWaits line = false → s.block c.block = some b → b.uid = c.block → b.freed = false →
      b.lineFE line = ⟨false, n⟩ → firstFault s x o.denied true false ((c.chunksIn line).flatMap c.ranges).eraseDups = none →
      rangesFail s x o.denied ((c.chunksIn line).flatMap c.ranges).eraseDups = none →
      (c.mx = true → ∀ i < 8, (c.mxSide s x o.denied ((128 * line - c.off) / c.rowBytes)
        ((128 * line - c.off) % c.rowBytes / 128) i).isSome = true) →
      ∃ t b', exec (.copyWriteLands id line) s = .next t ∧ t.mem = s.mem ∧ t.block c.block = some b' ∧
        b'.lineFE line = ⟨decide (n ≤ 1), n - 1⟩ ∧ (t.op id).map Op.note = some (line :: o.note) ∧
        ∀ y ∈ c.chunksIn line, ∀ i < 16, ∀ v m, (c.image s x o.denied y 16)[i]? = some (some (v, m)) →
          b'.data.get 0 (c.place y + i) = v) ∧
    (∀ (c : CopyDesc) (obj : Option (Nat × Nat × Nat)) (word : Option (Nat × Nat × Word)), o.kind = .tcpy c obj word →
      (∀ l ∈ c.lines, l ∈ o.note) →
      exec (.tcpyComplete id) s = .next { ((s.dropOp id).creditObj o obj c.footprint).writeWord word with blocked := [] }) ∧
    (∀ i : Instr, ((∃ lanes size ob oo obj ok, i = .acpsSourceRelease id ∧ o.kind = .acps lanes size ob oo obj ok none) ∨
        ∃ c obj word rg, i = .tcpysSourceRelease id ∧ o.kind = .tcpys c obj word rg none) → inOrder s o = true →
      ((∃ n k, o.kind.sources[n]? = some k ∧ k.full s = false ∧ o.got.find n = none) →
        ∃ got, exec i s = .next { s.setOp { o with got := got } with blocked := [] } ∧
          ∀ n k, o.kind.sources[n]? = some k →
            got.find n = if (o.got.find n).isSome then o.got.find n else if k.full s then some (k.read s) else none) ∧
      ∀ n k, o.kind.sources[n]? = some k →
        ∃ got, s.sourceRead id n = { s.setOp { o with got := got } with blocked := [] } ∧
          ∀ m, m < o.kind.sources.length →
            got.find m = if (o.got.find m).isSome then o.got.find m else if m = n ∧ k.full s then some (k.read s) else none) ∧
    (let value (n : Nat) (k : SrcWord) : Word × Bool := (o.got.find n).getD (k.read s)
    (∀ (lanes : List (Nat × Nat × Nat)) (obj ob oo size : Nat) (ok : Bool), o.kind = .acps lanes size ob oo obj ok none →
      inOrder s o = true → 4 ≤ size → (∀ n k, o.kind.sources[n]? = some k → (o.got.find n).isSome = true ∨ k.full s = true) →
      ∃ read : List (Nat × List Byte × Bool), read.length = lanes.length ∧
        (∀ i (h : i < lanes.length),
          let part := (List.range (size / 4)).map fun k => value (size / 4 * i + k) ⟨lanes[i].2.1, lanes[i].2.2 + 4 * k, false⟩
          read[i]? = some (lanes[i].1, part.flatMap (fun v => leBytes 4 v.1.toNat), part.any (·.2))) ∧
        let s1 := s.setOp { o with got := [], kind := .acps lanes size ob oo obj ok (some read) }
        exec (.acpsSourceRelease id) s = .next { (lanes.map fun l => l.2.1).eraseDups.foldl State.checkBlock
          (if ok then s1.credit o ob oo obj (size * lanes.length) else s1.deferOp o 0x13#8 obj true) with blocked := [] }) ∧
    (∀ (c : CopyDesc) (obj : Option (Nat × Nat × Nat)) (word : Option (Nat × Nat × Word)) (rg : SMap Region),
      o.kind = .tcpys c obj word rg none → inOrder s o = true →
      (∀ n k, o.kind.sources[n]? = some k → (o.got.find n).isSome = true ∨ k.full s = true) →
      ∃ image,
        let s1 := s.setOp { o with got := [], kind := .tcpys c obj word rg (some image) }
        exec (.tcpysSourceRelease id) s = .next { (s1.creditObj o obj c.footprint).checkBlock c.block with blocked := [] } ∧
        ∀ n < c.footprint / 4,
          let v := value n ⟨c.block, c.place (16 * (n / 4)) + 4 * (n % 4), false⟩
          (∀ i < 4, image.1.getD (4 * n + i) 0 = (leBytes 4 v.1.toNat).getD i 0) ∧ (v.2 = true → 16 * (n / 4) ∈ image.2.2))) ∧
    (∀ (k : SrcWord) (b : Block), s.block k.block = some b → k.side = false →
      k.full s = (b.lineFE (k.off / 128)).full ∧
        ((k.read s).1 = BitVec.ofNat 32 (leNat (b.read k.off 4)) ∧ (k.read s).2 = b.poisoned k.off 4)) ∧
    (∀ (c : CopyDesc) (obj : Option (Nat × Nat × Nat)) (word : Option (Nat × Nat × Word)) (rg : SMap Region)
        (image : List Byte × List Byte × List Nat) (x : Context),
      o.kind = .tcpys c obj word rg (some image) → o.parked = none → s.ctx o.ctx = some x →
      (∀ t, o.horizon = some t → exec (.tcpysComplete id) s = .next (if t ≤ s.pt then
        { (s.dropOp id).writeWord word with blocked := [] } else { s with blocked := [] })) ∧
      (o.horizon = none → (∀ r ∈ c.requests, r.1 ∉ o.note →
          o.lineWaits r.1 = false ∧ firstFault s x o.denied false true [r.2] = none) →
        ∃ t h, exec (.tcpysComplete id) s = .next t ∧ s.pt ≤ h ∧ o.reached ≤ h ∧
          (t.op id).map Op.horizon = if h ≤ s.pt then none else some (some h)) ∧
      ∀ (va n : Nat) (e : TlbEntry), o.horizon = none → x.compulsory = false → c.mx = false → c.requests = [(0, va, n)] →
        c.nin 0 * c.esize = 8 * n → n ≤ c.rowBytes → va % 4096 + n ≤ 4096 → 0 ∉ o.note → o.lineWaits 0 = false →
        va / 4096 ∉ o.denied → walk s x va false true = .ok e → e.shadow = none → e.phys va + n ≤ 2 ^ 52 →
        ∃ t, exec (.tcpysComplete id) s = .next t ∧ (∀ i < n, t.byteAt (e.phys va + i) = image.1.getD i 0) ∧
          ∀ y < 2 ^ 52, y < e.phys va ∨ e.phys va + n ≤ y → t.byteAt y = s.byteAt y) ∧
    ∀ (c : CopyDesc) (obj : Nat × Nat × Nat) (base count : Nat) (x : Context) (w : Wave), o.kind = .tcpyv c obj base count →
      inOrder s o = true → s.ctx o.ctx = some x → s.findOwner o.owner = some w → w.lanes.length ≤ 64 →
      let todo := (List.range w.lanes.length).filter fun q => !o.note.contains q
      let reads (q : Nat) : Bool := (c.rowRequests q).all fun r =>
        !o.lineWaits r.1 && (firstFault s x o.denied true false [r.2]).isNone
      let now := todo.filter reads
      let ranges := (now.flatMap c.rowRequests).map (·.2)
      let delivered (w' : Wave) (q : Nat) : Prop := ∀ r < count, ∀ v : Word,
        (((c.laneBytes s x o.denied q).drop (4 * r)).take 4).map (Option.map Prod.fst) =
          ((List.range 4).map fun k => some ((v >>> (8 * k)).setWidth 8)) →
        w'.getV (base + r) q = v
      rangesFail s x o.denied ranges = none →
      ((∀ q ∈ todo, reads q = true) →
        ∃ w', exec (.tcpyvDelivery id) s = .next { (((s.refreshTlb o.core x o.denied false ranges).onWave w.uid fun _ => w').dropOp
            id).credit o obj.1 obj.2.1 obj.2.2 (4 * count * w.width) with blocked := [] } ∧
          w'.regs.vBusy = w.regs.vBusy.filter (fun r => r.1 ≠ id) ∧ w'.pc = w.pc ∧ w'.regs.s = w.regs.s ∧
          ∀ q ∈ todo, delivered w' q) ∧
      ((∃ q ∈ todo, reads q = false) → o.owner = w.uid →
        ∃ t w', exec (.tcpyvDelivery id) s = .next t ∧ t.findOwner o.owner = some w' ∧ w'.regs.vBusy = w.regs.vBusy ∧
          (t.op id).map Op.note = some (now ++ o.note) ∧ (∀ q ∈ now, delivered w' q) ∧
          ∀ q < w.lanes.length, q ∉ now → ∀ r < count, w'.getV (base + r) q = w.getV (base + r) q)

/-! ## The matrix engine -/

/-- MACQ, MREL, MWAIT and MQRY (08 R224 to R228, R241, R245, R246): a free engine with nobody waiting is granted at once, its
tiles cleared where another context wrote them, its mode and latch none; the owner's MACQ does nothing; another wave
waits, and a free engine's grant goes to the oldest waiter. MREL gives it up; by another wave it raises MATRIX_OWNER. -/
def Obligations.MatrixOwnership : Prop :=
  ∀ (p : Bool) (d : BitVec 7),
    let plain (w : Wave) : Prop := w.fore = false ∧ w.cpt = false
    let granted (m : Matrix) (uid c : Nat) : Matrix :=
      { m with
        tiles := if m.lastCtx = some c then m.tiles else [], poison := if m.lastCtx = some c then m.poison else []
        writers := if m.lastCtx = some c then m.writers else [], mode := none, latch := none, owner := some uid
        waiters := m.waiters.filter (fun x => x ≠ uid), lastCtx := some c, nanw := false, infw := false }
    Answers (.macq p) (fun _ => p) []
      (fun s u w _ => plain w ∧ (s.mat (u / 64)).owner = none ∧ (s.mat (u / 64)).queue = [] ∧ (s.mat (u / 64)).waiters = [])
      (fun s u w b => (s.setWave u w.next).onMat (u / 64) fun m => granted m w.uid b.ctx) ∧
    Answers (.macq p) (fun _ => p) [] (fun s u w _ => plain w ∧ (s.mat (u / 64)).owner = some w.uid)
      (fun s u w _ => s.setWave u w.next) ∧
    Answers (.macq p) (fun _ => p) []
      (fun s u w _ => plain w ∧ (s.mat (u / 64)).owner ≠ some w.uid ∧
        ((s.mat (u / 64)).owner ≠ none ∨ (s.mat (u / 64)).queue ≠ [] ∨ (s.mat (u / 64)).waiters ≠ []))
      (fun s u w _ => ((s.setWave u { w with wait := .macq, word := s.ir }).passTurn u w false).onMat (u / 64) fun m =>
        { m with waiters := m.waiters ++ [w.uid] }) ∧
    Answers (.mrel p) (fun _ => p) [] (fun s u w _ => plain w ∧ (s.mat (u / 64)).owner = some w.uid)
      (fun s u w _ => (s.setWave u w.next).onMat (u / 64) fun m => { m with owner := none, mode := none, latch := none }) ∧
    Raises (.mrel p) (fun _ => p) [] (fun s u w _ => w.fore = false ∧ (w.cpt = true ∨ (s.mat (u / 64)).owner ≠ some w.uid))
      (fun s _ _ => ⟨0x10#8, s.ir, 0⟩) ∧
    Answers (.mwait p) (fun _ => p) [] (fun s u w _ => plain w ∧ ∀ e ∈ (s.mat (u / 64)).queue, e.owner ≠ w.uid)
      (fun s u w _ => s.setWave u w.next) ∧
    Answers (.mqry p d) (fun _ => p) [.sd d 1]
      (fun s u w b => w.fore = false ∧ (s.cmp b = true → ∀ e ∈ (s.mat (u / 64)).queue, e.owner ≠ w.uid))
      (fun s u w b =>
        let m := s.mat (u / 64)
        let own : Bool := m.owner = some w.uid
        s.setWave u (w.wrS d (0#18 ++ bit m.infw ++ bit m.nanw
          ++ (if s.cmp b then 0#8 else BitVec.ofNat 8 (min m.waiters.length 255))
          ++ bit (if s.cmp b then own else m.owner.isSome) ++ bit m.latch.isSome ++ bit (!s.cmp b && !m.queue.isEmpty)
          ++ bit own)).next) ∧
    ∀ (s : State) (core uid : Nat) (l : List Nat) (w : Wave) (b : Block), s.runs core = true → (s.mat core).owner = none →
      (s.mat core).queue = [] → (s.mat core).waiters = uid :: l → s.findWave uid = some w → s.block w.block = some b →
      s.cmp b = false → exec (.matrixGrant core) s =
        .next { (s.onMat core fun m => granted m uid b.ctx).onWave uid (fun v => { v.next with wait := .none }) with
          blocked := [] }

/-- The owner's instructions at issue (08 R229 to R236, R242 to R244): MMODE takes a legal mode word with the code-eight
values, else raises MODE_INVALID; MMA and MLOOP, their operand block in range, take a queue entry with the registers'
contents, or the latched ones, and record the tile's writer; MACC takes a return-buffer entry, MACCW the registers, MZERO
the tile. The engine's steps (08 R223, R237, R240, R242 to R244): a K-step replaces each element of the tile's first rows
and columns, of two words where the accumulator is f64, with the format's combination of its row of A, its column of the
panel, their block or group scales, and its old value, which the first step of a non-accumulating instruction does not
read; MACCW replaces the words it has, MZERO all, MACC delivers the tile's words to its wave. Other tiles, other words and
memory are as they were. The registers that a step reads are captured at issue (log entry 35). -/
def Obligations.MatrixWork : Prop :=
  (∀ (p : Bool) (d a b : BitVec 7) (t : BitVec 3) (keep acc col : Bool),
     let owns (s : State) (u : Nat) (w : Wave) : Prop := w.fore = false ∧ w.cpt = false ∧ (s.mat (u / 64)).owner = some w.uid
     let room (s : State) (u : Nat) : Prop := (s.mat (u / 64)).queue.length < 8
     Answers (.mmode p a) (fun _ => p) [.ss a 1]
       (fun s u w _ => owns s u w ∧ MatMode.ok ⟨w.rdS a, w.csr.cza, w.csr.czb⟩ = true)
       (fun s u w _ => (s.setWave u w.next).onMat (u / 64) fun m =>
         { m with mode := some ⟨w.rdS a, w.csr.cza, w.csr.czb⟩, latch := none, nanw := false, infw := false }) ∧
     Raises (.mmode p a) (fun _ => p) [.ss a 1]
       (fun s u w _ => owns s u w ∧ MatMode.ok ⟨w.rdS a, w.csr.cza, w.csr.czb⟩ = false) (fun s w _ => ⟨0x08#8, s.ir, w.rdS a⟩) ∧
     (∀ e ∈ ([(.mma p keep acc t a b, false), (.mloop p keep acc t a b, true)] : List (Instr × Bool)),
       ∀ (s s1 : State) (u : Nat) (w : Wave) (blk : Block) (md : MatMode), Ready s u w blk p [.ss b 6] →
         let v := w.parked p
         let m := s.mat (u / 64)
         let o := readOpnds v b
         let steps := if e.2 then (o.k + md.stepK - 1) / md.stepK else if o.k = 0 then 0 else 1
         let step := if e.2 then o.astep else 0
         let opA : AOperand := m.latch.getD ⟨v.width, v.phys a 0, v.regs.v, v.regs.e, v.regs.vPoison, v.regs.ePoison⟩
         owns s u v → m.mode = some md → checkMma s v blk md o e.2 a = none → o.k ≠ 0 →
         (e.2 = true → 1 < steps → keep = false ∧ m.latch = none) → (∀ l, m.latch = some l → l.width = v.width) →
         (s.cmp blk = true → acc = true ∨ v.width < 64 ∨ o.n < 64 → foreignTile m v blk t.toNat = false) → room s u →
         busyA v md a steps step = false →
         scratchConflict s u blk (if s.cmp blk then matAccesses s blk md o v.width steps else []) true false none = some s1 →
         exec e.1 s = .next { ((s1.setWave u v.next).addMat u v blk
           (.mma md acc t.toNat opA step o.n (if e.2 then o.k else min o.k md.stepK) o.baddr o.bstride o.bgt o.agt 0)).onMat (u / 64)
             (fun m => { m with
               writers := m.writers.ins t.toNat (blk.ctx, blk.index, v.first), latch := if keep then some opA else none }) with
           blocked := [] }) ∧
     (∀ h g : Nat,
       let chosen (w : Wave) : Prop := h < 2 ∧ g < 2 ∧ (w.rdS b).toNat = h + 2 * g ∧ (g = 1 → col = true ∧ w.width ≠ 64)
       let mine (s : State) (u : Nat) (w : Wave) (blk : Block) : Prop :=
         s.cmp blk = true → foreignTile (s.mat (u / 64)) w blk t.toNat = false
       Answers (.macc p d col t b) (fun w => p || w.lacksRoom (128 * w.width)) [.vd d 32, .ss b 1]
         (fun s u w blk => owns s u w ∧ chosen w ∧ mine s u w blk ∧ room s u)
         (fun s u w blk => State.addMat { s.setWave u (w.awaits (pendingEntry s w ((List.range w.width).flatMap fun q =>
             (List.range 32).map fun i => .v (laneKey (w.phys d i) q)) (128 * w.width) 1)) with fresh := s.fresh + 1 } u w blk
           (.macc t.toNat col h g (w.phys d 0) s.fresh)) ∧
       ∀ (s : State) (u : Nat) (w : Wave) (blk : Block), Ready s u w blk p [.vall a 32, .ss b 1] →
         let v := w.parked p
         owns s u v → chosen v → mine s u v blk → room s u →
         ∃ data, exec (.maccw p col t a b) s = .next { ((s.setWave u v.next).addMat u v blk (.maccw t.toNat col h g data [])).onMat
             (u / 64) (fun m => { m with writers := m.writers.ins t.toNat (blk.ctx, blk.index, v.first) }) with blocked := [] } ∧
           ∀ q < v.width, ∀ i < 32, (∀ r < v.width, ∀ j < 32,
             drainKey t.toNat col h g j r = drainKey t.toNat col h g i q → j = i ∧ r = q) →
             data.find (drainKey t.toNat col h g i q) = some (v.rdVk a i q)) ∧
     Answers (.mzero p t) (fun _ => p) [] (fun s u w _ => owns s u w ∧ room s u)
       (fun s u w blk => ((s.setWave u w.next).addMat u w blk (.mzero t.toNat)).onMat (u / 64) fun m =>
         { m with writers := m.writers.ins t.toNat (blk.ctx, blk.index, w.first) })) ∧
  (∀ (s : State) (core : Nat) (e : MatEntry) (rest : List MatEntry) (b : Block) (u : Nat) (w : Wave), s.runs core = true →
     (s.mat core).queue = e :: rest → s.block e.block = some b → s.wave u = some w → w.block = e.block →
     let word (x : State) (t i j : Nat) : Word := (x.mat core).tiles.get 0 (4096 * t + 64 * i + j)
     let others (x : State) (t : Nat) : Prop :=
       x.mem = s.mem ∧ ∀ t' i j, t' ≠ t → i < 64 → j < 64 → word x t' i j = word s t' i j
     (∀ (md : MatMode) (acc : Bool) (t : Nat) (a : AOperand) (astep n k baddr bstride bgt agt step : Nat)
         (pan ga gb : ScratchRange), e.op = .mma md acc t a astep n k baddr bstride bgt agt step → md.ok = true →
       scratchRange s b ((baddr + step * bstride) % 2 ^ 32) (md.panelBytes n) = some pan →
       (isGi md.afmt = true → scratchRange s b ((agt + 256 * step) % 2 ^ 32) (4 * e.width) = some ga ∧
         scratchRange s b ((bgt + 256 * step) % 2 ^ 32) (4 * n) = some gb) →
       matReady s e (pan :: if isGi md.afmt then [ga, gb] else []) = true →
       let wide : Bool := md.acc = 1
       let group (f : Nat) (g : ScratchRange) (i : Nat) : MatScale :=
         if isGi f then .group (g.block.word (g.off + 4 * i)) else .none
       let old (i j : Nat) : Nat :=
         if wide then (word s t i (2 * j)).toNat + 2 ^ 32 * (word s t i (2 * j + 1)).toNat else (word s t i j).toNat
       let new (i j : Nat) : Nat := matCombine md (min md.stepK (k - step * md.stepK))
         (if step = 0 ∧ acc = false then matInit md else old i j)
         (a.row (a.base + step * astep) md.regsA i).1 (panelCol md pan n j).1
         (if isMx md.afmt then .e8m0 (a.e.get 0 (laneKey (a.base + step * astep) i)) else group md.afmt ga i)
         (if isMx md.bfmt then .e8m0 (pan.block.side.get 0 (8 * (pan.off / 128 + j / md.perLine) + j % md.perLine))
           else group md.afmt gb j)
       ∃ x, exec (.matrixStep core) s = .next x ∧ others x t ∧
         (x.mat core).queue = (if k ≤ (step + 1) * md.stepK then rest
           else { e with op := .mma md acc t a astep n k baddr bstride bgt agt (step + 1) } :: rest) ∧
         ∀ i < 64, ∀ l < 64, word x t i l =
           let j := if wide then l / 2 else l
           if i < e.width ∧ j < n then BitVec.ofNat 32 (if wide then new i j / 2 ^ (32 * (l % 2)) else new i j)
           else word s t i l) ∧
     (∀ (t h g : Nat) (col : Bool) (data : SMap Word) (bad : List Nat), e.op = .maccw t col h g data bad →
       ∃ x, exec (.matrixStep core) s = .next x ∧ others x t ∧ (x.mat core).queue = rest ∧
         ∀ i < 64, ∀ j < 64, word x t i j = (data.find (4096 * t + 64 * i + j)).getD (word s t i j)) ∧
     (∀ t : Nat, e.op = .mzero t →
       ∃ x, exec (.matrixStep core) s = .next x ∧ others x t ∧ (x.mat core).queue = rest ∧ ∀ i < 64, ∀ j < 64, word x t i j = 0) ∧
     ∀ (t h g base seq : Nat) (col : Bool), e.op = .macc t col h g base seq → (s.mat core).poison = [] → w.uid = e.owner →
       ∃ x v, exec (.matrixStep core) s = .next x ∧ x.mem = s.mem ∧ (x.mat core).tiles = (s.mat core).tiles ∧
         (x.mat core).queue = rest ∧ x.wave u = some v ∧ v.regs = w.regs ∧
         v.rb = w.rb.map fun en => if en.seq = seq then { en with
           vals := en.vals ++ (List.range e.width).flatMap fun q => (List.range 32).map fun i =>
             (.v (laneKey (base + i) q), if col then word s t (32 * h + i) (32 * g + q) else word s t q (32 * h + i))
           waiting := en.waiting - 1 } else en)

/-! ## Gates, counters and messages -/

/-- GPOST, GCANCEL, GADD, GRD and GSET (20 R403 to R416, R424): GPOST arms a free gate with the descriptor it reads, which
stays armed while no gate of the die is satisfied; GCANCEL frees an armed gate and answers 1, else 0; GADD issues an add
at device scope; GRD reads a counter, an acquire, in default mode, once the wave's earlier accesses to it are performed;
GSET sets one after a device release. A bad reference is GATE_MISUSE 2, an occupied gate 3. -/
def Obligations.GatesAndCounters : Prop :=
  ∀ (p : Bool) (d a b : BitVec 7) (vd n : Nat),
    let safe (blk : Block) : Prop := blk.rsafe = false
    let names (s : State) (blk : Block) (width : Nat) (r : Word) : Prop :=
      r.toNat = 65536 * vd + n ∧ n < 2 ^ width ∧ vd < 4 ∧ vd < (s.ctxD blk).nv
    (∀ (s : State) (u : Nat) (w : Wave) (blk : Block) (x : Context) (l : List Byte), Ready s u w blk p [.ss a 2, .ss b 1] →
      let v := w.parked p
      let desc : Desc := BitVec.ofNat 512 (leNat l)
      let lines := (pendLines s x none (desc.act = 9) (actDest desc)).eraseDups
      safe blk → names s blk 14 (v.rdS b) → s.ctx blk.ctx = some x → s.globalStores v = false → s.acquiring v false = false →
      (v.rdS64 a).toNat % 64 = 0 →
      homeRead s u v blk (v.rdS64 a).toNat 64 = .ok l → desc.ok x.nv = true → flagPlaceOk s blk desc = true → desc.act ≠ 10 →
      ((x.gate vd n).state ≠ .free → exec (.gpost p a b) s = .next (s.trap u v ⟨0x12#8, s.ir, 3⟩)) ∧
      ((x.gate vd n).state = .free → x.live = true → 2 ^ 31 ≤ (x.counters.get 0 (65536 * vd + desc.ctr) - desc.thr).toNat →
        (∀ h, h ≠ n → (x.gate vd h).satisfied (x.counters.get 0 (65536 * vd + desc.ctr)) desc.ctr = false) →
        ∃ t y, exec (.gpost p a b) s = .next t ∧ t.mem = s.mem ∧ t.ctx blk.ctx = some y ∧ y.counters = x.counters ∧
          y.gate vd n = ⟨.armed, desc, desc.thr, 0, blk.uid, lines⟩ ∧
          (∀ v' h, gateKey v' h ≠ gateKey vd n → y.gate v' h = x.gate v' h) ∧ ∃ w', t.wave u = some w' ∧ w'.pc = v.pc + 4)) ∧
    (∀ g : Gate, Answers (.gcancel p d a) (fun _ => p) [.sd d 1, .ss a 1]
      (fun s _ w blk => safe blk ∧ s.block w.block = some blk ∧ names s blk 14 (w.rdS a) ∧ (s.ctxD blk).gate vd n = g ∧
        ¬(g.state = .armed ∧ ∃ o ∈ s.ops, o.gateOf = some (blk.ctx, vd, n)))
      (fun s u w blk => if g.state = .armed then (s.setWave u (w.wrS d 1).next).freeGate blk.ctx vd n
        else s.setWave u (w.wrS d 0).next)) ∧
    Answers (.gadd p a b) (fun _ => p) [.ss a 1, .ss b 1]
      (fun s _ w blk => safe blk ∧ s.block w.block = some blk ∧ names s blk 16 (w.rdS a))
      (fun s u w blk => State.withOps (s.setWave u w.next) u w blk [.atomic
        ⟨true, 0, 0x00F0000000000000 + 0x40000 * vd + 4 * n, 4, false⟩ .add32 (w.rdS b).toNat 0 [] none .commutative .device]) ∧
    Answers (.grd p d a) (fun _ => p) [.sd d 1, .ss a 1]
      (fun s _ w blk => safe blk ∧ s.block w.block = some blk ∧ names s blk 16 (w.rdS a) ∧ (s.ctxD blk).compulsory = false ∧
        s.counterBusy w vd n = false)
      (fun s u w blk => s.setWave u ((w.synced s).wrS d
        ((s.ctxD blk).counters.get 0 (65536 * vd + n))).next) ∧
    (∀ (s : State) (u : Nat) (w : Wave) (blk : Block) (x : Context), Ready s u w blk p [.ss a 1, .ss b 1] → safe blk →
      names s blk 16 ((w.parked p).rdS a) → s.ctx blk.ctx = some x → x.compulsory = false →
      s.released (w.parked p) .device = true → x.gates.all (fun g => g.1 / 16384 ≠ vd) = true → x.live = true →
      ∃ t y, exec (.gset p a b) s = .next t ∧ t.mem = s.mem ∧ t.ctx blk.ctx = some y ∧
        ∀ k, y.counters.get 0 k = if k = 65536 * vd + n then (w.parked p).rdS b else x.counters.get 0 k) ∧
    ∀ i ∈ ([.gadd p a b, .gset p a b] : List Instr), ∀ (s : State) (u : Nat) (w : Wave) (blk : Block),
      Ready s u w blk p [.ss a 1, .ss b 1] → safe blk →
      (2 ^ 18 ≤ ((w.parked p).rdS a).toNat ∨ (s.ctxD blk).nv ≤ ((w.parked p).rdS a).toNat / 65536 % 4) →
      exec i s = .next (s.trap u (w.parked p) ⟨0x12#8, s.ir, 2⟩)

/-- Raises and actions (20 R403, R405, R408 to R411): an add through the counter window raises its counter, where no gate of
the die exists by just its amount; an action completes once its writes have: a FLAG writes one word and no other byte of
memory, an IRQ sends its interrupt, an EVENT its event, and then the gate goes on. RPUT and RGET send their message, an
RPUT's with the bytes read; COPY copies its bytes; REDUCE adds each word of its source to its destination in f32; an OPT
tile step leaves the new weights and moments of 21 R436 or R437 and sets LFLAG where an element is not finite, and a
commit publishes, counts the step and clears LFLAG where GFLAG is 0, and clears LFLAG alone where not (21 R434 to R439).
Bytes outside what an action writes are as before. -/
def Obligations.GateActions : Prop :=
  (∀ (s : State) (id : Nat) (tlb : Bool) (o : Op) (x : Context) (a : Access) (v w : Nat) (use : AtomUse) (sc : Scope),
    s.op id = some o → o.kind = .atomic a .add32 v w [] none use sc → inOrder s o = true → s.ctx o.ctx = some x → a.glob = true →
    inWindow a.addr = true → x.compulsory = false → x.live = true →
    x.gates.all (fun g => g.1 / 16384 ≠ windowVd a.addr) = true →
    ∃ t y, exec (.atomicPerform id ⟨tlb, []⟩) s = .next t ∧ t.mem = s.mem ∧ t.ops = s.ops.filter (fun p => p.id ≠ id) ∧
      t.ctx o.ctx = some y ∧ ∀ k, y.counters.get 0 k = if k = 65536 * windowVd a.addr + windowCtr a.addr
        then x.counters.get 0 k + BitVec.ofNat 32 v else x.counters.get 0 k) ∧
  ∀ (s : State) (id : Nat) (o : Op) (x : Context) (vd g block : Nat) (d : Desc) (snap : SMap Region) (acq : List Nat),
    s.op id = some o → o.kind = .gate vd g d block (some snap) acq → s.ctx o.ctx = some x → o.parked = none → o.note = [] →
    (∀ t, o.horizon = some t → exec (.gateActionComplete id) s =
      .next (if t ≤ s.pt then { s.gateDone o true with blocked := [] } else s)) ∧
    (o.horizon = none → d.act = 8 → exec (.gateActionComplete id) s = .next
      { State.gateDone { s with irqs := s.irqs ++ [.gate (BitVec.ofNat 64 (65536 * vd + g)).toNat (d.extractLsb' 160 32)] } o true with blocked := [] }) ∧
    (o.horizon = none → d.act = 7 → exec (.gateActionComplete id) s = .next { (s.gateEvent o.ctx vd 0
      (BitVec.ofNat 64 (d.fld 160 32) ||| (BitVec.ofNat 64 (65536 * vd + g) <<< 32)) (d.extractLsb' 192 64)).gateDone o true with
        blocked := [] }) ∧
    (∀ e : TlbEntry, o.horizon = none → o.denied = [] → d.act = 9 → d.getLsbD 256 = false → d.chen = false → x.compulsory = false →
      d.fld 160 64 % 4 = 0 → walk s x (d.fld 160 64) false true = .ok e →
      (∀ i < 4, e.phys (d.fld 160 64 + i) = e.phys (d.fld 160 64) + i) → e.phys (d.fld 160 64) % 4 = 0 →
      ∃ t, exec (.gateActionComplete id) s = .next t ∧
        (∀ i < 4, t.byteAt (e.phys (d.fld 160 64) + i) = (d.extractLsb' (224 + 8 * i) 8)) ∧
        ∀ y < 2 ^ 52, y < e.phys (d.fld 160 64) ∨ e.phys (d.fld 160 64) + 4 ≤ y → t.byteAt y = s.byteAt y) ∧
    (let len := d.fld 288 24
    let ref : DWord := BitVec.ofNat 64 (65536 * vd + g)
    o.horizon = none →
    (d.act = 1 → ∀ p : Nat, reachable s x (d.fld 320 10) = true → o.denied = [] → Mapped s x (d.fld 160 64) len p true false →
      ∃ l : List Nat, exec (.gateActionComplete id) s = .next { s.setOp { o with note := [2] } with
          link := s.link ++ [.put x.linktag (d.fld 320 10) (d.getLsbD 312) (BitVec.ofNat 64 (d.fld 224 64)) (d.fld 330 2)
            (d.fld 336 16) (d.extractLsb' 352 32) ((List.range len).map fun i => s.byteAt (p + i)) l o.id]
          blocked := [] } ∧
        ∀ k, k ∈ l ↔ ∃ i < len, i / 4 * 4 = k ∧ s.poison.get false ((p + i) / 32) = true) ∧
    (d.act = 2 → reachable s x (d.fld 320 10) = true → exec (.gateActionComplete id) s = .next { s.setOp { o with note := [2] } with
      link := s.link ++ [.get x.linktag (d.fld 320 10) (BitVec.ofNat 64 (d.fld 224 64)) len o.id], blocked := [] }) ∧
    (d.act = 2 → reachable s x (d.fld 320 10) = false → exec (.gateActionComplete id) s = .next
      { (s.gateEvent o.ctx vd 1 ref (BitVec.ofNat 64 (d.fld 224 64))).gateDone o true with blocked := [] }) ∧
    (d.chen = false → o.denied = [] → x.compulsory = false →
      (d.act = 3 → ∀ p q : Nat, Mapped s x (d.fld 160 64) len p true false → Mapped s x (d.fld 224 64) len q false true →
        ∃ t, exec (.gateActionComplete id) s = .next t ∧ (∀ i < len, t.byteAt (q + i) = s.byteAt (p + i)) ∧
          SameOutside s t [(q, len)]) ∧
      (d.act = 4 → ∀ p q : Nat, Mapped s x (d.fld 160 64) (4 * len) p true false →
        Mapped s x (d.fld 224 64) (4 * len) q false true → (p + 4 * len ≤ q ∨ q + 4 * len ≤ p) →
        d.fld 160 64 % 4 = 0 → d.fld 224 64 % 4 = 0 → Untabled s x [(q, 4 * len)] →
        ∃ t, exec (.gateActionComplete id) s = .next t ∧
          (∀ i < len, t.wordAt (q + 4 * i) = (fpAdd f32 .rne (s.wordAt (q + 4 * i)) (s.wordAt (p + 4 * i)) 0).code) ∧
          SameOutside s t [(q, 4 * len)]) ∧
      ∀ D : BitVec 1024, d.act = 5 → s.poison = [] → cleanNat (engineRead s x [] (d.fld 160 64) 128) = some D.toNat →
        optOk (d.fld 160 64) D = true →
        let f (lo n : Nat) : Nat := (D.extractLsb' lo n).toNat
        let mul (a b : Nat) : Nat := (fpMul f32 .rne a b 0).code
        let add (a b : Nat) : Nat := (fpAdd f32 .rne a b 0).code
        let sub (a b : Nat) : Nat := (fpSub f32 .rne a b 0).code
        let div (a b : Nat) : Nat := (fpDiv f32 .rne a b 0).code
        let q1 := mul (f 768 32) (f 576 32)
        let q2 := mul (f 800 32) (f 640 32)
        (∀ pg pw pm pv pl : Nat, d.fld 224 32 ≠ 2 ^ 32 - 1 → f 320 64 = 0 →
          let n := f 32 32
          let tile (base : Nat) : Nat := (base + 4 * (n * d.fld 224 32)) % 2 ^ 64
          let adam : Bool := f 0 4 = 0
          let outs : List (Nat × Nat) := [(pw, 4 * n), (pm, 4 * n)] ++ if adam then [(pv, 4 * n)] else []
          Mapped s x (tile (f 64 64)) (4 * n) pg true false →
          (∀ r ∈ [(f 128 64, pw), (f 192 64, pm)] ++ (if adam then [(f 256 64, pv)] else []),
            Mapped s x (tile r.1) (4 * n) r.2 true false ∧ Mapped s x (tile r.1) (4 * n) r.2 false true) →
          Mapped s x (f 384 64) 4 pl false true →
          (outs ++ [(pl, 4)]).Pairwise (fun (a b : Nat × Nat) => a.1 + a.2 ≤ b.1 ∨ b.1 + b.2 ≤ a.1) → Untabled s x (outs ++ [(pl, 4)]) →
          let a (j : Nat) : Nat := mul (s.wordAt (pg + 4 * j)) (f 736 32)
          let w (j : Nat) : Nat := s.wordAt (pw + 4 * j)
          let m' (j : Nat) : Nat := add (mul (f 576 32) (s.wordAt (pm + 4 * j)))
            (if adam then mul (f 608 32) (a j) else add (a j) (mul (f 544 32) (w j)))
          let v' (j : Nat) : Nat := add (mul (f 640 32) (s.wordAt (pv + 4 * j))) (mul (f 672 32) (mul (a j) (a j)))
          let w' (j : Nat) : Nat :=
            if adam then
              let root := (fpSqrt f32 .rne (div (v' j) (sub 0x3F800000 q2)) 0).code
              let u := add (div (div (m' j) (sub 0x3F800000 q1)) (add root (f 704 32))) (mul (f 544 32) (w j))
              sub (w j) (mul (f 512 32) u)
            else sub (w j) (mul (f 512 32) (m' j))
          let bad := (List.range n).any fun j =>
            !finite32 (a j) || !finite32 (m' j) || (adam && !finite32 (v' j)) || !finite32 (w' j)
          ∃ t, exec (.gateActionComplete id) s = .next t ∧
            (∀ j < n, t.wordAt (pw + 4 * j) = w' j ∧ t.wordAt (pm + 4 * j) = m' j ∧ (adam = true → t.wordAt (pv + 4 * j) = v' j)) ∧
            t.wordAt pl = (if bad then 0x3F800000 else s.wordAt pl) ∧ SameOutside s t (outs ++ [(pl, 4)])) ∧
        ∀ pd pf pl : Nat, d.fld 224 32 = 2 ^ 32 - 1 → Mapped s x (f 448 64) 4 pf true false → Mapped s x (f 384 64) 4 pl false true →
          Mapped s x (d.fld 160 64 + 96) 12 pd false true → (pd + 12 ≤ pl ∨ pl + 4 ≤ pd) → Untabled s x [(pd, 12), (pl, 4)] →
          (∀ k < f 8 2, (x.regions.get Region.empty (f (864 + 12 * k) 12)).valid = true) →
          ∃ t y, exec (.gateActionComplete id) s = .next t ∧ t.ctx o.ctx = some y ∧ t.wordAt pl = 0 ∧
            (s.wordAt pf ≠ 0 → SameOutside s t [(pl, 4)] ∧ y.regions = x.regions) ∧
            (s.wordAt pf = 0 →
              t.wordAt (pd + 8) = (f 832 32 + 1) % 2 ^ 32 ∧
              (if f 0 4 = 0 then t.wordAt pd = q1 ∧ t.wordAt (pd + 4) = q2 ∧ SameOutside s t [(pd, 12), (pl, 4)]
                else SameOutside s t [(pd + 8, 4), (pl, 4)]) ∧
              (f 8 2 = 0 → y.regions = x.regions) ∧
              (f 8 2 = 1 → let rg := x.regions.get Region.empty (f 864 12)
                y.regions.get Region.empty (f 864 12) = { rg with edge := !rg.edge, pct := BitVec.ofNat 64 (s.pt + 258) }))))

/-- RPUT, RGET and RFLAG (20 R413, R417, R418): from a forerunner or a communication wave, their fields checked, each takes an
operation with its fields, which leaves for the peer later; another wave's RPUT or RGET is COMM_ONLY. PUBLISH and PUBQ (12
R307 to R310): PUBLISH of a valid region flips its face after a device release and, in default mode, answers the
publish-completion time, package time plus 258 ticks, which joins the wave's horizon; PUBQ answers the face and whether
that time has passed. Both are illegal at check 6 beyond region 4,095, and at check 7 for a region without VALID (the
number is the model's log entry 46). That a region without VALID is illegal at check 7 is the model's reading (log entry
46). -/
def Obligations.MessagesAndPublication : Prop :=
  (∀ (p : Bool) (a b : BitVec 7),
     let comm (w : Wave) : Prop := w.fore = true ∨ (w.cpt = false ∧ w.csr.comm = true)
     let r (w : Wave) (k : Nat) : Nat := (w.rdSk a k).toNat
     let counter (w : Wave) : Option Nat :=
       if 2 ^ 31 ≤ r w 7 then some (65536 * (r w 7 / 2 ^ 16 % 4) + r w 7 % 2 ^ 16) else none
     Answers (.rput p a) (fun _ => p) [.ss a 8]
       (fun s _ w blk => s.block w.block = some blk ∧ blk.rsafe = false ∧ comm w ∧
         checkMessage s (s.ctxD blk) w a false = none ∧ s.globalStores w = false)
       (fun s u w blk => State.withOps (s.setWave u w.next) u w blk [.net (.put ((w.rdSk a 4).getLsbD 24) (w.rdS64 a).toNat
         (w.rdSk a 3 ++ w.rdSk a 2) (r w 4 % 2 ^ 24) (r w 5 % 2 ^ 10) (r w 5 / 2 ^ 10 % 4) (r w 5 / 2 ^ 16) (w.rdSk a 6))
         false [] (counter w)]) ∧
     Answers (.rget p a) (fun _ => p) [.ss a 8]
       (fun s _ w blk => s.block w.block = some blk ∧ blk.rsafe = false ∧ comm w ∧
         checkMessage s (s.ctxD blk) w a true = none ∧ s.globalStores w = false)
       (fun s u w blk => (s.setWave u w.next).addEngineOp u w blk
         (pendLines s (s.ctxD blk) none false [((w.rdS64 a).toNat, r w 4 % 2 ^ 24)]).eraseDups
         (.net (.get (w.rdS64 a).toNat (w.rdSk a 3 ++ w.rdSk a 2) (r w 4 % 2 ^ 24) (r w 5 % 2 ^ 10)) false
           (s.ctxD blk).regions (counter w))) ∧
     Answers (.rflag p a b) (fun _ => p) [.ss a 1, .ss b 1]
       (fun s _ w blk => s.block w.block = some blk ∧ blk.rsafe = false ∧ (w.rdS a).toNat / 2 ^ 12 % 16 = 0 ∧
         (w.rdS a).toNat % 2 ^ 10 ≠ 1023 ∧ s.globalStores w = false ∧
         ((w.rdS a).toNat % 2 ^ 10 = s.boot.accel.toNat → (w.rdS a).toNat / 2 ^ 10 % 4 < (s.ctxD blk).nv))
       (fun s u w blk => State.withOps (s.setWave u w.next) u w blk [.net
         (.flag ((w.rdS a).toNat % 2 ^ 10) ((w.rdS a).toNat / 2 ^ 10 % 4) ((w.rdS a).toNat / 2 ^ 16) (w.rdS b)) false [] none]) ∧
     ∀ i ∈ ([.rput p a, .rget p a] : List Instr), Raises i (fun _ => p) [.ss a 8]
       (fun s _ w blk => s.block w.block = some blk ∧ blk.rsafe = false ∧ ¬comm w) fun s _ _ => ⟨0x11#8, s.ir, 0⟩) ∧
  (∀ (p : Bool) (d a : BitVec 7),
     Answers (.publish p d a) (fun _ => p) [.sd d 2, .ss a 1]
       (fun s _ w blk => s.block w.block = some blk ∧ blk.rsafe = false ∧ (w.rdS a).toNat ≤ 4095 ∧ s.released w .device = true ∧
         ((s.ctxD blk).regions.get Region.empty (w.rdS a).toNat).valid = true ∧ (s.ctxD blk).compulsory = false)
       (fun s u w blk =>
         let w1 := (w.wrS64 d (BitVec.ofNat 64 (s.pt + 258))).next
         ((s.setWave u { w1 with csr := { w1.csr with rhz := max w1.csr.rhz (s.pt + 258) } }).flipRegion blk.ctx
           (w.rdS a).toNat false).joinRhz w.uid blk.ctx blk.record (s.pt + 258)) ∧
     Answers (.publish p d a) (fun _ => p) [.sd d 2, .ss a 1]
       (fun s _ w blk => s.block w.block = some blk ∧ blk.rsafe = false ∧ (w.rdS a).toNat ≤ 4095 ∧ s.released w .device = true ∧
         ((s.ctxD blk).regions.get Region.empty (w.rdS a).toNat).valid = true ∧ (s.ctxD blk).compulsory = true)
       (fun s u w blk => (s.setWave u (w.wrS64 d 0).next).flipRegion blk.ctx (w.rdS a).toNat false) ∧
     (∀ rg : Region, Answers (.pubq p d a) (fun _ => p) [.sd d 1, .ss a 1]
       (fun s _ w blk => s.block w.block = some blk ∧ blk.rsafe = false ∧ (w.rdS a).toNat ≤ 4095 ∧ s.acquiring w false = false ∧
         (s.ctxD blk).regions.get Region.empty (w.rdS a).toNat = rg ∧ rg.valid = true)
       (fun s u w blk =>
         let settled : Bool := (s.ctxD blk).compulsory = false ∧ rg.pct.toNat ≤ s.pt
         let w1 : Wave := if settled then w.synced s else w
         s.setWave u (w1.wrS d (0#30 ++ bit settled ++ bit rg.edge)).next)) ∧
     ∀ i ∈ ([(.pubq p d a, 1), (.publish p d a, 2)] : List (Instr × Nat)),
       Raises i.1 (fun _ => p) [.sd d i.2, .ss a 1]
         (fun s _ w blk => s.block w.block = some blk ∧ blk.rsafe = false ∧ 4095 < (w.rdS a).toNat)
         (fun s _ _ => ⟨0x01#8, s.ir, 6⟩) ∧
       Raises i.1 (fun _ => p) [.sd d i.2, .ss a 1]
         (fun s _ w blk => s.block w.block = some blk ∧ blk.rsafe = false ∧ (w.rdS a).toNat ≤ 4095 ∧
           s.acquiring w false = false ∧ s.released w .device = true ∧
           ((s.ctxD blk).regions.get Region.empty (w.rdS a).toNat).valid = false)
         fun s _ _ => ⟨0x01#8, s.ir, 7⟩)

/-- Messages as they leave, arrive and are answered (20 R417 to R423; 21 R431 to R433): an RFLAG, an RPUT with the bytes it
reads and an RGET in order leave for their peer, or are undeliverable where it cannot be reached; a message for a LINKTAG
that no context has is refused; an RFLAG's arrival raises the counter and is acknowledged, an untagged RPUT's writes its
bytes first, a tagged one's goes through the receive gate it matches, whose counter it raises, or is listed, or is too
long and writes nothing; a request is answered with memory's bytes; an acknowledgement or an undeliverable message ends
the operation; a failed port is fenced. That an arrival is taken whole, once its lines' leases are over, is the model's
log entry 39, what a request's poison marks are its log entry 47. -/
def Obligations.MessagesTravel : Prop :=
  (∀ (s : State) (id peer vd ctr : Nat) (tlb : Bool) (amt : Word) (o : Op) (x : Context) (loc : Option Nat), s.op id = some o →
    o.kind = .net (.flag peer vd ctr amt) false [] loc → inOrder s o = true → s.ctx o.ctx = some x →
    peer ≠ s.boot.accel.toNat → reachable s x peer = true →
    exec (.storePerform id tlb) s = .next { s with
      ops := s.ops.map fun y => if y.id = id then { o with kind := .net (.flag peer vd ctr amt) true [] loc } else y
      link := s.link ++ [.flag x.linktag peer vd ctr amt id], blocked := [] }) ∧
  (∀ (s : State) (id laddr len peer rvd rctr p : Nat) (tlb tagged : Bool) (raddr : DWord) (radd : Word) (o : Op) (x : Context)
      (rg : SMap Region) (loc : Option Nat), s.op id = some o → inOrder s o = true → s.ctx o.ctx = some x → o.denied = [] →
    let sent (n : NetOp) (rg : SMap Region) (m : LinkMsg) : State := { s with
      ops := s.ops.map fun y => if y.id = id then { o with kind := .net n true rg loc } else y, link := s.link ++ [m], blocked := [] }
    let lost (n : NetOp) : State := { (s.gateEvent o.ctx (x.vdOf (o.core / 32)) 1 0xFFFFFFFF raddr).endNet o loc with blocked := [] }
    (∀ n, n = .put tagged laddr raddr len peer rvd rctr radd → o.kind = .net n false rg loc →
      Mapped s x laddr len p true false →
      (reachable s x peer = true → ∃ l : List Nat, (exec (.storePerform id tlb) s = .next (sent n rg
          (.put x.linktag peer tagged raddr rvd rctr radd ((List.range len).map fun i => s.byteAt (p + i)) l id))) ∧
        ∀ k, k ∈ l ↔ ∃ i < len, i / 4 * 4 = k ∧ s.poison.get false ((p + i) / 32) = true) ∧
      (reachable s x peer = false → exec (.storePerform id tlb) s = .next (lost n))) ∧
    (∀ n, n = .get laddr raddr len peer → o.kind = .net n false rg loc →
      exec (.storePerform id tlb) s =
        .next (if reachable s x peer then sent n rg (.get x.linktag peer raddr len id) else lost n))) ∧
  (∀ (s : State) (m : RputMessage) (c p : Nat) (x : Context), s.ctxs = [(c, x)] → m.link ≠ 0 → x.linktag = m.link →
    m.tagged = true → m.rvd.toNat < x.nv → x.compulsory = false → x.live = true → x.arrDenied = [] →
    let vd := m.rvd.toNat
    let n := m.bytes.length
    let a : Arrival := ⟨vd, m.source.toNat, m.raddr.toNat % 2 ^ 16, m.raddr.toNat / 2 ^ 16 % 2 ^ 16, m.raddr.toNat / 2 ^ 32, m.radd,
      m.bytes, m.poison⟩
    (x.gates = [] → (x.unexp.map fun k => (k.bytes.length + 287) / 256).sum + (n + 287) / 256 ≤ x.unexpArea.2 / 256 →
      exec (.rputArrival m) s = .next { s.setCtx c { x with unexp := x.unexp ++ [a], unexpFull := false } with
        link := s.link ++ [.ack m.source.toNat], blocked := [] }) ∧
    ∀ (g : Nat) (y : Gate), g < 16384 → x.gates = [(16384 * vd + g, y)] → y.state = .armed → y.desc.act = 10 →
      y.desc.fld 256 16 = a.tag → y.desc.fld 272 16 = a.tile → y.desc.fld 288 10 ∈ [a.source, 1023] → y.desc.chen = false →
      let raised (t : State) : Prop := exec (.rputArrival m) s = .next t ∧ t.link = s.link ++ [.ack m.source.toNat] ∧
        ∃ z, t.ctx c = some z ∧ ∀ k, z.counters.get 0 k =
          if k = 65536 * vd + y.desc.ctr then x.counters.get 0 k + m.radd else x.counters.get 0 k
      (y.desc.fld 224 32 < a.offset + n → ∃ t, raised t ∧ t.mem = s.mem ∧ (t.ctx c).map Context.gates = some x.gates) ∧
      (a.offset + n ≤ y.desc.fld 224 32 → Mapped s x (y.desc.fld 160 64 + a.offset) n p false true → s.wct p n ≤ s.pt →
        ∃ t, raised t ∧ (∀ i (h : i < n), t.byteAt (p + i) = m.bytes[i]) ∧ SameOutside s t [(p, n)] ∧
          (t.ctx c).map (fun z => z.gate vd g) = some (
            if y.delivered + n < y.desc.fld 224 32 then { y with delivered := y.delivered + n }
            else if y.desc.rearm then { y with delivered := 0 } else Gate.empty))) ∧
  (∀ (s : State) (m : RputMessage) (f : RflagMessage) (r : RgetRequest), (∀ c ∈ s.ctxs, c.2.linktag ≠ m.link ∨ m.link = 0) →
    f.link = m.link → r.link = m.link → f.source = m.source → r.source = m.source →
    ∀ i ∈ ([.rputArrival m, .rflagArrival f, .rgetRequestArrival r] : List Instr),
      exec i s = .next { s with link := s.link ++ [.refuse m.source.toNat], blocked := [] }) ∧
  (∀ (s : State) (f : RflagMessage) (c : Nat) (x : Context), s.ctxs = [(c, x)] → f.link ≠ 0 → x.linktag = f.link →
    f.rvd.toNat < x.nv → exec (.rflagArrival f) s = .next { s.raise c f.rvd.toNat f.rctr.toNat f.radd [] with
      link := (s.raise c f.rvd.toNat f.rctr.toNat f.radd []).link ++ [.ack f.source.toNat], blocked := [] }) ∧
  (∀ (s : State) (m : RputMessage) (c : Nat) (x : Context) (e : TlbEntry), s.ctxs = [(c, x)] → m.link ≠ 0 →
    x.linktag = m.link → m.tagged = false → m.rvd.toNat < x.nv → x.compulsory = false → x.gates = [] → x.live = true →
    x.arrDenied = [] →
    m.raddr.toNat % 4096 + m.bytes.length ≤ 4096 → 0 < m.bytes.length → walk s x m.raddr.toNat false true = .ok e → e.shadow = none →
    s.wct (e.phys m.raddr.toNat) m.bytes.length ≤ s.pt → e.phys m.raddr.toNat + m.bytes.length ≤ 2 ^ 52 →
    ∃ t, exec (.rputArrival m) s = .next t ∧ t.link = s.link ++ [.ack m.source.toNat] ∧
      (∀ i (h : i < m.bytes.length), t.byteAt (e.phys m.raddr.toNat + i) = m.bytes[i]) ∧
      (∀ y < 2 ^ 52, y < e.phys m.raddr.toNat ∨ e.phys m.raddr.toNat + m.bytes.length ≤ y → t.byteAt y = s.byteAt y) ∧
      ∃ y, t.ctx c = some y ∧ ∀ k, y.counters.get 0 k =
        if k = 65536 * m.rvd.toNat + m.rctr.toNat then x.counters.get 0 k + m.radd else x.counters.get 0 k) ∧
  (∀ (s : State) (r : RgetRequest) (c : Nat) (x : Context) (e : TlbEntry), s.ctxs = [(c, x)] → r.link ≠ 0 →
    x.linktag = r.link → x.arrDenied = [] → r.raddr.toNat % 4096 + r.len.toNat ≤ 4096 → 0 < r.len.toNat →
    walk s x r.raddr.toNat true false = .ok e → (∀ i < r.len.toNat, e.phys (r.raddr.toNat + i) = e.phys r.raddr.toNat + i) →
    ∃ t l, exec (.rgetRequestArrival r) s = .next t ∧ t.mem = s.mem ∧ t.link = s.link ++ [.data r.source.toNat r.token
        ((List.range r.len.toNat).map fun i => s.byteAt (e.phys r.raddr.toNat + i)) l] ∧
      ∀ k, k ∈ l ↔ ∃ i < r.len.toNat, i / 4 * 4 = k ∧ s.poison.get false ((e.phys r.raddr.toNat + i) / 32) = true) ∧
  (∀ (s : State) (id laddr peer : Nat) (o : Op) (x : Context) (raddr : DWord) (bytes : List (BitVec 8)) (poison : List Nat)
      (rg : SMap Region) (loc : Option Nat) (e : TlbEntry), s.op id = some o → s.ctx o.ctx = some x →
    o.kind = .net (.get laddr raddr bytes.length peer) true rg loc → o.parked = none → x.compulsory = false →
    (∀ t, o.horizon = some t → exec (.rgetResponse id ⟨bytes, poison⟩) s =
      .next (if t ≤ s.pt then { s.endNet o loc with blocked := [] } else s)) ∧
    (o.horizon = none → laddr / 4096 ∉ o.denied → laddr % 4096 + bytes.length ≤ 4096 → 0 < bytes.length → laddr < 2 ^ 64 → walk s x laddr false true = .ok e →
      e.shadow = none → e.phys laddr + bytes.length ≤ 2 ^ 52 → loc = none →
      ∃ t, exec (.rgetResponse id ⟨bytes, poison⟩) s = .next t ∧
        (∀ i (h : i < bytes.length), t.byteAt (e.phys laddr + i) = bytes[i]) ∧
        ∀ y < 2 ^ 52, y < e.phys laddr ∨ e.phys laddr + bytes.length ≤ y → t.byteAt y = s.byteAt y)) ∧
  (∀ (s : State) (id : Nat) (o : Op) (x : Context) (n : NetOp) (rg : SMap Region) (loc : Option Nat), s.op id = some o →
    o.kind = .net n true rg loc → s.ctx o.ctx = some x →
    ((∀ a b c d, n ≠ .get a b c d) → exec (.rputAcknowledge id) s = .next { s.endNet o loc with blocked := [] }) ∧
    (o.horizon = none → exec (.messageUndeliverable id) s = .next { (s.gateEvent o.ctx (x.vdOf (o.core / 32)) 1 0xFFFFFFFF
      (match n with | .put _ _ r .. => r | .get _ r .. => r | .flag .. => 0)).endNet o loc with blocked := [] })) ∧
  ∀ (s : State) (port : Nat), port < 32 → exec (.ualinkPortFailure port) s =
    .next { s with boot := { s.boot with fenced := s.boot.fenced ||| (1#32 <<< port) }, blocked := [] }

/-! ## The Teasel engines -/

/-- TGATH, TRED, TCVT, STASH and RESTORE (14 R331 to R337; 16 R344 to R351): each reads a 64-byte descriptor whose operation
must be its own, checks it, and takes an operation in the queue of the stack that homes its source. The command runs: its
data writes are performed, and no other byte of memory is: a TGATH's rows by the indexes it read, or zeros, a TRED's
segments of the rows that name them, in their order, a TCVT's blocks of a row of one line, requantised with their scales
or dequantised, a STASH's encoded blocks and a RESTORE's decoded elements, with FIRST and COUNT of the blocks not finite
or corrupt. It completes once package time has reached its writes (the model's log entry 39), with bit 0 of its status
set: the status word is then written at the descriptor's end, after FIRST and COUNT of a STASH or a RESTORE (the order and
the stack are log entry 53). -/
def Obligations.TeaselCommands : Prop :=
  ∀ (p : Bool) (a : BitVec 7),
    (∀ e ∈ ([(.tgath p a, 1), (.tred p a, 2), (.tcvt p a, 3), (.stash p a, 4), (.restore p a, 5)] : List (Instr × Nat)),
      ∀ (s : State) (u : Nat) (w : Wave) (blk : Block) (l : List Byte) (hs : Desc × Desc), Ready s u w blk p [.ss a 2] →
        let v := w.parked p
        let D := (v.rdS64 a).toNat
        let d : Desc := BitVec.ofNat 512 (leNat l)
        let stack := stackOf s (s.ctxD blk) (u / 64 / 32) (if e.2 = 3 then hs.1.shBase else d.fld 192 64)
        s.globalStores v = false → s.acquiring v false = false → D % 64 = 0 → homeRead s u v blk D 64 = .ok l →
        (d.teaselOk (s.ctxD blk).nv e.2 && d.ownOk e.2) = true →
        (d.tScratchFlag = true → (scratchTarget s blk (d.fld 128 32) 4).isSome) →
        (if e.2 = 3 then cvtHandles s (s.ctxD blk) d = .ok hs else hs = (0, 0)) → stackQueue s stack < 64 →
        let t := (s.setWave u { v.next with denied := [] }).addEngineOp u v blk
          (pendLines s (s.ctxD blk) d.tFace false (teaselDests d hs.2)).eraseDups (.teasel D d hs.1 hs.2 (s.ctxD blk).regions)
        exec e.1 s = .next { t with
          ops := t.ops.map fun o => if o.id = s.fresh then { o with note := [stack] } else o
          blocked := [] }) ∧
    ∀ (s : State) (id D : Nat) (o : Op) (d src dst : Desc) (snap : SMap Region) (x : Context), s.op id = some o →
      o.kind = .teasel D d src dst snap → s.ctx o.ctx = some x → o.parked = none →
      (o.horizon = none → (d.fld 0 4 ≤ 2 → firstFault s x o.denied true false [(d.fld 256 64, 4 * d.fld 384 32)] = none) →
        optFault s x o.denied (teaselReads ⟨o, d, x, snap⟩ s src) (teaselDests d dst) = none →
        ∃ t h stat first count, exec (.teaselCommandComplete id) s = .next t ∧ s.pt ≤ h ∧ stat % 2 = 1 ∧ stat < 32 ∧
          (0 < d.fld 0 4 ∧ d.fld 0 4 < 4 → first = 2 ^ 32 - 1 ∧ count = 0) ∧
          t.op id = some { o with epend := [], horizon := some h, note := o.note.take 1 ++ [stat, first, count] }) ∧
      (∀ (ei es ed : TlbEntry) (j : Nat),
        let n := d.fld 448 32
        let from_ := d.fld 192 64 + j * n
        let to_ := d.fld 320 64
        o.horizon = none → o.denied = [] → x.compulsory = false → s.poison = [] → d.fld 0 4 = 1 → d.fld 384 32 = 1 →
        d.fld 256 64 % 4 = 0 → walk s x (d.fld 256 64) true false = .ok ei →
        (∀ i < 4, ei.phys (d.fld 256 64 + i) = ei.phys (d.fld 256 64) + i) → j < d.fld 416 32 →
        (∀ i < 4, s.byteAt (ei.phys (d.fld 256 64) + i) = BitVec.ofNat 8 (j / 256 ^ i)) → 0 < n →
        from_ + n ≤ 2 ^ 64 → from_ % 4096 + n ≤ 4096 → walk s x from_ true false = .ok es →
        (∀ i < n, es.phys (from_ + i) = es.phys from_ + i) → to_ % 4096 + n ≤ 4096 → walk s x to_ false true = .ok ed →
        ed.shadow = none → ed.phys to_ + n ≤ 2 ^ 52 →
        ∃ t h, exec (.teaselCommandComplete id) s = .next t ∧
          t.op id = some { o with epend := [], horizon := some h, note := o.note.take 1 ++ [1, 2 ^ 32 - 1, 0] } ∧
          (∀ i < n, t.byteAt (ed.phys to_ + i) = s.byteAt (es.phys from_ + i)) ∧
          ∀ y < 2 ^ 52, y < ed.phys to_ ∨ ed.phys to_ + n ≤ y → t.byteAt y = s.byteAt y) ∧
      (∀ ps pi pd : Nat, o.horizon = none → o.denied = [] → x.compulsory = false → s.poison = [] →
        let op := d.fld 0 4
        let ran (t : State) (stat first count : Nat) : Prop := exec (.teaselCommandComplete id) s = .next t ∧ ∃ h,
          t.op id = some { o with epend := [], horizon := some h, note := o.note.take 1 ++ [stat, first, count] }
        let apart (n m : Nat) : Prop := ps + n ≤ pd ∨ pd + m ≤ ps
        let none_ : Nat := 2 ^ 32 - 1
        (op = 1 →
          let rows := d.fld 384 32
          let n := d.fld 448 32
          Mapped s x (d.fld 256 64) (4 * rows) pi true false → (d.fld 416 32 = 0 ∨ Mapped s x (d.fld 192 64) (n * d.fld 416 32) ps true false) →
          Mapped s x (d.fld 320 64) (rows * n) pd false true → apart (n * d.fld 416 32) (rows * n) →
          (pi + 4 * rows ≤ pd ∨ pd + rows * n ≤ pi) → d.fld 256 64 % 4 = 0 → Untabled s x [(pd, rows * n)] →
          ∃ t, ran t (if (List.range rows).any (fun j => d.fld 416 32 ≤ s.wordAt (pi + 4 * j)) then 17 else 1) none_ 0 ∧
            (∀ j < rows, ∀ k < n, t.byteAt (pd + j * n + k) =
              if s.wordAt (pi + 4 * j) < d.fld 416 32 then s.byteAt (ps + s.wordAt (pi + 4 * j) * n + k) else 0) ∧
            SameOutside s t [(pd, rows * n)]) ∧
        (op = 2 →
          let rows := d.fld 384 32
          let segs := d.fld 416 32
          let n := d.fld 448 16
          let sum : Bool := !d.getLsbD 464
          let old (g i : Nat) : Nat := if d.getLsbD 465 then s.wordAt (pd + 4 * (n * g + i)) else if sum then 0 else 0xFF800000
          let value (g i : Nat) : Nat := ((List.range rows).filter fun k => s.wordAt (pi + 4 * k) = g).foldl (fun m k =>
            let y := s.wordAt (ps + 4 * (n * k + i))
            if sum then (fpAdd f32 .rne m y 0).code else (fpMinMax f32 true m y).code) (old g i)
          Mapped s x (d.fld 256 64) (4 * rows) pi true false → Mapped s x (d.fld 192 64) (4 * n * rows) ps true false →
          (d.getLsbD 465 = true → Mapped s x (d.fld 320 64) (4 * n * segs) pd true false) → Mapped s x (d.fld 320 64) (4 * n * segs) pd false true →
          d.fld 256 64 % 4 = 0 → Untabled s x [(pd, 4 * n * segs)] →
          ∃ t, ran t (if (List.range rows).any (fun k => segs ≤ s.wordAt (pi + 4 * k)) then 17 else 1) none_ 0 ∧
            (∀ g < segs, ∀ i < n, t.wordAt (pd + 4 * (n * g + i)) =
              if (f32.decode (value g i)).isNan then f32.nan else value g i) ∧
            SameOutside s t [(pd, 4 * n * segs)]) ∧
        (4 ≤ op →
          let fmt := stashFmt (d.fld 352 2)
          let size := fmt.bits / 8
          let form := if d.getLsbD 354 then stash32 else stash64
          let n := d.fld 320 32
          let blocks := (n + 63) / 64
          let elem (p i : Nat) : Nat := leNat ((List.range size).map fun k => s.byteAt (p + size * i + k))
          let coded (i : Nat) : List Byte × Bool := stashEncode form (d.fld 352 2)
            ((List.range 64).map fun j => fmt.decode (if 64 * i + j < n then elem ps (64 * i + j) else 0))
          let restored (i : Nat) : List Nat × Bool := stashDecode form fmt
            ((List.range form.size).map fun k => s.byteAt (ps + form.size * i + k))
          let odd (f : Nat → Bool) : List Nat := (List.range blocks).filter f
          (op = 4 → Mapped s x (d.fld 192 64) (n * size) ps true false →
            Mapped s x (d.fld 256 64) (blocks * form.size) pd false true → apart (n * size) (blocks * form.size) →
            Untabled s x [(pd, blocks * form.size)] →
            ∃ t, ran t 1 ((odd fun i => (coded i).2).headD none_) (odd fun i => (coded i).2).length ∧
              (∀ i < blocks, ∀ k < form.size, t.byteAt (pd + form.size * i + k) = (coded i).1.getD k 0) ∧
              SameOutside s t [(pd, blocks * form.size)]) ∧
          (op = 5 → d.getLsbD 355 = false → Mapped s x (d.fld 192 64) (blocks * form.size) ps true false →
            Mapped s x (d.fld 256 64) (n * size) pd false true → apart (blocks * form.size) (n * size) →
            Untabled s x [(pd, n * size)] →
            ∃ t, ran t 1 ((odd fun i => (restored i).2).headD none_) (odd fun i => (restored i).2).length ∧
              (∀ i < n, ∀ k < size, t.byteAt (pd + size * i + k) = (leBytes size ((restored (i / 64)).1.getD (i % 64) 0)).getD k 0) ∧
              SameOutside s t [(pd, n * size)])) ∧
        (op = 3 → ∀ (e : TlbEntry) (line : Nat),
          let n := dst.dim 0
          let plain := if src.shMx then dst else src
          let mx := if src.shMx then src else dst
          let size := if plain.shFmt = 5 then 2 else 4
          let out : Fmt := if plain.shFmt = 5 then bf16 else f32
          let per := mxPerLine mx.shFmt
          let place (b : Nat) : Nat := e.phys line + b * mxBlock mx.shFmt
          let code (u : State) (b k : Nat) : Nat :=
            leNat ((List.range (mxBlock mx.shFmt)).map fun i => u.byteAt (place b + i)) / 2 ^ (fmtBits mx.shFmt * k)
              % 2 ^ fmtBits mx.shFmt
          let scale (u : State) (b : Nat) : Byte := u.side.get 0 (8 * (e.phys line / 128) + b)
          let flat (p i : Nat) : Nat := leNat ((List.range size).map fun k => s.byteAt (p + size * i + k))
          src.dim 0 = n → 0 < n → n ≤ 32 * per → src.whole.rows = 1 → dst.whole.rows = 1 → line = mx.whole.line 0 0 →
          (mx.shFmt ≤ 4 ∧ mx.shMx = true ∧ plain.shMx = false ∧ plain.shFmt ∈ [5, 7]) → e.shadow = none → e.mx = true →
          e.phys line % 128 = 0 → line % 128 = 0 → (∀ i < 128, e.phys (line + i) = e.phys line + i) →
          (src.shMx = false → Mapped s x (src.whole.start 0) (size * n) ps true false → walk s x line false true = .ok e →
            (ps + size * n ≤ e.phys line ∨ e.phys line + 128 ≤ ps) → e.phys line + 128 ≤ 2 ^ 52 →
            Untabled s x [(e.phys line, 128)] →
            let xs (b : Nat) : List Nat := (List.range 32).map fun k =>
              if 32 * b + k < n then flat ps (32 * b + k) * (if size = 2 then 2 ^ 16 else 1) else 0
            let q (b : Nat) := requantise (mxFmtOf mx.shFmt) (mx.shFmt = 0) (mx.shFmt = 4) (xs b)
              (if d.getLsbD 256 then .rsr else .rne) (if d.fld 257 2 = 1 then .h16 else if d.fld 257 2 = 2 then .h32 else .none)
              (if d.getLsbD 259 then some (d.extractLsb' 264 8) else none) (seedLane (d.extractLsb' 288 32) b)
            ∃ t stat, ran t stat none_ 0 ∧ SameOutside s t [(e.phys line, 128)] ∧
              ∀ b < per, (∀ k < 32, code t b k = if 32 * b + k < n then (q b).codes.getD k 0 % 2 ^ fmtBits mx.shFmt else 0) ∧
                scale t b = if 32 * b < n then BitVec.ofNat 8 (q b).scale else 0) ∧
          (src.shMx = true → walk s x line true false = .ok e → Mapped s x (dst.whole.start 0) (size * n) pd false true →
            ∃ t, ran t 1 none_ 0 ∧ SameOutside s t [(pd, size * n)] ∧
              ∀ i < n, leNat ((List.range size).map fun k => t.byteAt (pd + size * i + k)) =
                let v := match (mxFmtOf mx.shFmt).decode (code s (i / 32) (i % 32)) with
                  | .fin g m ex => .fin g m (ex + (scale s (i / 32)).toNat - 127)
                  | v => v
                (fpOfVal out .rne false (if scale s (i / 32) = 0xFF then FVal.nan false else v) 0).code))) ∧
      ∀ (t stack stat first count : Nat) (e : TlbEntry), o.horizon = some t → o.note = [stack, stat, first, count] →
        (s.pt < t → exec (.teaselCommandComplete id) s = .next s) ∧
        (t ≤ s.pt → D % 64 = 0 → d.tAdds = false → d.tFlags = false → o.denied = [] → walk s x (D + 48) false true = .ok e →
          walk (if d.fld 0 4 < 4 then s
            else s.writeBytes (homeDie (e.phys (D + 48))) (e.phys (D + 48)) (leBytes 8 (first + 2 ^ 32 * count)) false) x (D + 60)
              false true = .ok e → (∀ i < 16, e.phys (D + 48 + i) = e.phys (D + 48) + i) → e.phys (D + 48) + 16 ≤ 2 ^ 52 →
          ∃ t', exec (.teaselCommandComplete id) s = .next t' ∧ t'.op id = none ∧
            (∀ i < 4, t'.byteAt (e.phys (D + 60) + i) = BitVec.ofNat 8 (stat / 256 ^ i)) ∧
            (4 ≤ d.fld 0 4 → ∀ i < 8, t'.byteAt (e.phys (D + 48) + i) = BitVec.ofNat 8 ((first + 2 ^ 32 * count) / 256 ^ i)) ∧
            ∀ y < 2 ^ 52, y < e.phys (D + 60) ∨ e.phys (D + 60) + 4 ≤ y →
              (4 ≤ d.fld 0 4 → y < e.phys (D + 48) ∨ e.phys (D + 48) + 8 ≤ y) → t'.byteAt y = s.byteAt y)

/-! ## Records -/

/-- Acceptance of one submitted record (11 R274 to R276): the first check that fails posts its record fault, a state that is
not IDLE leaving the record as it is and a later check making it FAULTED; a record that passes has the next KEY and state
QUEUED, or WAITING where JOINC is not 0, in memory and in the sequencer's tables, and enters its graph, phase and job. A
record that is misaligned or whose translation is malformed fails check 1; that acceptance needs the page's read and its
write permission is the model's log entry 50. -/
def Obligations.RecordsAccepted : Prop :=
  ∀ (s : State) (c a : Nat) (x : Context) (b : Batch) (rest : List Batch), s.ctx c = some x → x.subs = b :: rest →
    b.addrs = [a] → b.parked = none → b.denied = [] → b.cancel = none → s.block b.block = none →
    let s1 := s.onCtx c fun x => { x with subs := rest }
    (a % 64 ≠ 0 ∨ walk s x a true true = .malformed →
      exec (.recordAcceptance c) s = .next { s1.recordFault c 1 a with blocked := [] }) ∧
    ∀ e : TlbEntry, a % 64 = 0 → walk s x a true true = .ok e → e.phys a + 64 ≤ 2 ^ 52 →
      let pa := e.phys a
      let d : Desc := BitVec.ofNat 512 (s.readNat pa 64)
      let reason : Nat := if d.rState ≠ 0 then 2 else if d.recordOk = false then 3 else if d.rCmp ≠ x.compulsory then 4
        else if x.treeOk d = false then 5 else 0
      (reason ≠ 0 → exec (.recordAcceptance c) s = .next
        { (if reason = 2 then s1 else s1.writeState pa 6).recordFault c reason a with blocked := [] }) ∧
      (reason = 0 → ((x.enter d).entered d).1 = 0 →
        let ready : Bool := s.readNat (pa + 16) 4 = 0
        ∃ t, exec (.recordAcceptance c) s = .next t ∧
          t.ctx c = some { ({ x with subs := rest } : Context).enter d with
            keys := x.keys + 1
            recs := x.recs ++ [newRec (x.keys + 1) a pa d (if ready then .queued else .waiting) s.pt] } ∧
          t.byteAt (pa + 37) = (if ready then 2 else 1) ∧
          (∀ i < 8, t.byteAt (pa + 52 + i) = BitVec.ofNat 8 ((x.keys + 1) / 256 ^ i)) ∧
          ∀ y < 2 ^ 52, y ≠ pa + 37 → y < pa + 52 ∨ pa + 60 ≤ y → t.byteAt y = s.byteAt y)

/-- A dispatch step that starts a block, or a group of up to four, of the only record (11 R279 to R282; 10 R253, R254; 02 R63;
03 R101; 17 R380). It goes to the first place with room from the context's pointer on; in compulsory mode where its index
says; a lost one to its logical core. A core has room where it is set and runs, has fewer than 8 blocks, and its free
scratch, slots and lane-registers hold the block, each span in one slice; a group needs room on consecutive cores of one
cluster, and a free cluster barrier. The block is numbered on and has its coordinates, its resources as the record gives
them and empty scratch; wave k has lanes k × W to k × W + W − 1, all live, starts behind the header with the frame pointer
in s4 and s5 and the other registers 0; a forerunner context starts at the header's offset, in the unit of the block's
slot; the record is RUNNING. A record whose scratch no core has is FAULTED with reason 6. Blocks keep their scratch until
their last waves have ended (log entry 29). -/
def Obligations.BlocksPlaced : Prop :=
  (∀ (s : State) (core : Nat) (d : Desc) (slots : List Nat), fitsOn s core d = some slots →
    s.boot.lct.has core = true ∧ s.runs core = true ∧ (coreBlocks s core).length < 8 ∧
      (((s.blocks.filter fun kb => kb.2.core = core && holdsScratch s kb.2).map fun kb => kb.2.scratch).foldl (· + ·) 0) +
        d.scratch ≤ 2 ^ 20 ∧
      slots.length = d.waves ∧ slots.Nodup ∧ (∀ n ∈ slots, n < 32 ∧ n ∉ usedSlots s core) ∧
      (0 < d.width * d.vregs → ∀ k < 8, (slots.filter fun n => n / 4 = k) = [] ∨
        (slots.filter fun n => n / 4 = k).length * (d.width * d.vregs) +
          ((coreBlocks s core).map fun b => b.laneRegs.getD k 0).foldl (· + ·) 0 ≤ 32768) ∧
      let per := if d.width ≤ 16 then 4 else if d.width = 32 then 2 else 1
      ∀ i j (hi : i < slots.length) (hj : j < slots.length), i / per = j / per → slots[i] / 4 = slots[j] / 4) ∧
  (∀ (s : State) (c l first ptr : Nat) (x : Context) (r : Rec) (h : Header), s.ctxs = [(c, x)] →
    x.residency = .resident → (∃ d ∈ x.table, d < 4) → x.recs = [r] → r.state = .queued ∨ r.placing = true → r.parked = none →
    r.header = some h → (∀ kb ∈ s.blocks, kb.1 < s.fresh) →
    let g := r.img.cluster
    let room (l : Nat) : Prop := (g = 1 ∨ (s.groups.filter fun q => q.2.base = physCore x (l / 4 * 4)).length < 4) ∧
      ∀ k < g, ∃ slots, fitsOn s (physCore x (l + k)) r.img = some slots
    r.goesTo x room first l ptr → l % 4 + g ≤ 4 →
    0 < r.img.width → r.pa + 64 ≤ 2 ^ 52 →
    let again : Bool := r.replays ≠ []
    ∃ t y, exec .dispatchStep s = .next t ∧ t.ctx c = some y ∧ y.ptr = ptr ∧
      y.recs = [{ r with
        state := .running, live := r.live + g, next := if again then r.next else r.next + g, replays := r.replays.drop 1 }] ∧
      (t.byteAt (r.pa + 37) = if r.state = .queued then 3 else s.byteAt (r.pa + 37)) ∧
      (∀ a < 2 ^ 52, a ≠ r.pa + 37 → t.byteAt a = s.byteAt a) ∧
      (1 < g → ∃ n < 4, t.groups.find s.fresh = some ⟨physCore x l / 4 * 4, n, Barrier.launch⟩) ∧
      ∀ k < g, ∀ slots, fitsOn s (physCore x (l + k)) r.img = some slots →
        let core := physCore x (l + k)
        let uid := s.fresh + k * (2 + r.img.waves)
        ∃ b, t.block uid = some b ∧
          b.core = core ∧ b.ctx = c ∧ b.record = r.key ∧ b.index = first + k ∧ b.coord = r.img.coords (first + k) ∧
          b.group = s.fresh ∧ b.rank = k ∧ b.groupSize = g ∧ b.replay = again ∧
          b.vregs = r.img.vregs ∧ b.sregs = r.img.sregs ∧ b.scratch = r.img.scratch ∧ b.data = [] ∧
          b.slot < 8 ∧ (∀ q ∈ coreBlocks s core, q.slot ≠ b.slot) ∧
          (∀ i (hi : i < slots.length), ∃ w, t.wave (64 * core + slots[i]) = some w ∧ w.block = uid ∧ w.fore = false ∧
            w.pc = BitVec.ofNat 64 r.img.code + 16 ∧ w.width = r.img.width ∧
            w.lanes = (List.range r.img.width).map (r.img.width * i + ·) ∧ w.getM 0 = BitVec.ofNat 64 (2 ^ r.img.width - 1) ∧
            w.rdS64 4 = r.img.frame ∧ (∀ n, n ≠ 4 → n ≠ 5 → w.getS n = 0) ∧ (∀ n q, w.getV n q = 0 ∧ w.getE n q = 0) ∧
            w.csr.comm = decide (Header.commWave h = some i)) ∧
          (h.toNat / 2 ^ 64 % 2 ^ 32 ≠ 0 → ∃ w, t.wave (64 * core + 32 + b.slot) = some w ∧ w.block = uid ∧ w.fore = true ∧
            w.pc = BitVec.ofNat 64 (r.img.code + h.toNat / 2 ^ 64 % 2 ^ 32) ∧ w.rdS64 4 = r.img.frame)) ∧
  ∀ (s : State) (c : Nat) (x : Context) (r : Rec), s.ctxs = [(c, x)] → x.residency = .resident → x.recs = [r] → r.state = .queued →
    r.parked = none → r.header = none → 2 ^ 20 < r.img.scratch → r.pa + 64 ≤ 2 ^ 52 →
    ∃ t y, exec .dispatchStep s = .next t ∧ t.ctx c = some y ∧ t.byteAt (r.pa + 37) = 6 ∧
      (∀ a < 2 ^ 52, a ≠ r.pa + 37 → t.byteAt a = s.byteAt a) ∧
      y.recs = [{ r with state := .completing, faulted := true }] ∧ t.blocks = s.blocks ∧ t.waves = s.waves ∧
      (s.dieEv.find (seqDie x) = none → s.eventQ.length < 4096 → s.poison = [] →
        t.eventQ = s.eventQ ++ [mkEvent s 3 6 c 0 0 0 6 false (BitVec.ofNat 64 r.addr) 0])

/-- Completion of a record whose blocks have retired (11 R283, R285, R286; 12 R303). In compulsory mode its held SPAWNs are
submitted first, by block index, first lane and the count of retired instructions (11 R276). While one of its operations
is outstanding, a submission of its own waits, package time has not reached its horizon or, in compulsory mode, the
conflict interval cannot end, it only stays COMPLETING (log entry 52). Then its queued contributions are added, each
location's in key order; its state in memory is DONE, CANCELLED or FAULTED, or stays as it is where the record faulted
before its header was accepted; each successor in turn loses 1 of JOINC, is cancelled softly where the record was
cancelled or faulted, or has its fault reported; and it leaves the tables, RACT is taken and its graph counts it out. Said
of a graph that does not complete with it where it says what RACT leaves. What a completion waits for is the model's
reading (log entry 52). -/
def Obligations.RecordsComplete : Prop :=
  ∀ (s : State) (c : Nat) (x : Context) (r : Rec), s.ctx c = some x → x.rec? r.key = some r → r.spent = true →
    r.parked = none → x.live = true → r.pa + 64 ≤ 2 ^ 52 →
    let run : Result := exec (.recordCompletion c r.key) s
    let size (k : Contribution) : Nat := if k.wide then 8 else 4
    let waits : Prop := (∃ b ∈ x.subs, b.key = r.key) ∨ (∃ o ∈ s.ops, o.ctx = c ∧ o.key = r.key ∧ o.kind.completes = true) ∨
      s.pt < r.rhz ∨ s.quiet c = false
    (∀ l : List HeldSpawn, l.Perm r.held → r.held ≠ [] →
      l.Pairwise (fun a b => a.index < b.index ∨ a.index = b.index ∧ (a.first < b.first ∨ a.first = b.first ∧ a.retired < b.retired)) →
      run = .next { (s.onCtx c fun x => { x.onRec r.key (fun r => { r with state := .completing, held := [] }) with
        subs := x.subs ++ [⟨l.map HeldSpawn.addr, none, [], r.key, 0, none⟩] }) with blocked := [] }) ∧
    (r.held = [] → waits → run = .next { (s.onCtx c fun x => x.onRec r.key fun r =>
      { r with state := .completing, held := [] }) with blocked := [] }) ∧
    (r.held = [] → ¬waits → r.contribs ≠ [] → (∀ k ∈ r.contribs, k.pa + size k ≤ 2 ^ 52) →
      (∀ k ∈ r.contribs, ∀ q ∈ r.contribs, (k.pa = q.pa ∧ k.wide = q.wide) ∨ k.pa + size k ≤ q.pa ∨ q.pa + size q ≤ k.pa) →
      ∃ t y q, run = .next t ∧ t.ctx c = some y ∧ y.rec? r.key = some q ∧ q.contribs = [] ∧ r.rhz ≤ q.rhz ∧ s.pt ≤ q.rhz ∧
        SameOutside s t (r.contribs.map fun k => (k.pa, size k)) ∧
        ∀ k ∈ r.contribs, ∀ l : List Contribution, l.Perm (r.contribs.filter fun q => q.pa = k.pa && q.wide = k.wide) →
          l.Pairwise (fun a b => a.index < b.index ∨ a.index = b.index ∧ (a.lane < b.lane ∨ a.lane = b.lane ∧ a.n < b.n)) →
          t.readNat k.pa (size k) = l.foldl (fun m q => (fpAdd (if k.wide then f64 else f32) .rne m q.value 0).code)
            (s.readNat k.pa (size k))) ∧
    (r.held = [] → ¬waits → r.contribs = [] → r.state = .completing → r.succ = 0 →
      let s1 := if r.faulted = true ∧ r.header = none then s
        else s.writeState r.pa (if r.faulted then 6 else if r.cancel ≠ 0 then 5 else 4)
      run = exec (.recordCompletion c r.key) (s1.onCtx c fun x => x.onRec r.key fun r => { r with succ := 1 })) ∧
    (∀ va a pv pa, r.held = [] → ¬waits → r.contribs = [] → r.state = .completing → 1 ≤ r.succ → r.succ ≤ r.img.nsucc → r.denied = [] →
      va = r.img.succ + 8 * (r.succ - 1) → Mapped s x va 8 pv true false → a = s.readNat pv 8 →
      let goesOn (s1 : State) : Prop := run = exec (.recordCompletion c r.key)
        (s1.onCtx c fun x => x.onRec r.key fun r => { r with succ := r.succ + 1, denied := [] })
      (a % 64 ≠ 0 → goesOn (s.recordFault c 1 a)) ∧
      (a % 64 = 0 → Mapped s x a 64 pa true true →
        (r.faulted = true ∨ r.cancel ≠ 0 → ∀ q, (x.recs.filter fun q => q.pa = pa) = [q] → q.state = .waiting ∨ q.state = .queued →
          goesOn (s.onCtx c fun x => x.onRec q.key fun q =>
            { q with state := .completing, cancel := max q.cancel 1, word := if q.cancel = 0 then 0 else q.word })) ∧
        (r.faulted = false → r.cancel = 0 → s.joinc pa = 0 → goesOn (s.recordFault c 7 a)) ∧
        (r.faulted = false → r.cancel = 0 → ∀ n s1, s.joinc pa = n + 1 → s.joinAt pa 1 = .ok s1 → goesOn s1))) ∧
    (r.held = [] → ¬waits → r.contribs = [] → (r.succ = 0 ∧ r.img.nsucc = 0) ∨ (r.succ = r.img.nsucc + 1) →
      let can : Bool := r.cancel ≠ 0 && !r.faulted
      let n := (x.graph r.img.graph).leave can r.faulted
      ∃ t y, run = .next t ∧ t.ctx c = some y ∧
        y.recs = x.recs.filter (fun q => q.key ≠ r.key) ∧
        y.graph r.img.graph = (if n.out = 0 ∧ n.sealed = true then Node.idle else n) ∧
        t.byteAt (r.pa + 37) = (if r.succ ≠ 0 ∨ (r.faulted = true ∧ r.header = none) then s.byteAt (r.pa + 37)
          else if r.faulted then 6 else if r.cancel ≠ 0 then 5 else 4) ∧
        (∀ a < 2 ^ 52, a ≠ r.pa + 37 → t.byteAt a = s.byteAt a) ∧
        (¬(n.out = 0 ∧ n.sealed = true) → s.dieEv.find (seqDie x) = none → s.eventQ.length + 1 < 4096 → s.poison = [] →
          t.irqs = s.irqs ++ (if r.img.ract.getLsbD 1 then [.completion c 0 r.addr can r.faulted] else []) ∧
          t.eventQ = s.eventQ ++ if r.img.ract.getLsbD 0 then [mkEvent s 4 0 c 0 0 0 6 false (BitVec.ofNat 64 r.addr)
            (BitVec.ofNat 64 (2 * r.faulted.toNat + can.toNat))] else []))

/-! ## Errors, retirement, pre-emption, events -/

/-- Stored errors and a row repair (17 R373 to R377; 08 R250): a correctable error of a compute die or, as die 4, the I/O die
is counted and, at its threshold, reported (log entry 57); an uncorrectable one marks the granule of memory or scratch,
the register element or the tile word it strikes and changes nothing else (log entry 77); a row repair changes nothing. A
residue check that fails (17 R378, R379; 14 R323): the first two times the work is done again (log entry 78); the third
time, and on an uncorrectable error in its control state, the core is retired, its logical core takes the lowest spare of
the die, or is unset where none is left. Said of a core with no block, of one with a block of a replay-safe record, and of
one with a block of another record, each without partners: a replay-safe block is gone, what it held and contributed with
it, and is to be launched again on its logical core (17 R380); another counts as retired, and its record is faulted and,
where it runs, hard-cancelled (17 R381). Core events report each (17 R382; log entries 55 and 56). An error event's
structure code is a free value (log entry 4). -/
def Obligations.ErrorsAndRetirement : Prop :=
  ((∀ (s : State) (die struc addr : Nat), die < 5 → struc < 256 →
     let n := (s.boot.errors.get 0 (256 * die + struc)).toNat
     let m := min (n + 1) (2 ^ 32 - 1)
     let s1 : State := { s with boot := { s.boot with errors := s.boot.errors.put 0 (256 * die + struc) (BitVec.ofNat 32 m) } }
     exec (.correctableError die ⟨struc, addr⟩) s = .next { (match s.boot.thresholds.find (256 * die + struc) with
       | some t => if n < t.toNat ∧ t.toNat ≤ m then
           s1.post die false none [mkEvent s1 7 0 0 0 0 0 7 false (BitVec.ofNat 64 addr) (Config.structureCode struc)] else s1
       | none => s1) with blocked := [] }) ∧
   (∀ (s : State) (die row : Nat), exec (.hbmRowRepair die row) s = .next { s with blocked := [] }) ∧
   (∀ (s : State) (a : Nat), s.isMemory a = true → ∃ m, exec (.uncorrectableError (.memory a)) s =
     .next { s with poison := m, blocked := [] } ∧ ∀ g, m.get false g = (decide (g = a / 32) || s.poison.get false g)) ∧
   (∀ (s : State) (uid off : Nat) (b : Block), s.block uid = some b → off < b.scratch → ∃ l,
     exec (.uncorrectableError (.scratch uid off)) s = .next { s.setBlock { b with scrPoison := l } with blocked := [] } ∧
       ∀ g, g ∈ l ↔ g = off / 16 ∨ g ∈ b.scrPoison) ∧
   (∀ (s : State) (u r q : Nat) (w : Wave), s.wave u = some w →
     (∃ l, exec (.uncorrectableError (.vreg u r q)) s =
       .next { s.setWave u { w with regs := { w.regs with vPoison := l } } with blocked := [] } ∧
         ∀ k, k ∈ l ↔ k = 64 * r + q ∨ k ∈ w.regs.vPoison) ∧
     (∃ l, exec (.uncorrectableError (.ereg u r q)) s =
       .next { s.setWave u { w with regs := { w.regs with ePoison := l } } with blocked := [] } ∧
         ∀ k, k ∈ l ↔ k = 64 * r + q ∨ k ∈ w.regs.ePoison) ∧
     (r ≠ 0 → ∃ l, exec (.uncorrectableError (.sreg u r)) s =
       .next { s.setWave u { w with regs := { w.regs with sPoison := l } } with blocked := [] } ∧
         ∀ k, k ∈ l ↔ k = r ∨ k ∈ w.regs.sPoison)) ∧
   ∀ (s : State) (core t row word : Nat), ∃ l, exec (.uncorrectableError (.tile core t row word)) s =
     .next { s.onMat core (fun m => { m with poison := l }) with blocked := [] } ∧
       ∀ k, k ∈ l ↔ k = 4096 * t + 64 * row + word ∨ k ∈ (s.mat core).poison) ∧
  ((∀ (s : State) (core attempts p : Nat), s.boot.lct.find core = some p →
     exec (.uncorrectableError (.control core)) s = exec (.residueCheckFailure core 3) s ∧
     (attempts < 3 → exec (.residueCheckFailure core attempts) s = .next s)) ∧
   (∀ (s : State) (core attempts p : Nat), s.boot.lct.find core = some p → (∀ kb ∈ s.blocks, kb.2.core ≠ core) →
     3 ≤ attempts → ∃ t, exec (.residueCheckFailure core attempts) s = .next t ∧ t.mem = s.mem ∧
       t.core core = CoreSt.empty ∧ t.blocks = s.blocks ∧ t.waves = s.waves ∧
       t.boot.harvest.get 0 (core / 32) = s.boot.harvest.get 0 (core / 32) &&& ~~~(1#36 <<< p) ∧
       (∀ k < 36, (s.boot.spare.get 0 (core / 32)).getLsbD k = true →
         (∀ j < k, (s.boot.spare.get 0 (core / 32)).getLsbD j = false) →
         t.boot.lct.find core = some k ∧
         t.boot.spare.get 0 (core / 32) = s.boot.spare.get 0 (core / 32) &&& ~~~(1#36 <<< k)) ∧
       (s.boot.spare.get 0 (core / 32) = 0 → t.boot.lct.find core = none) ∧
       (s.boot.spare.get 0 (core / 32) ≠ 0 → s.dieEv.find (core / 32) = none → s.eventQ.length < 4096 →
         t.eventQ = s.eventQ ++ [mkEvent s 8 0 0 0 core 0 7 false (BitVec.ofNat 64 (p + 64 * (core / 32))) 0])) ∧
   ∀ (s : State) (core p : Nat) (b : Block) (x : Context) (r : Rec), s.boot.lct.find core = some p →
     (s.blocks.filter fun kb => kb.2.core = core) = [(b.uid, b)] → (s.blocks.filter fun kb => kb.1 = b.uid) = [(b.uid, b)] →
     (s.blocks.filter fun kb => kb.2.group = b.group) = [(b.uid, b)] → b.rank = 0 → b.ended = false →
     s.groups.find b.group = none → s.ctx b.ctx = some x → (x.recs.map (·.key)).Nodup → x.rec? b.record = some r →
     r.state = .running → (∀ kw ∈ s.waves, kw.2.run ≠ .stopped) →
     ∃ t y q, exec (.residueCheckFailure core 3) s = .next t ∧ t.mem = s.mem ∧ t.core core = CoreSt.empty ∧
       (∀ kw ∈ t.waves, kw.2.block ≠ b.uid) ∧ (∀ o ∈ t.ops, o.block = b.uid → o ∈ s.ops ∧ o.kind.survives = true) ∧
       t.ctx b.ctx = some y ∧ y.rec? b.record = some q ∧ q.live = r.live - 1 ∧ q.next = r.next ∧
       (b.rsafe = true → t.block b.uid = none ∧ q.faulted = r.faulted ∧ q.cancel = r.cancel ∧ q.state = .running ∧
         q.replays = r.replays ++ [(b.index, 32 * x.vdOf (core / 32) + core % 32)] ∧
         q.held = r.held.filter (fun h => h.block ≠ b.uid) ∧ q.contribs = r.contribs.filter (fun k => k.block ≠ b.uid) ∧
         y.subs = x.subs.filter fun n => n.block ≠ b.uid) ∧
       (b.rsafe = false → q.faulted = true ∧ q.cancel = 2 ∧ q.replays = r.replays ∧
         ∃ k, t.block b.uid = some k ∧ k.ended = true) ∧
       (s.boot.spare.get 0 (core / 32) ≠ 0 → s.dieEv.find (core / 32) = none → s.eventQ.length + 2 < 4096 →
         t.eventQ = s.eventQ ++ [coreEvent s b.ctx core 7 8 0 (BitVec.ofNat 64 (p + 64 * (core / 32))) (BitVec.ofNat 64 r.addr)] ++
           if b.rsafe then [] else [coreEvent s b.ctx core 7 8 2
             (BitVec.ofNat 64 (p + 64 * (core / 32) + 2 ^ 32 * r.img.job)) (BitVec.ofNat 64 r.addr)]))

/-- The save of a context under pre-emption (17 R367 to R370): once nothing of it can still go, its image stands in the save
area, no wave of it is left on a core of a die, and it is descheduled; no other byte of memory changes. The drain of a
die's event buffer (17 R385, R387): records move to the I/O die's queue in their order while it has room, and what the die
kept back for want of room enters the buffer after them. Said of records that are no pair. What a save waits for is the
model's log entry 58, what the image holds its log entry 59; the image's size and bytes are free values (log entry 4). -/
def Obligations.SaveAndDrain : Prop :=
  (∀ (s : State) (c : Nat) (x : Context), s.ctx c = some x → x.residency = .preempting → s.drained c = true →
     let n := min Config.saveBytes 3670016 * 32 * x.nv
     let a := x.save.toNat * 4096
     a + n ≤ 2 ^ 52 →
     ∃ t y, exec (.contextSave c) s = .next t ∧ t.ctx c = some y ∧ y.residency = .saved ∧ y.image = some s.fresh ∧
       (∀ i < n, t.byteAt (a + i) = Config.saveImage s.fresh i) ∧
       (∀ z < 2 ^ 52, z < a ∨ a + n ≤ z → t.byteAt z = s.byteAt z) ∧
       ∀ u w b, t.wave u = some w → t.block w.block = some b → b.ctx = c → 128 ≤ u / 64) ∧
  (∀ (s : State) (die : Nat) (d : DieEvents), s.dieEv.find die = some d → (∀ e ∈ d.buffer, ¬(e.cls = 5 ∧ e.sub = 0)) →
     d.sums = [] → d.held = [] → s.eventQ.length + d.buffer.length < 4096 →
     ∃ m, exec (.eventBufferDrain die) s = .next { s with eventQ := s.eventQ ++ d.buffer, dieEv := m, blocked := [] } ∧
       ∀ k, m.get DieEvents.empty k = if k = die then DieEvents.empty else s.dieEv.get DieEvents.empty k)

/-! ## The host -/

/-- Commands that report (19 R391 to R402; 14 R321; 17 R369, R370; 20 of 19's table): each, when its turn has come, answers OK
with the values named and changes nothing else: STATUS, TELEM, SAVESIZE, REGREAD, whose error counters the I/O die has
too, EVTREAD, which takes at most 255 records and ends between no pair (the model's log entry 70), SPDM, whose digests and
certificates are those of the one chain and whose other bodies are free values (log entries 4, 72 and 82), and a frame of
an unknown opcode, answered with status 1; a payload of the wrong length has status 2. A frame with a bad header is
discarded. Commands that change the device (19 R393, R402; 17 R364, R366; 04 R124): PLIMIT from 1,200 to 2,600 W, else
status 3; INVAL drops from every core the translations it names; FIXANS frees what waits on a token, and an unknown one
has status 7; MEMREG of a range answers its number; DBGCTL's claim. The response codes of SPDM messages and the statuses
of bad fields are the model's (log entries 70 and 72), and so are MEMREG's word and number (log entry 64), what is
discarded and what a wrong length answers (log entry 61), and what INVAL drops and FIXANS frees (log entry 69). -/
def Obligations.HostReportsAndSettings : Prop :=
  (∀ (h : AqpenHeader),
     Replies (.statusQuery h) h 0x03 (fun _ => True) 0
       (fun s => .status 8 s.boot.kind s.tier2 s.boot.fenced s.boot.accel s.boot.svn Config.partNumber Config.serial) id ∧
     Replies (.telem h) h 0x60 (fun _ => True) 0 (fun s => .telem (BitVec.ofNat 16 s.boot.plimit ++ s.boot.telem)) id ∧
     Replies (.savesize h) h 0x15 (fun _ => True) 0 (fun _ => .number (min Config.saveBytes 3670016)) id ∧
     (∀ die < 4,
       Replies (.regread h die .harvest) h 0x40 (fun _ => True) 0
         (fun s => .word ((s.boot.harvest.get 0 die).setWidth 64)) id ∧
       Replies (.regread h die .spare) h 0x40 (fun _ => True) 0 (fun s => .word ((s.boot.spare.get 0 die).setWidth 64)) id ∧
       (∀ l : List Byte, Replies (.regread h die .lct) h 0x40
         (fun s => l.length = 32 ∧ ∀ i (hi : i < l.length), ∃ p, s.boot.lct.find (32 * die + i) = some p ∧ l[i] = BitVec.ofNat 8 p)
         0 (fun _ => .bytes l) id) ∧
       ∀ struc < 256, Replies (.regread h die (.errors struc)) h 0x40 (fun _ => True) 0
         (fun s => .word ((s.boot.errors.get 0 (256 * die + struc)).setWidth 64)) id) ∧
     Replies (.regread h 4 .harvest) h 0x40 (fun _ => True) 3 (fun _ => .none) id ∧
     (∀ struc < 256, Replies (.regread h 4 (.errors struc)) h 0x40 (fun _ => True) 0
       (fun s => .word ((s.boot.errors.get 0 (1024 + struc)).setWidth 64)) id) ∧
     (∀ n, 1 ≤ n → n ≤ 256 → Replies (.evtread h n) h 0x30
       (fun s => ∀ e, s.eventQ[min n 255 - 1]? = some e → ¬(e.cls = 5 ∧ e.sub = 0)) 0
       (fun s => .events (s.eventQ.take (min n 255))) fun s => { s with eventQ := s.eventQ.drop (min n 255) }) ∧
     (∀ n e, 1 ≤ n → n ≤ 256 → Replies (.evtread h n) h 0x30
       (fun s => s.eventQ[min n 255 - 1]? = some e ∧ e.cls = 5 ∧ e.sub = 0) 0
       (fun s => .events (s.eventQ.take (min n 255 - 1))) fun s => { s with eventQ := s.eventQ.drop (min n 255 - 1) }) ∧
     (let body (s : State) (code : Byte) (args : List Nat) : List Byte := (Config.spdmBody code args s.boot.identity [] 0).take 8186
     Replies (.spdm h .getVersion) h 0x50 (fun _ => True) 0 (fun _ => .spdm 0x04 [0, 0, 0, 1, 0, 0x13]) id ∧
     Replies (.spdm h .getCapabilities) h 0x50 (fun _ => True) 0 (fun s => .spdm 0x61 (body s 0x61 [])) id ∧
     (∀ asym hash : Nat, Replies (.spdm h (.negotiateAlgorithms asym hash)) h 0x50 (fun _ => True) 0
       (fun s => if asym.testBit 5 = true ∧ hash.testBit 2 = true then .spdm 0x63 (body s 0x63 [asym, hash])
         else .spdm 0x7F [0x01, 0x00]) id) ∧
     Replies (.spdm h .getDigests) h 0x50 (fun _ => True) 0 (fun s => .spdm 0x01 ([1, 1] ++ sha512 s.boot.chain)) id ∧
     (∀ slot offset length : Nat, Replies (.spdm h (.getCertificate slot offset length)) h 0x50 (fun _ => True) 0
       (fun s => if slot = 0 ∧ offset < s.boot.chain.length then
           let n := min (min length (s.boot.chain.length - offset)) 8180
           .spdm 0x02 ([0, 0] ++ leBytes 2 n ++ leBytes 2 (s.boot.chain.length - offset - n) ++ (s.boot.chain.drop offset).take n)
         else .spdm 0x7F [0x01, 0x00]) id) ∧
     (∀ (index slot : Nat) (nonce : BitVec 256), ∀ r ∈ ([(.challenge slot nonce, 0x03, [nonce.toNat]),
         (.getMeasurements index slot nonce, 0x60, [index, nonce.toNat])] : List (SpdmRequest × Byte × List Nat)),
       Replies (.spdm h r.1) h 0x50 (fun _ => slot = 0) 0
         (fun s => .spdm r.2.1 ((Config.spdmBody r.2.1 r.2.2 s.boot.identity (measured s.boot) s.draw).take 8186))
         (fun s => { s with draw := s.draw + 1 }) ∧
       Replies (.spdm h r.1) h 0x50 (fun _ => slot ≠ 0) 0 (fun _ => .spdm 0x7F [0x01, 0x00]) id)) ∧
     Replies (.spdm h .keyExchange) h 0x50 (fun _ => True) 0 (fun _ => .spdm 0x7F [0x07, 0xE4]) id ∧
     (∀ code, Replies (.spdm h (.other code)) h 0x50 (fun _ => True) 0 (fun _ => .spdm 0x7F [0x07, code]) id) ∧
     (∀ op, Replies (.unknownOpcodeFrame (.unknownOp h op)) h op (fun _ => True) 1 (fun _ => .none) id) ∧
     ∀ e ∈ ([(.statusQuery h, 0x03), (.telem h, 0x60), (.savesize h, 0x15)] : List (Instr × Byte)),
       (∀ (s : State) (ss : Session), Commands s { h with fits := true } ss → h.fits = false →
         exec e.1 s = .next (s.replies h ss e.2 2 .none s)) ∧
       ∀ s, exec (.unknownOpcodeFrame .badHeader) s = .next s ∧
         (¬(h.ver = 1 ∧ h.rsv = 0 ∧ h.len.toNat ≤ 8192) → exec e.1 s = .next s)) ∧
  (∀ (h : AqpenHeader),
     (∀ watts, 1200 ≤ watts → watts ≤ 2600 → Replies (.plimit h watts) h 0x61 (fun _ => True) 0 (fun _ => .none)
       fun s => { s with boot := { s.boot with plimit := watts } }) ∧
     (∀ watts, watts < 1200 ∨ 2600 < watts → Replies (.plimit h watts) h 0x61 (fun _ => True) 3 (fun _ => .none) id) ∧
     (∀ asid start length, ∀ (s : State) (ss : Session), Commands s h ss → ∃ t,
       exec (.inval h asid start length) s = .next (s.replies h ss 0x22 0 .none t) ∧ t = { s with cores := t.cores, tlb2 := t.tlb2 } ∧
       ∀ k e, e ∈ (t.core k).tlb ↔ e ∈ (s.core k).tlb ∧ ¬(e.asid = asid.toNat ∧ (length.toNat = 0 ∨
         (e.va < start.toNat % 2 ^ 57 + length.toNat ∧ start.toNat % 2 ^ 57 < e.va + e.size)))) ∧
     (∀ token answer, Replies (.fixans h token answer) h 0x23 (fun s => ∀ f ∈ s.faults, f.token ≠ token) 7
       (fun _ => .none) id) ∧
     (∀ (token : Nat) (answer : BitVec 32) (s : State) (ss : Session) (f : FaultRecord), Commands s h ss → s.faults = [f] →
       f.token = token →
       (1 < answer.toNat → exec (.fixans h token answer) s = .next (s.replies h ss 0x23 3 .none s)) ∧
       (answer.toNat ≤ 1 → ∃ t, exec (.fixans h token answer) s = .next (s.replies h ss 0x23 0 .none t) ∧ t.faults = [] ∧
         t.mem = s.mem ∧ t.host = s.host ∧
         (∀ (i : Nat) (o : Op), s.ops[i]? = some o → (o.parked = some token ∨ ∃ k ∈ o.waits, k.2 = token) →
           t.ops[i]? = some { o with
             parked := if o.parked = some token then none else o.parked, waits := o.waits.filter fun k => k.2 ≠ token
             denied := if answer = 1 then f.page :: o.denied else o.denied }) ∧
         (∀ (i : Nat) (o : Op), s.ops[i]? = some o → o.parked ≠ some token → (∀ k ∈ o.waits, k.2 ≠ token) →
           t.ops[i]? = some o) ∧
         ∀ u w, s.wave u = some w →
           (w.wait = .fetch token → t.wave u = some { w with wait := .none, fetchDenied := answer = 1 }) ∧
           (w.wait = .home token → t.wave u = some { w with
             wait := .none, denied := if answer = 1 then f.page :: w.denied else w.denied }) ∧
           (w.wait ≠ .fetch token → w.wait ≠ .home token → t.wave u = some w))) ∧
     (∀ (c : Nat) (va length : BitVec 64) (access : BitVec 32), length ≠ 0 → access.toNat < 4 →
       va.toNat + length.toNat ≤ 2 ^ 56 → Replies (.memreg h c va length access) h 0x24 (fun s => ∃ x, s.owned h c x) 0
         (fun s => .number s.fresh) fun s =>
           { s with regs := s.regs.ins s.fresh ⟨c, va.toNat, length.toNat, access⟩, fresh := s.fresh + 1 }) ∧
     ∀ c x, Replies (.debugClaim h c) h 0x41 (fun s => s.owned h c x) 0 (fun _ => .none)
       fun s => { s with ctxs := s.ctxs.upd c fun x => { x with debugClaim := true } })

/-- Commands about contexts (19 R393, R394; 14 R320; 17 R357, R367 to R372; 11 R276, R287): a context that is not the
session's has status 4; CTXCREATE of an unused number with a sound table; CTXWRITE of the context record's fields; SUBMIT
queues one batch; CANCEL waits for the records submitted before it, and of a descheduled context for its restore; PREEMPT
starts the pre-emption and is answered after the save; CTXDESTROY hard-cancels every job and is answered when nothing is
left; RESTORE brings a context back whose image stands, and answers 6 where it does not, as the context is then broken.
Sessions and frames (19 R392, R394): OPEN takes the lowest free session of 1 to 4, whose first SEQ is the command's, or
answers 5; CLOSE of a session that owns no context answers and frees it; a command that came before is answered again with
the stored response, one of the next 64 that is out of order is kept for its turn; a frame is sent again 100,000 ticks
after it was sent. The statuses of bad fields, what a session's first frame sets, which session OPEN takes, what CLOSE
keeps and what RESTORE of a failed image answers are the model's readings (log entries 61, 62 and 70). -/
def Obligations.HostContexts : Prop :=
  (∀ (h : AqpenHeader) (c : Nat),
     (∀ e ∈ ([(.ctxdestroy h c, 0x12), (.preempt h c, 0x13), (.aqpenRestore h c [], 0x14), (.submit h c [], 0x20),
         (.debugClaim h c, 0x41)] : List (Instr × Byte)),
       Replies e.1 h e.2 (fun s => ∀ x, ¬s.owned h c x) 4 (fun _ => .none) id) ∧
     (∀ (k : CtxCreate) (dies : List Nat), k.number = c → c ≤ 255 → k.mode ≤ 1 → k.nv ∈ [1, 2, 4] → 1 ≤ k.weight →
       k.weight ≤ 255 → dieTable k.nv k.table = some dies →
       Replies (.ctxcreate h k) h 0x10 (fun s => s.ctx c = none ∧ ∀ a ∈ [(k.queueAddr, k.queueSize), (k.faddoAddr, k.faddoSize),
         (k.sigAddr, k.sigSize), (k.unexpAddr, k.unexpSize)], areaOk s a.1 a.2 = true) 0 (fun _ => .none) fun s => s.setCtx c { Context.none with
         compulsory := k.mode = 1, nv := k.nv, table := dies, weight := k.weight
         queueArea := (k.queueAddr, k.queueSize), faddoArea := (k.faddoAddr, k.faddoSize)
         sigArea := (k.sigAddr, k.sigSize), unexpArea := (k.unexpAddr, k.unexpSize), faddoMax := k.faddoSize
         sess := h.sess.toNat }) ∧
     (∀ (bytes : List Byte) (x : Context), bytes.length = 36 →
       let i : BitVec 288 := BitVec.ofNat 288 (leNat bytes)
       let ok : Prop := i.extractLsb' 112 16 = 0#16 ∧ i.extractLsb' 168 88 = 0#88 ∧ i.extractLsb' 272 16 = 0#16 ∧
         (i.extractLsb' 0 64).toNat % 4 = 0 ∧ canonical (i.extractLsb' 0 64).toNat = true
       Replies (.ctxwrite h c 0 bytes) h 0x11 (fun s => s.owned h c x ∧ ok) 0 (fun _ => .none) (fun s => s.setCtx c { x with
         traph := i.extractLsb' 0 64, root := i.extractLsb' 64 40, asid := i.extractLsb' 104 8
         save := i.extractLsb' 128 40, linktag := i.extractLsb' 256 16 }) ∧
       Replies (.ctxwrite h c 0 bytes) h 0x11 (fun s => s.owned h c x ∧ ¬ok) 3 (fun _ => .none) id) ∧
     (∀ (l : List DWord) (x : Context), 1 ≤ l.length → l.length ≤ 512 →
       Replies (.submit h c l) h 0x20 (fun s => s.owned h c x) 0 (fun _ => .none) fun s => { s with ctxs := s.ctxs.upd c fun x =>
         { x with subs := x.subs ++ [⟨l.map BitVec.toNat, none, [], 0, 0, none⟩] } }) ∧
     (∀ (word : Word) (a : DWord) (x : Context), ctlOk word = true → (ctlLevel word = 0 → a.toNat % 64 = 0) →
       (x.subs ≠ [] ∨ x.residency = .saved ∨ x.residency = .broken) →
       Replies (.aqpenCancel h c word a) h 0x21 (fun s => s.owned h c x) 0 (fun _ => .none) fun s =>
         { s with ctxs := s.ctxs.upd c fun y =>
           if x.subs ≠ [] then { y with subs := y.subs ++ [⟨[], none, [], 0, 0, some (word, a.toNat)⟩] }
           else { y with cancels := y.cancels ++ [(word, a.toNat)] } }) ∧
     (∀ (word : Word) (a : DWord) (x : Context), ctlOk word = false →
       Replies (.aqpenCancel h c word a) h 0x21 (fun s => s.owned h c x) 3 (fun _ => .none) id) ∧
     (∀ (x : Context) (s : State) (ss : Session), Commands s h ss → s.owned h c x →
       (x.residency = .saved ∨ x.residency = .broken → exec (.preempt h c) s = .next (s.replies h ss 0x13 0 .none s)) ∧
       (x.residency = .resident → exec (.preempt h c) s = .next (s.takes h ss { s with ctxs := s.ctxs.upd c fun x =>
         { x with residency := .preempting, preemptFor := some (h.sess.toNat, h.seq.toNat) } }))) ∧
     (∀ (x : Context) (s : State) (ss : Session), Commands s h ss → s.owned h c x → x.residency = .resident → x.recs = [] →
       ∃ t y, exec (.ctxdestroy h c) s = .next t ∧ t.mem = s.mem ∧ t.host = s.host ∧ t.ctx c = some y ∧ y.recs = [] ∧ y.subs = [] ∧
         y.destroying = some (h.sess.toNat, h.seq.toNat) ∧ ∀ j < 16, (x.job j).live = true → 2 ≤ (y.job j).cancel) ∧
     ∀ (x : Context) (dies : List Byte) (table : List Nat) (s : State) (ss : Session), Commands s h ss → s.owned h c x →
       (x.residency = .resident ∨ x.residency = .preempting →
         exec (.aqpenRestore h c dies) s = .next (s.replies h ss 0x14 3 .none s)) ∧
       (x.residency = .broken → exec (.aqpenRestore h c dies) s = .next (s.replies h ss 0x14 6 .none s)) ∧
       (x.residency = .saved → dieTable x.nv dies = some table → imageOk s x = false → ∃ t y,
         exec (.aqpenRestore h c dies) s = .next t ∧ t.host = s.host ++ [ss.response h 0x14 6 .none] ∧ t.ctx c = some y ∧
         y.residency = .broken) ∧
       (x.residency = .saved → dieTable x.nv dies = some table → imageOk s x = true → x.cancels = [] → x.marks = [] →
         (rinkCores x).all (fun l => restoreFits s (savedCore c l) (physCore { x with table := table } l)) = true →
         groupsFit s c { x with table := table } = true → ∃ t y,
         exec (.aqpenRestore h c dies) s = .next t ∧ t.mem = s.mem ∧ t.host = s.host ++ [ss.response h 0x14 0 .none] ∧
         t.ctx c = some y ∧ y.residency = .resident ∧ y.table = table ∧ y.image = none)) ∧
  ((∀ (h : AqpenHeader) (advance : Bool) (s : State), h.sess = 0 → headerOk h = true → h.fits = true → s.boot.halted = none →
     6 ≤ s.boot.step →
     (∀ n, [1, 2, 3, 4].find? (fun n => !s.sessions.has n) = some n →
       let f := HostFrame.response n 1 h.seq.toNat 0x81 0 (.session n)
       exec (.openSession h advance) s = .next { s with
         sessions := (s.sessions.del (closedKey n)).ins n ⟨h.seq.toNat, [], [], [(h.seq.toNat, f)], 1, [(1, s.pt, f)]⟩
         host := s.host ++ [f]
         boot := (match s.boot.image with
           | some v => if advance = true ∧ s.boot.svn.toNat < v.1.toNat then { s.boot with svn := v.1 } else s.boot
           | none => s.boot)
         blocked := [] }) ∧
     ((∀ n, 1 ≤ n → n ≤ 4 → s.sessions.has n = true) → exec (.openSession h advance) s = .next { s with
       host := s.host ++ [.response 0 0 0 0x81 5 .none], blocked := [] })) ∧
   (∀ (h : AqpenHeader) (s : State) (ss : Session), Commands s h ss → (∀ kx ∈ s.ctxs, kx.2.sess ≠ h.sess.toNat) →
     let f := ss.response h 0x02 0 .none
     exec (.closeSession h) s = .next { s with
       sessions := (s.sessions.del h.sess.toNat).ins (closedKey h.sess.toNat)
         { done := h.seq.toNat, held := [], early := [], stored := (ss.stored ++ [(h.seq.toNat, f)]).drop (ss.stored.length + 1 - 64)
           seq := ss.seq + 1
           unacked := (ss.unacked.filter fun f => h.ack.toNat < f.1) ++ [(ss.seq + 1, s.pt, f)] }
       host := s.host ++ [f], blocked := [] }) ∧
   (∀ (h : AqpenHeader) (s : State) (ss : Session) (f : HostFrame), s.boot.halted = none → 6 ≤ s.boot.step →
     s.sessions.find h.sess.toNat = some ss → ss.held = [] → ss.early = [] → h.ack = 0 → (∀ e ∈ ss.unacked, 0 < e.1) →
     headerOk h = true → (∀ kx ∈ s.ctxs, kx.2.preemptFor = none ∧ kx.2.destroying = none) →
     (h.seq.toNat ≤ ss.done → ss.stored.find? (fun e => e.1 = h.seq.toNat) = some (h.seq.toNat, f) →
       ∃ m, exec (.statusQuery h) s = .next { s with sessions := m, host := s.host ++ [f], blocked := [] } ∧
         ∀ k, m.find k = s.sessions.find k) ∧
     (ss.done + 1 < h.seq.toNat → ∃ m, exec (.statusQuery h) s = .next { s with sessions := m, blocked := [] } ∧
       ∀ k, m.find k = if k = h.sess.toNat then some { ss with
         early := if ss.done + 64 < h.seq.toNat then [] else [⟨h.seq.toNat, none, none⟩] } else s.sessions.find k)) ∧
   ∀ (s : State) (sess seq t : Nat) (ss : Session) (f : HostFrame), s.sessions.find sess = some ss →
     ss.unacked.find? (fun e => e.1 = seq) = some (seq, t, f) → s.boot.halted = none → 6 ≤ s.boot.step →
     (s.pt < t + 100000 → exec (.aqpenRetransmit sess seq) s = .next s) ∧
     (t + 100000 ≤ s.pt → exec (.aqpenRetransmit sess seq) s = .next { s with
       sessions := s.sessions.ins sess { ss with unacked := ss.unacked.map fun e => if e.1 = seq then (seq, s.pt, f) else e }
       host := s.host ++ [f], blocked := [] }))

/-- DBGCTL on a wave of a resident context in default mode (19 R393; 04 R124; 17 R358): a running wave halts; a halted one
resumes where it is, a stopped one at TRAPPC out of its handler; registers of a wave that does not run are read and
written; a running wave is neither resumed nor read (status 3); END ends the wave. RoCEv2 and Ethernet (19 R390, R391): an
RDMA write or read inside a region that allows it writes or answers the bytes, and is refused elsewhere; a SEND is
acknowledged; a packet with a congestion mark is answered with a notification too; a pause frame pauses its priority,
where the host has enabled that, until one that resumes it. The units that DBGCTL names, debug of stopped waves, the
access bits of a region, the number of queue pairs and what a SEND does are the model's readings (log entries 64, 68, 71
and 73). -/
def Obligations.DebugAndHostMemory : Prop :=
  (∀ (h : AqpenHeader) (c unit : Nat) (s : State) (ss : Session) (x : Context) (w : Wave) (b : Block), Commands s h ss →
     s.owned h c x → x.residency = .resident → x.compulsory = false → unit / 64 < 32 * x.nv →
     let u := 64 * (32 * x.table.getD (unit / 64 / 32) 0 + unit / 64 % 32) + unit % 64
     s.wave u = some w → s.block w.block = some b → b.ctx = c →
     (w.run = .running →
       exec (.debugHalt h c unit) s = .next (s.replies h ss 0x41 0 .none (s.setWave u { w with run := .halted })) ∧
       exec (.debugResume h c unit) s = .next (s.replies h ss 0x41 3 .none s) ∧
       exec (.debugEnd h c unit) s = .next (s.replies h ss 0x41 3 .none s) ∧
       ∀ r v, exec (.debugRegisterAccess h c unit r v) s = .next (s.replies h ss 0x41 3 .none s)) ∧
     (w.run = .halted → exec (.debugResume h c unit) s =
       .next (s.replies h ss 0x41 0 .none (s.setWave u { w with run := .running }))) ∧
     (w.run = .stopped → exec (.debugResume h c unit) s = .next (s.replies h ss 0x41 0 .none
       (s.setWave u { w with run := .running, pc := w.csr.trappc, csr := { w.csr with hnd := false } }))) ∧
     (w.run ≠ .running →
       (∀ (r : DebugReg) (v : DWord), (r = .pc ∧ v = w.pc) ∨ (∃ n < b.sregs, r = .s n ∧ v = (w.getS n).setWidth 64) ∨
           (w.fore = false ∧ ∃ n < 16, r = .m n ∧ v = w.getM n) ∨
           (r = .csr 0x012 ∧ v = (w.csr.retired.extractLsb' 0 32).setWidth 64) ∨
           (r = .csr 0x020 ∧ v = w.csr.fsticky.setWidth 64) ∨ (r = .csr 0x021 ∧ v = w.csr.ftrapen.setWidth 64) →
         exec (.debugRegisterAccess h c unit r none) s = .next (s.replies h ss 0x41 0 (.word v) s)) ∧
       (∀ v : DWord, exec (.debugRegisterAccess h c unit (.csr 0x021) (some v)) s = .next (s.replies h ss 0x41 0 .none
           (s.setWave u { w with csr := { w.csr with ftrapen := v.extractLsb' 0 6 } })) ∧
         exec (.debugRegisterAccess h c unit (.csr 0x012) (some v)) s = .next (s.replies h ss 0x41 3 .none s)) ∧
       (∀ n q, n < b.vregs → q < w.lanes.length →
         exec (.debugRegisterAccess h c unit (.v n q) none) s =
           .next (s.replies h ss 0x41 0 (.word ((w.getV n q).setWidth 64)) s) ∧
         exec (.debugRegisterAccess h c unit (.e n q) none) s =
           .next (s.replies h ss 0x41 0 (.word ((w.getE n q).setWidth 64)) s)) ∧
       (∀ v : DWord, v.toNat % 4 = 0 → exec (.debugRegisterAccess h c unit .pc (some v)) s =
         .next (s.replies h ss 0x41 0 .none (s.setWave u { w with pc := v }))) ∧
       (∀ (n : Nat) (v : DWord), n < b.sregs → ∃ w', exec (.debugRegisterAccess h c unit (.s n) (some v)) s =
         .next (s.replies h ss 0x41 0 .none (s.setWave u w')) ∧
         ∀ k, w'.getS k = if k = n ∧ n ≠ 0 then v.setWidth 32 else w.getS k) ∧
       (w.fore = false → w.cpt = false → (s.mat (u / 64)).queue = [] → b.stack = [] →
         (∀ vw ∈ s.waves, vw.2.block = w.block → vw.1 = u) →
         ∃ t, exec (.debugEnd h c unit) s = .next t ∧ t.wave u = none ∧ t.mem = s.mem ∧
           (∀ v, s.wave v = none → t.wave v = none) ∧ t.host = s.host ++ [ss.response h 0x41 0 .none]))) ∧
  ((∀ (s : State) (region n : Nat) (mark : RoceMark) (va : DWord) (bytes : List Byte) (r : MemReg) (x : Context) (e : TlbEntry),
     s.boot.step = 8 → mark.qp < 1024 →
     s.regs.find region = some r → s.ctx r.ctx = some x → x.compulsory = false → 0 < n → bytes.length = n →
     va.toNat % 4096 + n ≤ 4096 → va.toNat / 4096 ∉ x.arrDenied →
     let told : List HostFrame := s.host ++ if mark.ecn then [.congestion mark.qp] else []
     (r.access.getLsbD 1 = true → r.va ≤ va.toNat → va.toNat + n ≤ r.va + r.len → walk s x va.toNat false true = .ok e →
       e.phys va.toNat + n ≤ 2 ^ 52 → ∃ t, exec (.rdmaWrite ⟨mark, region⟩ va bytes) s = .next t ∧ t.host = told ++ [.rdmaAck true] ∧
         (∀ i (h : i < bytes.length), t.byteAt (e.phys va.toNat + i) = bytes[i]) ∧
         ∀ y < 2 ^ 52, y < e.phys va.toNat ∨ e.phys va.toNat + n ≤ y → t.byteAt y = s.byteAt y) ∧
     (r.access.getLsbD 0 = true → r.va ≤ va.toNat → va.toNat + n ≤ r.va + r.len → walk s x va.toNat true false = .ok e →
       ∃ t, exec (.rdmaRead ⟨mark, region⟩ va n) s = .next t ∧ t.mem = s.mem ∧
         t.host = told ++ [.rdma ((List.range n).map fun i => s.byteAt (e.phys (va.toNat + i)))]) ∧
     ((r.access.getLsbD 1 = false ∨ va.toNat < r.va ∨ r.va + r.len < va.toNat + n) →
       exec (.rdmaWrite ⟨mark, region⟩ va bytes) s = .next { s with host := told ++ [.rdmaAck false], blocked := [] }) ∧
     ((r.access.getLsbD 0 = false ∨ va.toNat < r.va ∨ r.va + r.len < va.toNat + n) →
       exec (.rdmaRead ⟨mark, region⟩ va n) s = .next { s with host := told ++ [.rdmaAck false], blocked := [] })) ∧
   (∀ (s : State) (qp : Nat) (bytes : List Byte), s.boot.step = 8 → qp < 1024 →
     exec (.roceSend ⟨qp, false⟩ bytes) s = .next { s with host := s.host ++ [.rdmaAck true], blocked := [] } ∧
     exec (.roceSend ⟨qp, true⟩ bytes) s = .next { s with host := s.host ++ [.congestion qp, .rdmaAck true], blocked := [] } ∧
     exec (.congestionNotificationPacket qp) s = .next { s with blocked := [] }) ∧
   (∀ (s : State) (k : Nat) (pause : Bool), k < 8 →
     (s.boot.pfc.getLsbD k = true → ∃ l, exec (.priorityFlowControlFrame k pause) s =
       .next { s with boot := { s.boot with paused := l }, blocked := [] } ∧
         ∀ j, j ∈ l ↔ if j = k then pause = true else j ∈ s.boot.paused) ∧
     (s.boot.pfc.getLsbD k = false → exec (.priorityFlowControlFrame k pause) s = .next s)) ∧
   ∀ (s : State) (c n : Nat) (x : Context), s.ctx c = some x →
     (x.faddoMax < n → exec (.faddoListEnlarge c n) s = .next { s.setCtx c { x with faddoMax := n, faddoFull := false } with
       blocked := [] }) ∧
     (n ≤ x.faddoMax → exec (.faddoListEnlarge c n) s = .next s))

/-! ## Bring-up, power and reset -/

/-- Bring-up (19 R395 to R399; 14 R321, R322): each step that succeeds leads to the next with what it found, step 5 only once
the link partner has signalled and offers what the port can link with, and step 6 only with an image of sound header and
length whose signature is good under the fused key (where the key is, and the salt's length, are free: log entry 82); a
step that fails halts, retries once, in step 3 once for each stack (log entry 63), or goes on without what it would have
found; at step 7's end a core that is good stands behind its own logical core. The firmware's frames reach the device's
sessions, the DHCP and image servers alone, under the device's own addresses, and it reads and writes only inside a
context's areas (log entry 85). Power, temperature, port faults and a device reset (19 R393, R395, R401, R402): at 110 °C
every core stops issuing and an interrupt is sent; telemetry is what the firmware last reported; a reset leaves the reset
state but for the fuses and what has left the device. What a timeout of step 7 leaves is a free value (log entry 74). A
stack's retries are the model's log entry 63, the discard of an image its log entry 65, HARVEST and what RESET keeps its
log entry 66, the thermal stop its log entry 67. -/
def Obligations.BringUpAndPower : Prop :=
  ((∀ (s : State), s.boot.halted = none →
     let at_ (t : State) (n : Nat) : State :=
       { t with boot := { t.boot with step := n, retried := [] }, blocked := [] }
     (∀ harvest svn key, s.boot.step = 1 →
       (s.boot.fused = false → harvest.length = 4 → ∃ m,
         exec (.bringupStepComplete (.fuses harvest svn key)) s = .next (at_ { s with boot := { s.boot with
           fused := true, svn := svn, vendorKey := key, identity := Config.identityKey, goodCores := m, harvest := m } } 2) ∧
         ∀ d (hd : d < harvest.length), m.get 0 d = harvest[d]) ∧
       (s.boot.fused = true → exec (.bringupStepComplete (.fuses harvest svn key)) s =
         .next (at_ { s with boot := { s.boot with harvest := s.boot.goodCores } } 2))) ∧
     (∀ n ∈ [2, 3, 4], s.boot.step = n → exec (.bringupStepComplete .plain) s = .next (at_ s (n + 1))) ∧
     (∀ kind bytes, s.boot.step = 4 → exec (.bringupStepComplete (.tier kind bytes)) s =
       .next (at_ { s with tier2 := min bytes 2199023255552, boot := { s.boot with kind := kind } } 5)) ∧
     (∀ o, s.boot.step = 5 → exec (.bringupStepComplete (.link o)) s =
       .next (if s.boot.partner = true ∧ o = ⟨800, 8, true⟩ then at_ s 6 else s)) ∧
     (∀ bytes : List Byte, s.boot.step = 6 →
       let word (i : Nat) : Nat := leNat ((bytes.drop (4 * i)).take 4)
       exec (.bringupStepComplete (.image bytes)) s =
         .next (if word 0 = 0x4E505141 ∧ s.boot.svn.toNat ≤ word 1 ∧ bytes.length = 576 + word 2 ∧ bytes.length ≤ 67108864 ∧
             rsaVerify ⟨(Config.vendorKey s.boot.vendorKey).1, (Config.vendorKey s.boot.vendorKey).2⟩ Config.saltLength
               (bytes.take 64 ++ bytes.drop 576) ((bytes.drop 64).take 512) = true then
           at_ { s with boot := { s.boot with
             image := some (BitVec.ofNat 32 (word 1), BitVec.ofNat 512 (beNat (sha512 bytes)))
             chain := Config.certificateChain bytes } } 7
         else { s with blocked := [] })) ∧
     (∀ failed accel cores, s.boot.step = 7 → ∃ t, exec (.bringupStepComplete (.firmware failed accel cores)) s = .next t ∧
       t = { s with boot := t.boot, blocked := [] } ∧ t.boot.step = 8 ∧ t.boot.accel = accel ∧
       t.boot.fenced = s.boot.fenced ||| failed ∧
       (∀ d < 4, ∀ k < 36, (t.boot.harvest.get 0 d).getLsbD k = ((s.boot.harvest.get 0 d).getLsbD k && !cores.contains (36 * d + k))) ∧
       ∀ d < 4, ∀ l < 32, (t.boot.harvest.get 0 d).getLsbD l = true → t.boot.lct.find (32 * d + l) = some l) ∧
     (s.boot.step = 1 → exec .bringupStepTimeout s =
       .next { s with boot := { s.boot with halted := some 1 }, blocked := [] }) ∧
     (∀ n ∈ [2, 3], s.boot.step = n →
       let part := if n = 2 then 0 else (Config.freeWord s.draw).toNat % 12
       exec .bringupStepTimeout s = .next { s with
         draw := if n = 2 then s.draw else s.draw + 1
         boot := (if part ∈ s.boot.retried then { s.boot with halted := some n }
           else { s.boot with retried := part :: s.boot.retried })
         blocked := [] }) ∧
     (s.boot.step = 4 → exec .bringupStepTimeout s = .next (at_ { s with
       tier2 := 0, irqs := s.irqs ++ [.bringup 4], boot := { s.boot with kind := 0 } } 5)) ∧
     (s.boot.step = 7 → ∃ t, exec .bringupStepTimeout s = .next t ∧ t.boot.step = 8 ∧ t.irqs = s.irqs ++ [.bringup 7] ∧
       t.mem = s.mem)) ∧
   (∀ (s : State) (c : Nat), s.boot.halted = some c →
     exec .bringupStepTimeout s = .next s ∧ ∀ r, exec (.bringupStepComplete r) s = .next s) ∧
   (∀ s : State, exec .ethernetPartnerSignal s = .next { s with boot := { s.boot with partner := true }, blocked := [] }) ∧
   ∀ (s : State) (act : FirmwareAct),
     (s.boot.halted.isSome = true ∨ s.boot.step < 7 → s.firmware act = s) ∧
     (s.boot.halted = none → 7 ≤ s.boot.step →
       (∀ peer bytes, act = .frame true true peer bytes →
         peer = .dhcp ∨ peer = .imageServer ∨ (∃ n ≤ 4, peer = .session n ∧ s.sessions.has n = true) →
         s.firmware act = { s with host := s.host ++ [.firmware peer bytes] }) ∧
       (∀ mac address peer bytes, act = .frame mac address peer bytes →
         mac = false ∨ address = false ∨ peer = .other ∨ (∃ n, peer = .session n ∧ (s.sessions.has n = false ∨ 4 < n)) →
         s.firmware act = s) ∧
       (∀ ports, act = .fence ports → s.firmware act = { s with boot := { s.boot with fenced := s.boot.fenced ||| ports } }) ∧
       ∀ (c addr : Nat) (bytes : List Byte),
         let inside (x : Context) : Prop := ∃ r ∈ [x.queueArea, x.faddoArea, x.sigArea, x.unexpArea],
           r.1.toNat ≤ addr ∧ addr + bytes.length ≤ r.1.toNat + r.2
         ((∀ x, s.ctx c = some x → ¬inside x) → s.firmware (.write c addr bytes) = s ∧
           s.firmware (.read c addr bytes.length) = { s with boot := { s.boot with firmwareRead := none } }) ∧
         ((∃ x, s.ctx c = some x ∧ inside x) → addr + bytes.length ≤ 2 ^ 52 →
           (∀ i (h : i < bytes.length), (s.firmware (.write c addr bytes)).byteAt (addr + i) = bytes[i]) ∧
           (∀ y < 2 ^ 52, y < addr ∨ addr + bytes.length ≤ y → (s.firmware (.write c addr bytes)).byteAt y = s.byteAt y) ∧
           s.firmware (.read c addr bytes.length) = { s with boot := { s.boot with
             firmwareRead := some ((List.range bytes.length).map fun i => s.byteAt (addr + i)) } }))) ∧
  (∀ (s : State),
     exec .powerLimitExceeded s = .next { s with boot := { s.boot with withheld := true }, blocked := [] } ∧
     exec .powerFallsBelowLimit s = .next { s with boot := { s.boot with withheld := false }, blocked := [] } ∧
     (∀ n, s.boot.thermal < 110 → exec (.thermalThreshold n) s =
       if 110 ≤ n then .next { s with boot := { s.boot with thermal := 110 }, irqs := s.irqs ++ [.thermal], blocked := [] }
       else .next { s with boot := { s.boot with thermal := if 105 ≤ n then 105 else if 95 ≤ n then 95 else 0 }, blocked := [] }) ∧
     (∀ core slice, s.boot.thermal = 110 → issueSlot runWord core slice s = .next s ∧ exec (.matrixStep core) s = .next s ∧
       exec (.matrixGrant core) s = .next s) ∧
     (∀ values throttled, exec (.telemetryUpdate values throttled) s =
       .next { s with boot := { s.boot with telem := throttled ++ (0#32 ++ values.extractLsb' 0 224) }, blocked := [] }) ∧
     (∀ port, exec (.portFault port) s = .next { s with irqs := s.irqs ++ [.port port], blocked := [] }) ∧
     ∃ t, exec .resetDevice s = .next t ∧ t.boot = { Boot.reset with
         fused := s.boot.fused, svn := s.boot.svn, vendorKey := s.boot.vendorKey, identity := s.boot.identity
         goodCores := s.boot.goodCores } ∧ t.host = s.host ∧ t.link = s.link ∧
       t = { State.reset with boot := t.boot, host := t.host, link := t.link, agenda := t.agenda, draw := t.draw, fresh := t.fresh })

/-! ## Reset and the memory's form -/

/-- The machine right after reset (19 R395; 14 R321): bring-up is at step 1, nothing is halted, there is no session, context,
record, block or wave, no frame has been sent and package time is 0; memory lists nothing and has its canonical form, as
the tables have theirs. That memory which nothing has written lists nothing is the model's (log entry 2). -/
def Obligations.ResetState : Prop :=
  State.reset.boot.step = 1 ∧ State.reset.boot.halted = none ∧ State.reset.sessions = [] ∧ State.reset.ctxs = [] ∧
    State.reset.blocks = [] ∧ State.reset.waves = [] ∧ State.reset.ops = [] ∧ State.reset.eventQ = [] ∧ State.reset.host = [] ∧
    State.reset.pt = 0 ∧ State.reset.mem = [] ∧ State.reset.Canonical ∧ State.reset.Tables

/-- Every step keeps the memory's canonical form: addresses strictly rising below 2^52, no byte listed that is equal to what
an unlisted address reads as. The form is the model's own (log entry 2). -/
def Obligations.StepKeepsCanonical : Prop :=
  ∀ s t : State, s.Canonical → step s = .next t → t.Canonical

/-- Every step keeps the form of the tables (02 R62, R64; 06 R163, R164; 11 R275): no unit, block, context, cluster group or
core is listed twice, a block stands under its own number, and no two outstanding operations, and no two accepted records
of a context, share theirs. The numbers and the order of the tables are the model's own (log entry 20). -/
def Obligations.StepKeepsTables : Prop :=
  ∀ s t : State, s.Tables → step s = .next t → t.Tables
end

