-- ==== Sys2Proof/Laws/SMap.lean ====
section
/-!
SUPPORT. Laws of sparse maps: reads after writes, the canonical form, and what each operation keeps of it.
-/
namespace Sys2Proof.SMap
variable {α : Type}

theorem get_ins (d : α) (m : SMap α) (k j : Nat) (v : α) : get d (ins m k v) j = if j = k then v else get d m j := by
  induction m with
  | nil => grind [ins, get]
  | cons h t ih => obtain ⟨k', v'⟩ := h; grind [ins, get]

theorem get_del (d : α) (m : SMap α) (k j : Nat) : get d (del m k) j = if j = k then d else get d m j := by
  induction m with
  | nil => grind [del, get]
  | cons h t ih => obtain ⟨k', v'⟩ := h; grind [del, get]

/-- A read after a write gives the value written there and what was there before everywhere else. -/
@[simp] theorem get_put [DecidableEq α] (d : α) (m : SMap α) (k j : Nat) (v : α) :
    get d (put d m k v) j = if j = k then v else get d m j := by
  unfold put; split
  · subst_vars; rw [get_del]
  · rw [get_ins]

@[simp] theorem find_ins (m : SMap α) (k j : Nat) (v : α) : find (ins m k v) j = if j = k then some v else find m j := by
  induction m with
  | nil => grind [ins, find]
  | cons h t ih => obtain ⟨k', v'⟩ := h; grind [ins, find]

@[simp] theorem find_del (m : SMap α) (k j : Nat) : find (del m k) j = if j = k then none else find m j := by
  induction m with
  | nil => grind [del, find]
  | cons h t ih => obtain ⟨k', v'⟩ := h; grind [del, find]

@[simp] theorem find_upd (m : SMap α) (k j : Nat) (f : α → α) :
    find (upd m k f) j = if j = k then (find m j).map f else find m j := by
  induction m with
  | nil => grind [upd, find]
  | cons h t ih => obtain ⟨k', v'⟩ := h; grind [upd, find]

/-! ## The canonical form -/

theorem sorted_mono {lo lo' : Nat} (h : lo' ≤ lo) : ∀ {m : SMap α}, sorted lo m = true → sorted lo' m = true
  | [], _ => rfl
  | (k, _) :: _, hm => by simp only [sorted, Bool.and_eq_true, decide_eq_true_eq] at hm ⊢; exact ⟨Nat.le_trans h hm.1, hm.2⟩

theorem sorted_ins (k : Nat) (v : α) : ∀ {lo : Nat} {m : SMap α}, lo ≤ k → sorted lo m = true → sorted lo (ins m k v) = true
  | lo, [], hk, _ => by simp [ins, sorted, hk]
  | lo, (k', v') :: t, hk, hm => by
    simp only [sorted, Bool.and_eq_true, decide_eq_true_eq] at hm
    simp only [ins]
    split
    · simp only [sorted, Bool.and_eq_true, decide_eq_true_eq]; exact ⟨hk, by omega, hm.2⟩
    · split
      · subst_vars; simp only [sorted, Bool.and_eq_true, decide_eq_true_eq]; exact ⟨hk, hm.2⟩
      · simp only [sorted, Bool.and_eq_true, decide_eq_true_eq]
        exact ⟨hm.1, sorted_ins k v (by omega) hm.2⟩

theorem sorted_del (k : Nat) : ∀ {lo : Nat} {m : SMap α}, sorted lo m = true → sorted lo (del m k) = true
  | _, [], _ => rfl
  | lo, (k', v') :: t, hm => by
    simp only [sorted, Bool.and_eq_true, decide_eq_true_eq] at hm
    simp only [del]
    split
    · exact sorted_mono (by omega) (sorted_del k hm.2)
    · simp only [sorted, Bool.and_eq_true, decide_eq_true_eq]; exact ⟨hm.1, sorted_del k hm.2⟩

theorem mem_ins {k : Nat} {v : α} {x : Nat × α} {m : SMap α} (h : x ∈ ins m k v) : x = (k, v) ∨ x ∈ m := by
  induction m with
  | nil => grind [ins]
  | cons y t ih => obtain ⟨k', v'⟩ := y; grind [ins]

theorem mem_del {k : Nat} {x : Nat × α} {m : SMap α} (h : x ∈ del m k) : x ∈ m := by
  induction m with
  | nil => grind [del]
  | cons y t ih => obtain ⟨k', v'⟩ := y; grind [del]

/-- Every write keeps the canonical form. -/
theorem wf_put [DecidableEq α] {d : α} {m : SMap α} (k : Nat) (v : α) (h : wf d m = true) : wf d (put d m k v) = true := by
  simp only [wf, Bool.and_eq_true, List.all_eq_true, decide_eq_true_eq] at h ⊢
  unfold put; split
  · exact ⟨sorted_del k h.1, fun x hx => h.2 x (mem_del hx)⟩
  · refine ⟨sorted_ins k v (Nat.zero_le _) h.1, fun x hx => ?_⟩
    rcases mem_ins hx with rfl | hx
    · assumption
    · exact h.2 x hx

end Sys2Proof.SMap
end

