-- ==== Sys2Proof/Laws/State.lean ====
section
/-!
SUPPORT. What each plain update of the state leaves in each field.
-/
namespace Sys2Proof.Machine
variable (s : State)

@[simp] theorem State.setWave_pt (u : Nat) (w : Wave) : (s.setWave u w).pt = s.pt := rfl
@[simp] theorem State.setWave_waves (u : Nat) (w : Wave) : (s.setWave u w).waves = s.waves.ins u w := rfl
@[simp] theorem State.setWave_blocks (u : Nat) (w : Wave) : (s.setWave u w).blocks = s.blocks := rfl
@[simp] theorem State.setWave_cores (u : Nat) (w : Wave) : (s.setWave u w).cores = s.cores := rfl
@[simp] theorem State.setWave_ctxs (u : Nat) (w : Wave) : (s.setWave u w).ctxs = s.ctxs := rfl
@[simp] theorem State.setWave_groups (u : Nat) (w : Wave) : (s.setWave u w).groups = s.groups := rfl
@[simp] theorem State.setWave_mem (u : Nat) (w : Wave) : (s.setWave u w).mem = s.mem := rfl
@[simp] theorem State.setWave_side (u : Nat) (w : Wave) : (s.setWave u w).side = s.side := rfl
@[simp] theorem State.setWave_poison (u : Nat) (w : Wave) : (s.setWave u w).poison = s.poison := rfl
@[simp] theorem State.setWave_lx (u : Nat) (w : Wave) : (s.setWave u w).lx = s.lx := rfl
@[simp] theorem State.setWave_tlb2 (u : Nat) (w : Wave) : (s.setWave u w).tlb2 = s.tlb2 := rfl
@[simp] theorem State.setWave_tier2 (u : Nat) (w : Wave) : (s.setWave u w).tier2 = s.tier2 := rfl
@[simp] theorem State.setWave_ops (u : Nat) (w : Wave) : (s.setWave u w).ops = s.ops := rfl
@[simp] theorem State.setWave_faults (u : Nat) (w : Wave) : (s.setWave u w).faults = s.faults := rfl
@[simp] theorem State.setWave_eventQ (u : Nat) (w : Wave) : (s.setWave u w).eventQ = s.eventQ := rfl
@[simp] theorem State.setWave_dieEv (u : Nat) (w : Wave) : (s.setWave u w).dieEv = s.dieEv := rfl
@[simp] theorem State.setWave_irqs (u : Nat) (w : Wave) : (s.setWave u w).irqs = s.irqs := rfl
@[simp] theorem State.setWave_sessions (u : Nat) (w : Wave) : (s.setWave u w).sessions = s.sessions := rfl
@[simp] theorem State.setWave_regs (u : Nat) (w : Wave) : (s.setWave u w).regs = s.regs := rfl
@[simp] theorem State.setWave_host (u : Nat) (w : Wave) : (s.setWave u w).host = s.host := rfl
@[simp] theorem State.setWave_link (u : Nat) (w : Wave) : (s.setWave u w).link = s.link := rfl
@[simp] theorem State.setWave_boot (u : Nat) (w : Wave) : (s.setWave u w).boot = s.boot := rfl
@[simp] theorem State.setWave_agenda (u : Nat) (w : Wave) : (s.setWave u w).agenda = s.agenda := rfl
@[simp] theorem State.setWave_cur (u : Nat) (w : Wave) : (s.setWave u w).cur = s.cur := rfl
@[simp] theorem State.setWave_ir (u : Nat) (w : Wave) : (s.setWave u w).ir = s.ir := rfl
@[simp] theorem State.setWave_blocked (u : Nat) (w : Wave) : (s.setWave u w).blocked = s.blocked := rfl
@[simp] theorem State.setWave_cursor (u : Nat) (w : Wave) : (s.setWave u w).cursor = s.cursor := rfl
@[simp] theorem State.setWave_draw (u : Nat) (w : Wave) : (s.setWave u w).draw = s.draw := rfl
@[simp] theorem State.setWave_fresh (u : Nat) (w : Wave) : (s.setWave u w).fresh = s.fresh := rfl

@[simp] theorem State.dropWave_pt (u : Nat) : (s.dropWave u).pt = s.pt := rfl
@[simp] theorem State.dropWave_waves (u : Nat) : (s.dropWave u).waves = s.waves.del u := rfl
@[simp] theorem State.dropWave_blocks (u : Nat) : (s.dropWave u).blocks = s.blocks := rfl
@[simp] theorem State.dropWave_cores (u : Nat) : (s.dropWave u).cores = s.cores := rfl
@[simp] theorem State.dropWave_ctxs (u : Nat) : (s.dropWave u).ctxs = s.ctxs := rfl
@[simp] theorem State.dropWave_groups (u : Nat) : (s.dropWave u).groups = s.groups := rfl
@[simp] theorem State.dropWave_mem (u : Nat) : (s.dropWave u).mem = s.mem := rfl
@[simp] theorem State.dropWave_side (u : Nat) : (s.dropWave u).side = s.side := rfl
@[simp] theorem State.dropWave_poison (u : Nat) : (s.dropWave u).poison = s.poison := rfl
@[simp] theorem State.dropWave_lx (u : Nat) : (s.dropWave u).lx = s.lx := rfl
@[simp] theorem State.dropWave_tlb2 (u : Nat) : (s.dropWave u).tlb2 = s.tlb2 := rfl
@[simp] theorem State.dropWave_tier2 (u : Nat) : (s.dropWave u).tier2 = s.tier2 := rfl
@[simp] theorem State.dropWave_ops (u : Nat) : (s.dropWave u).ops = s.ops := rfl
@[simp] theorem State.dropWave_faults (u : Nat) : (s.dropWave u).faults = s.faults := rfl
@[simp] theorem State.dropWave_eventQ (u : Nat) : (s.dropWave u).eventQ = s.eventQ := rfl
@[simp] theorem State.dropWave_dieEv (u : Nat) : (s.dropWave u).dieEv = s.dieEv := rfl
@[simp] theorem State.dropWave_irqs (u : Nat) : (s.dropWave u).irqs = s.irqs := rfl
@[simp] theorem State.dropWave_sessions (u : Nat) : (s.dropWave u).sessions = s.sessions := rfl
@[simp] theorem State.dropWave_regs (u : Nat) : (s.dropWave u).regs = s.regs := rfl
@[simp] theorem State.dropWave_host (u : Nat) : (s.dropWave u).host = s.host := rfl
@[simp] theorem State.dropWave_link (u : Nat) : (s.dropWave u).link = s.link := rfl
@[simp] theorem State.dropWave_boot (u : Nat) : (s.dropWave u).boot = s.boot := rfl
@[simp] theorem State.dropWave_agenda (u : Nat) : (s.dropWave u).agenda = s.agenda := rfl
@[simp] theorem State.dropWave_cur (u : Nat) : (s.dropWave u).cur = s.cur := rfl
@[simp] theorem State.dropWave_ir (u : Nat) : (s.dropWave u).ir = s.ir := rfl
@[simp] theorem State.dropWave_blocked (u : Nat) : (s.dropWave u).blocked = s.blocked := rfl
@[simp] theorem State.dropWave_cursor (u : Nat) : (s.dropWave u).cursor = s.cursor := rfl
@[simp] theorem State.dropWave_draw (u : Nat) : (s.dropWave u).draw = s.draw := rfl
@[simp] theorem State.dropWave_fresh (u : Nat) : (s.dropWave u).fresh = s.fresh := rfl

@[simp] theorem State.setBlock_pt (b : Block) : (s.setBlock b).pt = s.pt := rfl
@[simp] theorem State.setBlock_waves (b : Block) : (s.setBlock b).waves = s.waves := rfl
@[simp] theorem State.setBlock_blocks (b : Block) : (s.setBlock b).blocks = s.blocks.ins b.uid b := rfl
@[simp] theorem State.setBlock_cores (b : Block) : (s.setBlock b).cores = s.cores := rfl
@[simp] theorem State.setBlock_ctxs (b : Block) : (s.setBlock b).ctxs = s.ctxs := rfl
@[simp] theorem State.setBlock_groups (b : Block) : (s.setBlock b).groups = s.groups := rfl
@[simp] theorem State.setBlock_mem (b : Block) : (s.setBlock b).mem = s.mem := rfl
@[simp] theorem State.setBlock_side (b : Block) : (s.setBlock b).side = s.side := rfl
@[simp] theorem State.setBlock_poison (b : Block) : (s.setBlock b).poison = s.poison := rfl
@[simp] theorem State.setBlock_lx (b : Block) : (s.setBlock b).lx = s.lx := rfl
@[simp] theorem State.setBlock_tlb2 (b : Block) : (s.setBlock b).tlb2 = s.tlb2 := rfl
@[simp] theorem State.setBlock_tier2 (b : Block) : (s.setBlock b).tier2 = s.tier2 := rfl
@[simp] theorem State.setBlock_ops (b : Block) : (s.setBlock b).ops = s.ops := rfl
@[simp] theorem State.setBlock_faults (b : Block) : (s.setBlock b).faults = s.faults := rfl
@[simp] theorem State.setBlock_eventQ (b : Block) : (s.setBlock b).eventQ = s.eventQ := rfl
@[simp] theorem State.setBlock_dieEv (b : Block) : (s.setBlock b).dieEv = s.dieEv := rfl
@[simp] theorem State.setBlock_irqs (b : Block) : (s.setBlock b).irqs = s.irqs := rfl
@[simp] theorem State.setBlock_sessions (b : Block) : (s.setBlock b).sessions = s.sessions := rfl
@[simp] theorem State.setBlock_regs (b : Block) : (s.setBlock b).regs = s.regs := rfl
@[simp] theorem State.setBlock_host (b : Block) : (s.setBlock b).host = s.host := rfl
@[simp] theorem State.setBlock_link (b : Block) : (s.setBlock b).link = s.link := rfl
@[simp] theorem State.setBlock_boot (b : Block) : (s.setBlock b).boot = s.boot := rfl
@[simp] theorem State.setBlock_agenda (b : Block) : (s.setBlock b).agenda = s.agenda := rfl
@[simp] theorem State.setBlock_cur (b : Block) : (s.setBlock b).cur = s.cur := rfl
@[simp] theorem State.setBlock_ir (b : Block) : (s.setBlock b).ir = s.ir := rfl
@[simp] theorem State.setBlock_blocked (b : Block) : (s.setBlock b).blocked = s.blocked := rfl
@[simp] theorem State.setBlock_cursor (b : Block) : (s.setBlock b).cursor = s.cursor := rfl
@[simp] theorem State.setBlock_draw (b : Block) : (s.setBlock b).draw = s.draw := rfl
@[simp] theorem State.setBlock_fresh (b : Block) : (s.setBlock b).fresh = s.fresh := rfl

@[simp] theorem State.setCtx_pt (c : Nat) (x : Context) : (s.setCtx c x).pt = s.pt := rfl
@[simp] theorem State.setCtx_waves (c : Nat) (x : Context) : (s.setCtx c x).waves = s.waves := rfl
@[simp] theorem State.setCtx_blocks (c : Nat) (x : Context) : (s.setCtx c x).blocks = s.blocks := rfl
@[simp] theorem State.setCtx_cores (c : Nat) (x : Context) : (s.setCtx c x).cores = s.cores := rfl
@[simp] theorem State.setCtx_ctxs (c : Nat) (x : Context) : (s.setCtx c x).ctxs = s.ctxs.ins c x := rfl
@[simp] theorem State.setCtx_groups (c : Nat) (x : Context) : (s.setCtx c x).groups = s.groups := rfl
@[simp] theorem State.setCtx_mem (c : Nat) (x : Context) : (s.setCtx c x).mem = s.mem := rfl
@[simp] theorem State.setCtx_side (c : Nat) (x : Context) : (s.setCtx c x).side = s.side := rfl
@[simp] theorem State.setCtx_poison (c : Nat) (x : Context) : (s.setCtx c x).poison = s.poison := rfl
@[simp] theorem State.setCtx_lx (c : Nat) (x : Context) : (s.setCtx c x).lx = s.lx := rfl
@[simp] theorem State.setCtx_tlb2 (c : Nat) (x : Context) : (s.setCtx c x).tlb2 = s.tlb2 := rfl
@[simp] theorem State.setCtx_tier2 (c : Nat) (x : Context) : (s.setCtx c x).tier2 = s.tier2 := rfl
@[simp] theorem State.setCtx_ops (c : Nat) (x : Context) : (s.setCtx c x).ops = s.ops := rfl
@[simp] theorem State.setCtx_faults (c : Nat) (x : Context) : (s.setCtx c x).faults = s.faults := rfl
@[simp] theorem State.setCtx_eventQ (c : Nat) (x : Context) : (s.setCtx c x).eventQ = s.eventQ := rfl
@[simp] theorem State.setCtx_dieEv (c : Nat) (x : Context) : (s.setCtx c x).dieEv = s.dieEv := rfl
@[simp] theorem State.setCtx_irqs (c : Nat) (x : Context) : (s.setCtx c x).irqs = s.irqs := rfl
@[simp] theorem State.setCtx_sessions (c : Nat) (x : Context) : (s.setCtx c x).sessions = s.sessions := rfl
@[simp] theorem State.setCtx_regs (c : Nat) (x : Context) : (s.setCtx c x).regs = s.regs := rfl
@[simp] theorem State.setCtx_host (c : Nat) (x : Context) : (s.setCtx c x).host = s.host := rfl
@[simp] theorem State.setCtx_link (c : Nat) (x : Context) : (s.setCtx c x).link = s.link := rfl
@[simp] theorem State.setCtx_boot (c : Nat) (x : Context) : (s.setCtx c x).boot = s.boot := rfl
@[simp] theorem State.setCtx_agenda (c : Nat) (x : Context) : (s.setCtx c x).agenda = s.agenda := rfl
@[simp] theorem State.setCtx_cur (c : Nat) (x : Context) : (s.setCtx c x).cur = s.cur := rfl
@[simp] theorem State.setCtx_ir (c : Nat) (x : Context) : (s.setCtx c x).ir = s.ir := rfl
@[simp] theorem State.setCtx_blocked (c : Nat) (x : Context) : (s.setCtx c x).blocked = s.blocked := rfl
@[simp] theorem State.setCtx_cursor (c : Nat) (x : Context) : (s.setCtx c x).cursor = s.cursor := rfl
@[simp] theorem State.setCtx_draw (c : Nat) (x : Context) : (s.setCtx c x).draw = s.draw := rfl
@[simp] theorem State.setCtx_fresh (c : Nat) (x : Context) : (s.setCtx c x).fresh = s.fresh := rfl

@[simp] theorem State.setCore_pt (c : Nat) (x : CoreSt) : (s.setCore c x).pt = s.pt := rfl
@[simp] theorem State.setCore_waves (c : Nat) (x : CoreSt) : (s.setCore c x).waves = s.waves := rfl
@[simp] theorem State.setCore_blocks (c : Nat) (x : CoreSt) : (s.setCore c x).blocks = s.blocks := rfl
@[simp] theorem State.setCore_cores (c : Nat) (x : CoreSt) : (s.setCore c x).cores = s.cores.put CoreSt.empty c x := rfl
@[simp] theorem State.setCore_ctxs (c : Nat) (x : CoreSt) : (s.setCore c x).ctxs = s.ctxs := rfl
@[simp] theorem State.setCore_groups (c : Nat) (x : CoreSt) : (s.setCore c x).groups = s.groups := rfl
@[simp] theorem State.setCore_mem (c : Nat) (x : CoreSt) : (s.setCore c x).mem = s.mem := rfl
@[simp] theorem State.setCore_side (c : Nat) (x : CoreSt) : (s.setCore c x).side = s.side := rfl
@[simp] theorem State.setCore_poison (c : Nat) (x : CoreSt) : (s.setCore c x).poison = s.poison := rfl
@[simp] theorem State.setCore_lx (c : Nat) (x : CoreSt) : (s.setCore c x).lx = s.lx := rfl
@[simp] theorem State.setCore_tlb2 (c : Nat) (x : CoreSt) : (s.setCore c x).tlb2 = s.tlb2 := rfl
@[simp] theorem State.setCore_tier2 (c : Nat) (x : CoreSt) : (s.setCore c x).tier2 = s.tier2 := rfl
@[simp] theorem State.setCore_ops (c : Nat) (x : CoreSt) : (s.setCore c x).ops = s.ops := rfl
@[simp] theorem State.setCore_faults (c : Nat) (x : CoreSt) : (s.setCore c x).faults = s.faults := rfl
@[simp] theorem State.setCore_eventQ (c : Nat) (x : CoreSt) : (s.setCore c x).eventQ = s.eventQ := rfl
@[simp] theorem State.setCore_dieEv (c : Nat) (x : CoreSt) : (s.setCore c x).dieEv = s.dieEv := rfl
@[simp] theorem State.setCore_irqs (c : Nat) (x : CoreSt) : (s.setCore c x).irqs = s.irqs := rfl
@[simp] theorem State.setCore_sessions (c : Nat) (x : CoreSt) : (s.setCore c x).sessions = s.sessions := rfl
@[simp] theorem State.setCore_regs (c : Nat) (x : CoreSt) : (s.setCore c x).regs = s.regs := rfl
@[simp] theorem State.setCore_host (c : Nat) (x : CoreSt) : (s.setCore c x).host = s.host := rfl
@[simp] theorem State.setCore_link (c : Nat) (x : CoreSt) : (s.setCore c x).link = s.link := rfl
@[simp] theorem State.setCore_boot (c : Nat) (x : CoreSt) : (s.setCore c x).boot = s.boot := rfl
@[simp] theorem State.setCore_agenda (c : Nat) (x : CoreSt) : (s.setCore c x).agenda = s.agenda := rfl
@[simp] theorem State.setCore_cur (c : Nat) (x : CoreSt) : (s.setCore c x).cur = s.cur := rfl
@[simp] theorem State.setCore_ir (c : Nat) (x : CoreSt) : (s.setCore c x).ir = s.ir := rfl
@[simp] theorem State.setCore_blocked (c : Nat) (x : CoreSt) : (s.setCore c x).blocked = s.blocked := rfl
@[simp] theorem State.setCore_cursor (c : Nat) (x : CoreSt) : (s.setCore c x).cursor = s.cursor := rfl
@[simp] theorem State.setCore_draw (c : Nat) (x : CoreSt) : (s.setCore c x).draw = s.draw := rfl
@[simp] theorem State.setCore_fresh (c : Nat) (x : CoreSt) : (s.setCore c x).fresh = s.fresh := rfl

@[simp] theorem State.onCtx_pt (c : Nat) (f : Context → Context) : (s.onCtx c f).pt = s.pt := rfl
@[simp] theorem State.onCtx_waves (c : Nat) (f : Context → Context) : (s.onCtx c f).waves = s.waves := rfl
@[simp] theorem State.onCtx_blocks (c : Nat) (f : Context → Context) : (s.onCtx c f).blocks = s.blocks := rfl
@[simp] theorem State.onCtx_cores (c : Nat) (f : Context → Context) : (s.onCtx c f).cores = s.cores := rfl
@[simp] theorem State.onCtx_ctxs (c : Nat) (f : Context → Context) : (s.onCtx c f).ctxs = s.ctxs.upd c f := rfl
@[simp] theorem State.onCtx_groups (c : Nat) (f : Context → Context) : (s.onCtx c f).groups = s.groups := rfl
@[simp] theorem State.onCtx_mem (c : Nat) (f : Context → Context) : (s.onCtx c f).mem = s.mem := rfl
@[simp] theorem State.onCtx_side (c : Nat) (f : Context → Context) : (s.onCtx c f).side = s.side := rfl
@[simp] theorem State.onCtx_poison (c : Nat) (f : Context → Context) : (s.onCtx c f).poison = s.poison := rfl
@[simp] theorem State.onCtx_lx (c : Nat) (f : Context → Context) : (s.onCtx c f).lx = s.lx := rfl
@[simp] theorem State.onCtx_tlb2 (c : Nat) (f : Context → Context) : (s.onCtx c f).tlb2 = s.tlb2 := rfl
@[simp] theorem State.onCtx_tier2 (c : Nat) (f : Context → Context) : (s.onCtx c f).tier2 = s.tier2 := rfl
@[simp] theorem State.onCtx_ops (c : Nat) (f : Context → Context) : (s.onCtx c f).ops = s.ops := rfl
@[simp] theorem State.onCtx_faults (c : Nat) (f : Context → Context) : (s.onCtx c f).faults = s.faults := rfl
@[simp] theorem State.onCtx_eventQ (c : Nat) (f : Context → Context) : (s.onCtx c f).eventQ = s.eventQ := rfl
@[simp] theorem State.onCtx_dieEv (c : Nat) (f : Context → Context) : (s.onCtx c f).dieEv = s.dieEv := rfl
@[simp] theorem State.onCtx_irqs (c : Nat) (f : Context → Context) : (s.onCtx c f).irqs = s.irqs := rfl
@[simp] theorem State.onCtx_sessions (c : Nat) (f : Context → Context) : (s.onCtx c f).sessions = s.sessions := rfl
@[simp] theorem State.onCtx_regs (c : Nat) (f : Context → Context) : (s.onCtx c f).regs = s.regs := rfl
@[simp] theorem State.onCtx_host (c : Nat) (f : Context → Context) : (s.onCtx c f).host = s.host := rfl
@[simp] theorem State.onCtx_link (c : Nat) (f : Context → Context) : (s.onCtx c f).link = s.link := rfl
@[simp] theorem State.onCtx_boot (c : Nat) (f : Context → Context) : (s.onCtx c f).boot = s.boot := rfl
@[simp] theorem State.onCtx_agenda (c : Nat) (f : Context → Context) : (s.onCtx c f).agenda = s.agenda := rfl
@[simp] theorem State.onCtx_cur (c : Nat) (f : Context → Context) : (s.onCtx c f).cur = s.cur := rfl
@[simp] theorem State.onCtx_ir (c : Nat) (f : Context → Context) : (s.onCtx c f).ir = s.ir := rfl
@[simp] theorem State.onCtx_blocked (c : Nat) (f : Context → Context) : (s.onCtx c f).blocked = s.blocked := rfl
@[simp] theorem State.onCtx_cursor (c : Nat) (f : Context → Context) : (s.onCtx c f).cursor = s.cursor := rfl
@[simp] theorem State.onCtx_draw (c : Nat) (f : Context → Context) : (s.onCtx c f).draw = s.draw := rfl
@[simp] theorem State.onCtx_fresh (c : Nat) (f : Context → Context) : (s.onCtx c f).fresh = s.fresh := rfl

@[simp] theorem State.onWave_pt (n : Nat) (f : Wave → Wave) : (s.onWave n f).pt = s.pt := rfl
@[simp] theorem State.onWave_cores (n : Nat) (f : Wave → Wave) : (s.onWave n f).cores = s.cores := rfl
@[simp] theorem State.onWave_ctxs (n : Nat) (f : Wave → Wave) : (s.onWave n f).ctxs = s.ctxs := rfl
@[simp] theorem State.onWave_groups (n : Nat) (f : Wave → Wave) : (s.onWave n f).groups = s.groups := rfl
@[simp] theorem State.onWave_mem (n : Nat) (f : Wave → Wave) : (s.onWave n f).mem = s.mem := rfl
@[simp] theorem State.onWave_side (n : Nat) (f : Wave → Wave) : (s.onWave n f).side = s.side := rfl
@[simp] theorem State.onWave_poison (n : Nat) (f : Wave → Wave) : (s.onWave n f).poison = s.poison := rfl
@[simp] theorem State.onWave_lx (n : Nat) (f : Wave → Wave) : (s.onWave n f).lx = s.lx := rfl
@[simp] theorem State.onWave_tlb2 (n : Nat) (f : Wave → Wave) : (s.onWave n f).tlb2 = s.tlb2 := rfl
@[simp] theorem State.onWave_tier2 (n : Nat) (f : Wave → Wave) : (s.onWave n f).tier2 = s.tier2 := rfl
@[simp] theorem State.onWave_ops (n : Nat) (f : Wave → Wave) : (s.onWave n f).ops = s.ops := rfl
@[simp] theorem State.onWave_faults (n : Nat) (f : Wave → Wave) : (s.onWave n f).faults = s.faults := rfl
@[simp] theorem State.onWave_eventQ (n : Nat) (f : Wave → Wave) : (s.onWave n f).eventQ = s.eventQ := rfl
@[simp] theorem State.onWave_dieEv (n : Nat) (f : Wave → Wave) : (s.onWave n f).dieEv = s.dieEv := rfl
@[simp] theorem State.onWave_irqs (n : Nat) (f : Wave → Wave) : (s.onWave n f).irqs = s.irqs := rfl
@[simp] theorem State.onWave_sessions (n : Nat) (f : Wave → Wave) : (s.onWave n f).sessions = s.sessions := rfl
@[simp] theorem State.onWave_regs (n : Nat) (f : Wave → Wave) : (s.onWave n f).regs = s.regs := rfl
@[simp] theorem State.onWave_host (n : Nat) (f : Wave → Wave) : (s.onWave n f).host = s.host := rfl
@[simp] theorem State.onWave_link (n : Nat) (f : Wave → Wave) : (s.onWave n f).link = s.link := rfl
@[simp] theorem State.onWave_boot (n : Nat) (f : Wave → Wave) : (s.onWave n f).boot = s.boot := rfl
@[simp] theorem State.onWave_agenda (n : Nat) (f : Wave → Wave) : (s.onWave n f).agenda = s.agenda := rfl
@[simp] theorem State.onWave_cur (n : Nat) (f : Wave → Wave) : (s.onWave n f).cur = s.cur := rfl
@[simp] theorem State.onWave_ir (n : Nat) (f : Wave → Wave) : (s.onWave n f).ir = s.ir := rfl
@[simp] theorem State.onWave_blocked (n : Nat) (f : Wave → Wave) : (s.onWave n f).blocked = s.blocked := rfl
@[simp] theorem State.onWave_cursor (n : Nat) (f : Wave → Wave) : (s.onWave n f).cursor = s.cursor := rfl
@[simp] theorem State.onWave_draw (n : Nat) (f : Wave → Wave) : (s.onWave n f).draw = s.draw := rfl
@[simp] theorem State.onWave_fresh (n : Nat) (f : Wave → Wave) : (s.onWave n f).fresh = s.fresh := rfl

@[simp] theorem State.onOwner_pt (n : Nat) (f : Wave → Wave) : (s.onOwner n f).pt = s.pt := rfl
@[simp] theorem State.onOwner_cores (n : Nat) (f : Wave → Wave) : (s.onOwner n f).cores = s.cores := rfl
@[simp] theorem State.onOwner_ctxs (n : Nat) (f : Wave → Wave) : (s.onOwner n f).ctxs = s.ctxs := rfl
@[simp] theorem State.onOwner_groups (n : Nat) (f : Wave → Wave) : (s.onOwner n f).groups = s.groups := rfl
@[simp] theorem State.onOwner_mem (n : Nat) (f : Wave → Wave) : (s.onOwner n f).mem = s.mem := rfl
@[simp] theorem State.onOwner_side (n : Nat) (f : Wave → Wave) : (s.onOwner n f).side = s.side := rfl
@[simp] theorem State.onOwner_poison (n : Nat) (f : Wave → Wave) : (s.onOwner n f).poison = s.poison := rfl
@[simp] theorem State.onOwner_lx (n : Nat) (f : Wave → Wave) : (s.onOwner n f).lx = s.lx := rfl
@[simp] theorem State.onOwner_tlb2 (n : Nat) (f : Wave → Wave) : (s.onOwner n f).tlb2 = s.tlb2 := rfl
@[simp] theorem State.onOwner_tier2 (n : Nat) (f : Wave → Wave) : (s.onOwner n f).tier2 = s.tier2 := rfl
@[simp] theorem State.onOwner_ops (n : Nat) (f : Wave → Wave) : (s.onOwner n f).ops = s.ops := rfl
@[simp] theorem State.onOwner_faults (n : Nat) (f : Wave → Wave) : (s.onOwner n f).faults = s.faults := rfl
@[simp] theorem State.onOwner_eventQ (n : Nat) (f : Wave → Wave) : (s.onOwner n f).eventQ = s.eventQ := rfl
@[simp] theorem State.onOwner_dieEv (n : Nat) (f : Wave → Wave) : (s.onOwner n f).dieEv = s.dieEv := rfl
@[simp] theorem State.onOwner_irqs (n : Nat) (f : Wave → Wave) : (s.onOwner n f).irqs = s.irqs := rfl
@[simp] theorem State.onOwner_sessions (n : Nat) (f : Wave → Wave) : (s.onOwner n f).sessions = s.sessions := rfl
@[simp] theorem State.onOwner_regs (n : Nat) (f : Wave → Wave) : (s.onOwner n f).regs = s.regs := rfl
@[simp] theorem State.onOwner_host (n : Nat) (f : Wave → Wave) : (s.onOwner n f).host = s.host := rfl
@[simp] theorem State.onOwner_link (n : Nat) (f : Wave → Wave) : (s.onOwner n f).link = s.link := rfl
@[simp] theorem State.onOwner_boot (n : Nat) (f : Wave → Wave) : (s.onOwner n f).boot = s.boot := rfl
@[simp] theorem State.onOwner_agenda (n : Nat) (f : Wave → Wave) : (s.onOwner n f).agenda = s.agenda := rfl
@[simp] theorem State.onOwner_cur (n : Nat) (f : Wave → Wave) : (s.onOwner n f).cur = s.cur := rfl
@[simp] theorem State.onOwner_ir (n : Nat) (f : Wave → Wave) : (s.onOwner n f).ir = s.ir := rfl
@[simp] theorem State.onOwner_blocked (n : Nat) (f : Wave → Wave) : (s.onOwner n f).blocked = s.blocked := rfl
@[simp] theorem State.onOwner_cursor (n : Nat) (f : Wave → Wave) : (s.onOwner n f).cursor = s.cursor := rfl
@[simp] theorem State.onOwner_draw (n : Nat) (f : Wave → Wave) : (s.onOwner n f).draw = s.draw := rfl
@[simp] theorem State.onOwner_fresh (n : Nat) (f : Wave → Wave) : (s.onOwner n f).fresh = s.fresh := rfl

@[simp] theorem State.stall_pt (u : Nat) : (s.stall u).pt = s.pt := rfl
@[simp] theorem State.stall_waves (u : Nat) : (s.stall u).waves = s.waves := rfl
@[simp] theorem State.stall_blocks (u : Nat) : (s.stall u).blocks = s.blocks := rfl
@[simp] theorem State.stall_cores (u : Nat) : (s.stall u).cores = s.cores := rfl
@[simp] theorem State.stall_ctxs (u : Nat) : (s.stall u).ctxs = s.ctxs := rfl
@[simp] theorem State.stall_groups (u : Nat) : (s.stall u).groups = s.groups := rfl
@[simp] theorem State.stall_mem (u : Nat) : (s.stall u).mem = s.mem := rfl
@[simp] theorem State.stall_side (u : Nat) : (s.stall u).side = s.side := rfl
@[simp] theorem State.stall_poison (u : Nat) : (s.stall u).poison = s.poison := rfl
@[simp] theorem State.stall_lx (u : Nat) : (s.stall u).lx = s.lx := rfl
@[simp] theorem State.stall_tlb2 (u : Nat) : (s.stall u).tlb2 = s.tlb2 := rfl
@[simp] theorem State.stall_tier2 (u : Nat) : (s.stall u).tier2 = s.tier2 := rfl
@[simp] theorem State.stall_ops (u : Nat) : (s.stall u).ops = s.ops := rfl
@[simp] theorem State.stall_faults (u : Nat) : (s.stall u).faults = s.faults := rfl
@[simp] theorem State.stall_eventQ (u : Nat) : (s.stall u).eventQ = s.eventQ := rfl
@[simp] theorem State.stall_dieEv (u : Nat) : (s.stall u).dieEv = s.dieEv := rfl
@[simp] theorem State.stall_irqs (u : Nat) : (s.stall u).irqs = s.irqs := rfl
@[simp] theorem State.stall_sessions (u : Nat) : (s.stall u).sessions = s.sessions := rfl
@[simp] theorem State.stall_regs (u : Nat) : (s.stall u).regs = s.regs := rfl
@[simp] theorem State.stall_host (u : Nat) : (s.stall u).host = s.host := rfl
@[simp] theorem State.stall_link (u : Nat) : (s.stall u).link = s.link := rfl
@[simp] theorem State.stall_boot (u : Nat) : (s.stall u).boot = s.boot := rfl
@[simp] theorem State.stall_agenda (u : Nat) : (s.stall u).agenda = s.agenda := rfl
@[simp] theorem State.stall_cur (u : Nat) : (s.stall u).cur = s.cur := rfl
@[simp] theorem State.stall_ir (u : Nat) : (s.stall u).ir = s.ir := rfl
@[simp] theorem State.stall_blocked (u : Nat) : (s.stall u).blocked = u :: s.blocked := rfl
@[simp] theorem State.stall_cursor (u : Nat) : (s.stall u).cursor = s.cursor := rfl
@[simp] theorem State.stall_draw (u : Nat) : (s.stall u).draw = s.draw := rfl
@[simp] theorem State.stall_fresh (u : Nat) : (s.stall u).fresh = s.fresh := rfl

@[simp] theorem State.changed_pt : (s.changed ).pt = s.pt := rfl
@[simp] theorem State.changed_waves : (s.changed ).waves = s.waves := rfl
@[simp] theorem State.changed_blocks : (s.changed ).blocks = s.blocks := rfl
@[simp] theorem State.changed_cores : (s.changed ).cores = s.cores := rfl
@[simp] theorem State.changed_ctxs : (s.changed ).ctxs = s.ctxs := rfl
@[simp] theorem State.changed_groups : (s.changed ).groups = s.groups := rfl
@[simp] theorem State.changed_mem : (s.changed ).mem = s.mem := rfl
@[simp] theorem State.changed_side : (s.changed ).side = s.side := rfl
@[simp] theorem State.changed_poison : (s.changed ).poison = s.poison := rfl
@[simp] theorem State.changed_lx : (s.changed ).lx = s.lx := rfl
@[simp] theorem State.changed_tlb2 : (s.changed ).tlb2 = s.tlb2 := rfl
@[simp] theorem State.changed_tier2 : (s.changed ).tier2 = s.tier2 := rfl
@[simp] theorem State.changed_ops : (s.changed ).ops = s.ops := rfl
@[simp] theorem State.changed_faults : (s.changed ).faults = s.faults := rfl
@[simp] theorem State.changed_eventQ : (s.changed ).eventQ = s.eventQ := rfl
@[simp] theorem State.changed_dieEv : (s.changed ).dieEv = s.dieEv := rfl
@[simp] theorem State.changed_irqs : (s.changed ).irqs = s.irqs := rfl
@[simp] theorem State.changed_sessions : (s.changed ).sessions = s.sessions := rfl
@[simp] theorem State.changed_regs : (s.changed ).regs = s.regs := rfl
@[simp] theorem State.changed_host : (s.changed ).host = s.host := rfl
@[simp] theorem State.changed_link : (s.changed ).link = s.link := rfl
@[simp] theorem State.changed_boot : (s.changed ).boot = s.boot := rfl
@[simp] theorem State.changed_agenda : (s.changed ).agenda = s.agenda := rfl
@[simp] theorem State.changed_cur : (s.changed ).cur = s.cur := rfl
@[simp] theorem State.changed_ir : (s.changed ).ir = s.ir := rfl
@[simp] theorem State.changed_blocked : (s.changed ).blocked = [] := rfl
@[simp] theorem State.changed_cursor : (s.changed ).cursor = s.cursor := rfl
@[simp] theorem State.changed_draw : (s.changed ).draw = s.draw := rfl
@[simp] theorem State.changed_fresh : (s.changed ).fresh = s.fresh := rfl

@[simp] theorem State.next_pt : (s.next ).pt = s.pt := rfl
@[simp] theorem State.next_waves : (s.next ).waves = s.waves := rfl
@[simp] theorem State.next_blocks : (s.next ).blocks = s.blocks := rfl
@[simp] theorem State.next_cores : (s.next ).cores = s.cores := rfl
@[simp] theorem State.next_ctxs : (s.next ).ctxs = s.ctxs := rfl
@[simp] theorem State.next_groups : (s.next ).groups = s.groups := rfl
@[simp] theorem State.next_mem : (s.next ).mem = s.mem := rfl
@[simp] theorem State.next_side : (s.next ).side = s.side := rfl
@[simp] theorem State.next_poison : (s.next ).poison = s.poison := rfl
@[simp] theorem State.next_lx : (s.next ).lx = s.lx := rfl
@[simp] theorem State.next_tlb2 : (s.next ).tlb2 = s.tlb2 := rfl
@[simp] theorem State.next_tier2 : (s.next ).tier2 = s.tier2 := rfl
@[simp] theorem State.next_ops : (s.next ).ops = s.ops := rfl
@[simp] theorem State.next_faults : (s.next ).faults = s.faults := rfl
@[simp] theorem State.next_eventQ : (s.next ).eventQ = s.eventQ := rfl
@[simp] theorem State.next_dieEv : (s.next ).dieEv = s.dieEv := rfl
@[simp] theorem State.next_irqs : (s.next ).irqs = s.irqs := rfl
@[simp] theorem State.next_sessions : (s.next ).sessions = s.sessions := rfl
@[simp] theorem State.next_regs : (s.next ).regs = s.regs := rfl
@[simp] theorem State.next_host : (s.next ).host = s.host := rfl
@[simp] theorem State.next_link : (s.next ).link = s.link := rfl
@[simp] theorem State.next_boot : (s.next ).boot = s.boot := rfl
@[simp] theorem State.next_agenda : (s.next ).agenda = s.agenda := rfl
@[simp] theorem State.next_cur : (s.next ).cur = s.cur := rfl
@[simp] theorem State.next_ir : (s.next ).ir = s.ir := rfl
@[simp] theorem State.next_blocked : (s.next ).blocked = s.blocked := rfl
@[simp] theorem State.next_cursor : (s.next ).cursor = s.cursor := rfl
@[simp] theorem State.next_draw : (s.next ).draw = s.draw := rfl
@[simp] theorem State.next_fresh : (s.next ).fresh = s.fresh + 1 := rfl

@[simp] theorem State.tick_pt (n : Nat) : (s.tick n).pt = (s.pt + n) % 2 ^ 64 := rfl
@[simp] theorem State.tick_waves (n : Nat) : (s.tick n).waves = s.waves := rfl
@[simp] theorem State.tick_blocks (n : Nat) : (s.tick n).blocks = s.blocks := rfl
@[simp] theorem State.tick_cores (n : Nat) : (s.tick n).cores = s.cores := rfl
@[simp] theorem State.tick_ctxs (n : Nat) : (s.tick n).ctxs = s.ctxs := rfl
@[simp] theorem State.tick_groups (n : Nat) : (s.tick n).groups = s.groups := rfl
@[simp] theorem State.tick_mem (n : Nat) : (s.tick n).mem = s.mem := rfl
@[simp] theorem State.tick_side (n : Nat) : (s.tick n).side = s.side := rfl
@[simp] theorem State.tick_poison (n : Nat) : (s.tick n).poison = s.poison := rfl
@[simp] theorem State.tick_lx (n : Nat) : (s.tick n).lx = s.lx := rfl
@[simp] theorem State.tick_tlb2 (n : Nat) : (s.tick n).tlb2 = s.tlb2 := rfl
@[simp] theorem State.tick_tier2 (n : Nat) : (s.tick n).tier2 = s.tier2 := rfl
@[simp] theorem State.tick_ops (n : Nat) : (s.tick n).ops = s.ops := rfl
@[simp] theorem State.tick_faults (n : Nat) : (s.tick n).faults = s.faults := rfl
@[simp] theorem State.tick_eventQ (n : Nat) : (s.tick n).eventQ = s.eventQ := rfl
@[simp] theorem State.tick_dieEv (n : Nat) : (s.tick n).dieEv = s.dieEv := rfl
@[simp] theorem State.tick_irqs (n : Nat) : (s.tick n).irqs = s.irqs := rfl
@[simp] theorem State.tick_sessions (n : Nat) : (s.tick n).sessions = s.sessions := rfl
@[simp] theorem State.tick_regs (n : Nat) : (s.tick n).regs = s.regs := rfl
@[simp] theorem State.tick_host (n : Nat) : (s.tick n).host = s.host := rfl
@[simp] theorem State.tick_link (n : Nat) : (s.tick n).link = s.link := rfl
@[simp] theorem State.tick_boot (n : Nat) : (s.tick n).boot = s.boot := rfl
@[simp] theorem State.tick_agenda (n : Nat) : (s.tick n).agenda = s.agenda := rfl
@[simp] theorem State.tick_cur (n : Nat) : (s.tick n).cur = s.cur := rfl
@[simp] theorem State.tick_ir (n : Nat) : (s.tick n).ir = s.ir := rfl
@[simp] theorem State.tick_blocked (n : Nat) : (s.tick n).blocked = [] := rfl
@[simp] theorem State.tick_cursor (n : Nat) : (s.tick n).cursor = s.cursor := rfl
@[simp] theorem State.tick_draw (n : Nat) : (s.tick n).draw = s.draw := rfl
@[simp] theorem State.tick_fresh (n : Nat) : (s.tick n).fresh = s.fresh := rfl

@[simp] theorem State.setWave_wave (u v : Nat) (w : Wave) :
    (s.setWave u w).wave v = if v = u then some w else s.wave v := SMap.find_ins ..
@[simp] theorem State.setWave_block (u b : Nat) (w : Wave) : (s.setWave u w).block b = s.block b := rfl
@[simp] theorem State.setWave_ctx (u c : Nat) (w : Wave) : (s.setWave u w).ctx c = s.ctx c := rfl
@[simp] theorem State.setWave_core (u c : Nat) (w : Wave) : (s.setWave u w).core c = s.core c := rfl
@[simp] theorem State.changed_wave (u : Nat) : s.changed.wave u = s.wave u := rfl
@[simp] theorem State.changed_block (b : Nat) : s.changed.block b = s.block b := rfl
@[simp] theorem State.changed_ctx (c : Nat) : s.changed.ctx c = s.ctx c := rfl
@[simp] theorem State.setBlock_block (b : Block) (n : Nat) :
    (s.setBlock b).block n = if n = b.uid then some b else s.block n := SMap.find_ins ..
@[simp] theorem State.onCtx_ctx (c n : Nat) (f : Context → Context) :
    (s.onCtx c f).ctx n = if n = c then (s.ctx n).map f else s.ctx n := SMap.find_upd ..
@[simp] theorem State.setCore_core (c n : Nat) (x : CoreSt) :
    (s.setCore c x).core n = if n = c then x else s.core n := SMap.get_put ..

end Sys2Proof.Machine
end

