-- ==== Sys2Proof/Laws/Issue.lean ====
section
/-!
SUPPORT. What the issue of an instruction comes to in a unit that is ready, and what the commit of the return buffer leaves.
-/
namespace Sys2Proof.Machine

variable {s : State} {u : Nat} {w : Wave} {b : Block} {p : Bool} {i : Issue}

@[simp] theorem Wave.parked_false (w : Wave) : w.parked false = w := rfl
@[simp] theorem Wave.parked_true (w : Wave) : w.parked true = w.commit := rfl

/-- The commit of an element changes registers alone. -/
theorem Wave.commitElem_rest (w : Wave) (x : Elem) (v : Word) : { w.commitElem x v with regs := w.regs } = w := by
  cases x <;> simp only [Wave.commitElem, Wave.storeV, Wave.storeE, Wave.storeS]
  split <;> rfl

/-- The commit of elements changes registers alone. -/
theorem Wave.commitElems_rest (en : Entry) (xs : List (Elem × Word)) : ∀ w : Wave,
    { xs.foldl (fun w' ev => if en.dests.contains ev.1 then w'.commitElem ev.1 ev.2 else w') w with regs := w.regs } = w := by
  induction xs with
  | nil => intro w; rfl
  | cons x xs ih =>
    intro w
    rw [List.foldl_cons]
    split
    · have := congrArg (fun v : Wave => { v with regs := w.regs }) (ih (w.commitElem x.1 x.2))
      exact this.trans (Wave.commitElem_rest w x.1 x.2)
    · exact ih w

/-- The commit of an entry changes registers and FSTICKY alone. -/
theorem Wave.commitEntry_rest (w : Wave) (en : Entry) :
    { w.commitEntry en with regs := w.regs, csr := w.csr } = w := by
  unfold Wave.commitEntry
  split
  · rfl
  · exact congrArg (fun v : Wave => { v with csr := w.csr }) (Wave.commitElems_rest en en.vals w)

/-- The commit of the return buffer changes registers, FSTICKY and the buffer alone (02 R70). -/
theorem Wave.commit_rest (w : Wave) :
    { w.commit with regs := w.regs, csr := w.csr, rb := w.rb, parking := w.parking } = w := by
  have h : ∀ (l : List Entry) (v : Wave), { l.foldl Wave.commitEntry v with regs := v.regs, csr := v.csr } = v := by
    intro l
    induction l with
    | nil => intro v; rfl
    | cons e l ih =>
      intro v
      rw [List.foldl_cons]
      have := congrArg (fun x : Wave => { x with regs := v.regs, csr := v.csr }) (ih (v.commitEntry e))
      exact this.trans (Wave.commitEntry_rest v e)
  have := congrArg (fun x : Wave => { x with rb := w.rb, parking := w.parking }) (h w.rb w)
  exact this

theorem Wave.commit_deferred (w : Wave) : w.commit.deferred = w.deferred :=
  (congrArg Wave.deferred w.commit_rest :)
theorem Wave.commit_pc (w : Wave) : w.commit.pc = w.pc :=
  (congrArg Wave.pc w.commit_rest :)
theorem Wave.commit_block (w : Wave) : w.commit.block = w.block :=
  (congrArg Wave.block w.commit_rest :)
theorem Wave.commit_lanes (w : Wave) : w.commit.lanes = w.lanes :=
  (congrArg Wave.lanes w.commit_rest :)

/-- A unit that is ready issues: what follows is the instruction's own effect. -/
theorem issue_ready {body : Nat → Wave → Block → Eff} (h : Ready s u w b (i.parks p w) i.opnds)
    (ha : i.allowed s (w.parked (i.parks p w)) = none) :
    issue s p i body =
      match body u (w.parked (i.parks p w)) b with
      | .done t => .next t.changed
      | .trap t => .next (s.trap u (w.parked (i.parks p w)) t)
      | .stall => .next ((s.setWave u (w.parked (i.parks p w))).stall u) := by
  have hw : checkWindow s (w.parked (i.parks p w)) b i.opnds = none := by
    simp only [checkWindow, Option.map_eq_none_iff, List.findSome?_eq_none_iff]
    exact h.inside
  have hb : i.opnds.any (Opnd.busy (w.parked (i.parks p w))) = false := by
    simpa only [List.any_eq_false, Bool.not_eq_true] using h.free
  have hp : i.opnds.any (Opnd.poisoned (w.parked (i.parks p w))) = false := by
    simpa only [List.any_eq_false, Bool.not_eq_true] using h.sound
  have hd : (if i.parks p w then (w.parked (i.parks p w)).deferred else []) = [] := by
    split
    · next hk => rw [hk, Wave.parked_true, Wave.commit_deferred]; exact h.clean hk
    · rfl
  have hr : (i.parks p w && !w.arrived) = false := by
    cases hk : i.parks p w
    · rfl
    · rw [h.arrived hk]; rfl
  unfold issue
  simp only [h.current, h.wave, h.block, Option.bind_some, Option.map_some, hr, Bool.false_eq_true, if_false]
  unfold Wave.parked at *
  cases body u (if i.parks p w then w.commit else w) b <;>
    simp only [hd, ha, hw, hb, hp, Bool.false_eq_true, if_false]

/-- The same, for any way of writing when the instruction parks and what its operands are. -/
theorem issue_at {body : Nat → Wave → Block → Eff} {parks : Bool} {ops : List Opnd} (h : Ready s u w b parks ops)
    (hp : i.parks p w = parks) (ho : i.opnds = ops) (ha : i.allowed s (w.parked parks) = none) :
    issue s p i body =
      match body u (w.parked parks) b with
      | .done t => .next t.changed
      | .trap t => .next (s.trap u (w.parked parks) t)
      | .stall => .next ((s.setWave u (w.parked parks)).stall u) := by
  subst hp ho; exact issue_ready h ha

/-- The block of a parked wave. -/
theorem Ready.block' {parks : Bool} {ops : List Opnd} (h : Ready s u w b parks ops) :
    s.block (w.parked parks).block = some b := by
  have : (w.parked parks).block = w.block := by
    unfold Wave.parked; split
    · exact w.commit_block
    · rfl
  rw [this]; exact h.block

end Sys2Proof.Machine
end

