-- ==== Sys2Proof/Laws/Shows.lean ====
section
/-!
SUPPORT. Writes of register elements, and what a sequence of them shows in its wave.
-/
namespace Sys2Proof.Machine

/-- A write of one element by a fixed-latency instruction. -/
def Wave.putElem (w : Wave) (x : Elem) (v : Word) : Wave := (w.kill x).commitElem x v
def Wave.putElems (w : Wave) (xs : List (Elem × Word)) : Wave := xs.foldl (fun w' ev => w'.putElem ev.1 ev.2) w

theorem Wave.putV_eq (w : Wave) (reg pos : Nat) (x : Word) : w.putV reg pos x = w.putElem (.v (laneKey reg pos)) x := rfl
theorem Wave.putS_eq (w : Wave) (n : Nat) (x : Word) : w.putS n x = w.putElem (.s n) x := rfl
theorem Wave.putE_eq (w : Wave) (reg pos : Nat) (x : Byte) :
    w.putE reg pos x = w.putElem (.e (laneKey reg pos)) (x.setWidth 32) := by
  simp only [Wave.putE, Wave.putElem, Wave.commitElem]
  congr 1
  apply BitVec.eq_of_toNat_eq
  have := x.isLt
  simp; omega

@[simp] theorem Wave.putElems_nil (w : Wave) : w.putElems [] = w := rfl
@[simp] theorem Wave.putElems_cons (w : Wave) (x : Elem) (v : Word) (t : List (Elem × Word)) :
    w.putElems ((x, v) :: t) = (w.putElem x v).putElems t := rfl

/-- The value of an element as a write of it stores it. -/
def Elem.fits (x : Elem) (v : Word) : Word :=
  match x with
  | .e _ => v.setWidth 8 |>.setWidth 32
  | .s n => if n = 0 then 0 else v
  | .v _ => v

theorem Wave.elem_putElem (w : Wave) (x y : Elem) (v : Word) :
    (w.putElem x v).elem y = if y = x then x.fits v else w.elem y := by
  cases x with
  | v k => cases y <;> simp [Wave.putElem, Wave.kill, Wave.commitElem, Wave.storeV, Wave.elem, Elem.fits, Wave.getS]
  | e k =>
    cases y <;> simp [Wave.putElem, Wave.kill, Wave.commitElem, Wave.storeE, Wave.elem, Elem.fits, Wave.getS]
    split
    · apply BitVec.eq_of_toNat_eq; simp
    · rfl
  | s n =>
    cases y with
    | v k => simp only [Wave.putElem, Wave.kill, Wave.commitElem, Wave.storeS, Wave.elem]; split <;> simp
    | e k => simp only [Wave.putElem, Wave.kill, Wave.commitElem, Wave.storeS, Wave.elem]; split <;> simp
    | s m =>
      simp only [Wave.putElem, Wave.kill, Wave.commitElem, Wave.storeS, Wave.elem, Elem.fits, Wave.getS]
      by_cases hn : n = 0
      · subst hn; by_cases hm : m = 0 <;> simp_all
      · by_cases hm : m = 0
        · subst hm; have : ¬ Elem.s 0 = Elem.s n := by simpa using fun h => hn h.symm
          simp_all
        · simp [hn, hm]

/-- What one write leaves: the element, its poison mark, the earlier results that would overwrite it. -/
theorem Wave.putElem_rest (w : Wave) (x : Elem) (v : Word) :
    { w.putElem x v with regs := w.regs, rb := w.rb } = w ∧ (w.putElem x v).rb = w.rb.map (Entry.kill x) ∧
    (w.putElem x v).regs.m = w.regs.m ∧ (w.putElem x v).regs.gen = w.regs.gen ∧ (w.putElem x v).regs.vBusy = w.regs.vBusy ∧
    (w.putElem x v).regs.vPoison = w.regs.vPoison.filter (fun k => !decide (Elem.v k = x)) ∧
    (w.putElem x v).regs.ePoison = w.regs.ePoison.filter (fun k => !decide (Elem.e k = x)) ∧
    (w.putElem x v).regs.sPoison = w.regs.sPoison.filter (fun k => k = 0 || !decide (Elem.s k = x)) := by
  have ht : ∀ l : List Nat, l = l.filter (fun _ => true) := fun l => (List.filter_eq_self.mpr (by simp)).symm
  cases x with
  | v k => simp [Wave.putElem, Wave.kill, Wave.commitElem, Wave.storeV, ← ht]
  | e k => simp [Wave.putElem, Wave.kill, Wave.commitElem, Wave.storeE, ← ht]
  | s n =>
    by_cases hn : n = 0
    · subst hn
      simp [Wave.putElem, Wave.kill, Wave.commitElem, Wave.storeS, ← ht]
    · simp only [Wave.putElem, Wave.kill, Wave.commitElem, Wave.storeS, hn, if_false]
      refine ⟨trivial, trivial, trivial, trivial, trivial, ?_, ?_, List.filter_congr fun a _ => ?_⟩
      · exact ht _
      · exact ht _
      · clear ht; by_cases h : a = n <;> by_cases h0 : a = 0 <;> simp_all

theorem Wave.elem_zero (w : Wave) : w.elem (.s 0) = 0 := rfl

/-- Every value is one that its element can hold. -/
def fitting (xs : List (Elem × Word)) : Prop := ∀ xv ∈ xs, xv.1 = .s 0 ∨ xv.1.fits xv.2 = xv.2

/-- Writes of distinct elements leave each with its value. -/
theorem Wave.elem_putElems (y : Elem) : ∀ (xs : List (Elem × Word)) (w : Wave), (xs.map (·.1)).Nodup → fitting xs →
    (w.putElems xs).elem y = if y = .s 0 then 0 else (xs.lookup y).getD (w.elem y)
  | [], w, _, _ => by
    simp only [Wave.putElems_nil, List.lookup_nil, Option.getD_none]; split
    · subst_vars; rfl
    · rfl
  | (x, v) :: t, w, hn, hf => by
    simp only [List.map_cons, List.nodup_cons] at hn
    rw [Wave.putElems_cons, Wave.elem_putElems y t _ hn.2 (fun z hz => hf z (List.mem_cons_of_mem _ hz))]
    split
    · rfl
    · next hy =>
      rw [Wave.elem_putElem, List.lookup_cons]
      by_cases hx : y = x
      · subst hx
        have hl : t.lookup y = none := by
          rw [List.lookup_eq_none_iff]
          intro q hq
          rw [bne_iff_ne]
          exact fun h => hn.1 (h ▸ List.mem_map_of_mem hq)
        have := (hf (y, v) (by simp)).resolve_left hy
        simp [hl, this]
      · have : (y == x) = false := by simpa using hx
        simp [hx, this]

/-- What writes of elements leave of the rest of the wave. -/
theorem Wave.putElems_rest : ∀ (xs : List (Elem × Word)) (w : Wave),
    { w.putElems xs with regs := w.regs, rb := w.rb } = w ∧
    (w.putElems xs).rb = w.rb.map (fun en => { en with dests := en.dests.filter fun x => !(xs.map (·.1)).contains x }) ∧
    (w.putElems xs).regs.m = w.regs.m ∧ (w.putElems xs).regs.gen = w.regs.gen ∧
    (w.putElems xs).regs.vBusy = w.regs.vBusy ∧
    (w.putElems xs).regs.vPoison = w.regs.vPoison.filter (fun k => !(xs.map (·.1)).contains (.v k)) ∧
    (w.putElems xs).regs.ePoison = w.regs.ePoison.filter (fun k => !(xs.map (·.1)).contains (.e k)) ∧
    (w.putElems xs).regs.sPoison = w.regs.sPoison.filter (fun k => k = 0 || !(xs.map (·.1)).contains (.s k))
  | [], w => by
    have ht : ∀ l : List Nat, l.filter (fun _ => true) = l := fun l => List.filter_eq_self.mpr (by simp)
    have he : ∀ l : List Elem, l.filter (fun _ => true) = l := fun l => List.filter_eq_self.mpr (by simp)
    simp [ht, he]
  | (x, v) :: t, w => by
    obtain ⟨h1, h2, h3, h4, h5, h6, h7, h8⟩ := w.putElem_rest x v
    obtain ⟨g1, g2, g3, g4, g5, g6, g7, g8⟩ := Wave.putElems_rest t (w.putElem x v)
    rw [Wave.putElems_cons]
    refine ⟨?_, ?_, g3.trans h3, g4.trans h4, g5.trans h5, ?_, ?_, ?_⟩
    · exact (congrArg (fun z : Wave => { z with regs := w.regs, rb := w.rb }) g1).trans h1
    · rw [g2, h2, List.map_map]
      refine List.map_congr_left fun en _ => ?_
      simp only [Function.comp, Entry.kill, List.filter_filter, List.map_cons, List.contains_cons]
      congr 1
      refine List.filter_congr fun a _ => ?_
      by_cases h : a = x <;> simp [h]
    · rw [g6, h6, List.filter_filter]
      refine List.filter_congr fun a _ => ?_
      by_cases h : Elem.v a = x <;> simp [h]
    · rw [g7, h7, List.filter_filter]
      refine List.filter_congr fun a _ => ?_
      by_cases h : Elem.e a = x <;> simp [h]
    · rw [g8, h8, List.filter_filter]
      refine List.filter_congr fun a _ => ?_
      by_cases h0 : a = 0 <;> by_cases h : Elem.s a = x <;> simp [h, h0]

/-- Writes of distinct elements by an instruction that then goes to `pc`. -/
theorem shows_putElems (w : Wave) (xs : List (Elem × Word)) (pc : DWord) (hn : (xs.map (·.1)).Nodup) (hf : fitting xs) :
    Shows w ((w.putElems xs).jump pc) ⟨xs, [], [], 0, pc⟩ := by
  obtain ⟨h1, h2, h3, h4, h5, h6, h7, h8⟩ := Wave.putElems_rest xs w
  have hc : (w.putElems xs).csr = w.csr := (congrArg Wave.csr h1 :)
  refine ⟨fun y => Wave.elem_putElems y xs w hn hf, fun n => ?_, fun q => ?_, rfl, ?_, h2, h6, h7, h8, h5, ?_⟩
  · simp only [Wave.getM, Wave.jump, Wave.retire, h3, List.lookup_nil, Option.getD_none]
  · simp only [Wave.genOf, Wave.jump, Wave.retire, h4, List.lookup_nil, Option.getD_none]
  · simp [Wave.jump, Wave.retire, hc]
  · exact (congrArg (fun z : Wave => { z with csr := w.csr, pc := w.pc }) h1 :)

end Sys2Proof.Machine
end

