-- ==== Sys2Proof/Laws/Completes.lean ====
section
/-!
SUPPORT. When an instruction that goes through `issue` completes.
-/
namespace Sys2Proof.Machine

/-- An instruction whose effect is a new wave completes with the changes that the new wave shows. -/
theorem Completes.of_issue {i : Instr} {p : Bool} {I : State → Issue} {body : State → Nat → Wave → Block → Eff}
    {parks : Wave → Bool} {ops : List Opnd} {may : Wave → Prop} {c : Wave → Change}
    (he : ∀ s, exec i s = issue s p (I s) (body s)) (hp : ∀ s w, (I s).parks p w = parks w) (ho : ∀ s, (I s).opnds = ops)
    (ha : ∀ s w, may w → (I s).allowed s w = none)
    (hb : ∀ s u w b, may w → s.block w.block = some b → ∃ w', body s u w b = .done (s.setWave u w') ∧ Shows w w' (c w)) :
    Completes i parks ops may c := by
  intro s u w b h hm
  rw [← hp s w, ← ho s] at h
  have hm' := hm
  rw [← hp s w] at hm'
  have hk : s.block (w.parked ((I s).parks p w)).block = some b := by
    have : (w.parked ((I s).parks p w)).block = w.block := by
      unfold Wave.parked; split
      · exact w.commit_block
      · rfl
    rw [this]; exact h.block
  obtain ⟨w', hd, hs⟩ := hb s u _ b hm' hk
  refine ⟨w', ?_, by rw [← hp s w]; exact hs⟩
  rw [he, issue_ready h (ha s _ hm'), hd]
  rfl

/-- An instruction that takes no return-buffer entry parks under its park bit alone, or always. -/
@[simp] theorem Issue.parks_noEntry (p k : Bool) (al : State → Wave → Option Trap) (ops : List Opnd) (w : Wave) :
    Issue.parks ⟨k, noEntry, al, ops⟩ p w = (p || k) := by simp [Issue.parks, noEntry]

/-- One that takes an entry also parks where the entry lacks room. -/
@[simp] theorem Issue.parks_entry (p k : Bool) (al : State → Wave → Option Trap) (ops : List Opnd) (n : Wave → Nat) (w : Wave) :
    Issue.parks ⟨k, fun v => some (n v), al, ops⟩ p w = (p || k || w.lacksRoom (n w)) := rfl

/-- Writes of distinct elements, and on to the next word. -/
theorem shows_next (w : Wave) (xs : List (Elem × Word)) (hn : (xs.map (·.1)).Nodup) (hf : fitting xs) :
    Shows w (w.putElems xs).next (w.sets xs) := by
  have h := shows_putElems w xs (w.pc + 4) hn hf
  have hp : (w.putElems xs).pc = w.pc := (congrArg Wave.pc (Wave.putElems_rest xs w).1 :)
  have he : (w.putElems xs).next = (w.putElems xs).jump (w.pc + 4) := by
    simp only [Wave.next, Wave.jump, Wave.retire, hp]
  rw [he]; exact h

/-- An instruction that goes through `issue` and whose effect is a next state answers it. -/
theorem Answers.of_issue {i : Instr} {p : Bool} {I : State → Issue} {body : State → Nat → Wave → Block → Eff}
    {parks : Wave → Bool} {ops : List Opnd} {may : State → Nat → Wave → Block → Prop} {t : State → Nat → Wave → Block → State}
    (he : ∀ s, exec i s = issue s p (I s) (body s)) (hp : ∀ s w, (I s).parks p w = parks w) (ho : ∀ s, (I s).opnds = ops)
    (ha : ∀ s u w b, s.block w.block = some b → may s u w b → (I s).allowed s w = none)
    (hb : ∀ s u w b, s.block w.block = some b → may s u w b → ∃ t', body s u w b = .done t' ∧ t'.changed = { t s u w b with blocked := [] }) :
    Answers i parks ops may t := by
  intro s u w b h hm
  rw [← hp s w, ← ho s] at h
  rw [← hp s w] at hm
  have hk : s.block (w.parked ((I s).parks p w)).block = some b := by
    have : (w.parked ((I s).parks p w)).block = w.block := by
      unfold Wave.parked; split
      · exact w.commit_block
      · rfl
    rw [this]; exact h.block
  obtain ⟨t', hd, hs⟩ := hb s u _ b hk hm
  rw [he, issue_ready h (ha s u _ b hk hm), hd, ← hp s w]
  simp only [hs]

/-- And one whose effect is a trap raises it. -/
theorem Raises.of_issue {i : Instr} {p : Bool} {I : State → Issue} {body : State → Nat → Wave → Block → Eff}
    {parks : Wave → Bool} {ops : List Opnd} {may : State → Nat → Wave → Block → Prop} {t : State → Wave → Block → Trap}
    (he : ∀ s, exec i s = issue s p (I s) (body s)) (hp : ∀ s w, (I s).parks p w = parks w) (ho : ∀ s, (I s).opnds = ops)
    (ha : ∀ s u w b, s.block w.block = some b → may s u w b → (I s).allowed s w = none)
    (hb : ∀ s u w b, s.block w.block = some b → may s u w b → body s u w b = .trap (t s w b)) :
    Raises i parks ops may t := by
  intro s u w b h hm
  rw [← hp s w, ← ho s] at h
  rw [← hp s w] at hm
  have hk : s.block (w.parked ((I s).parks p w)).block = some b := by
    have : (w.parked ((I s).parks p w)).block = w.block := by
      unfold Wave.parked; split
      · exact w.commit_block
      · rfl
    rw [this]; exact h.block
  rw [he, issue_ready h (ha s u _ b hk hm), hb s u _ b hk hm, ← hp s w]

end Sys2Proof.Machine
end

