-- ==== Sys2Proof/Laws/Memory.lean ====
section
/-!
SUPPORT. Laws of physical memory: reads after writes, what a write leaves alone, and the canonical form, which every
operation that writes memory keeps.
-/
namespace Sys2Proof.Machine

/-! ## One byte -/

theorem Memory.byte_setByte (m : List Host.Cell) (a b : Nat) (x : Byte) :
    Memory.byte (Memory.setByte m a x) b = if b % 2 ^ 52 = a % 2 ^ 52 then x else Memory.byte m b := by
  unfold Memory.byte Memory.setByte; exact SMap.get_put ..

theorem Memory.wf_setByte {m : List Host.Cell} (a : Nat) (x : Byte) (h : Memory.wf m = true) :
    Memory.wf (Memory.setByte m a x) = true := by
  simp only [Memory.wf, Bool.and_eq_true, List.all_eq_true, decide_eq_true_eq] at h ⊢
  refine ⟨SMap.wf_put _ _ h.1, fun c hc => ?_⟩
  unfold Memory.setByte SMap.put at hc
  split at hc
  · exact h.2 c (SMap.mem_del hc)
  · rcases SMap.mem_ins hc with rfl | hc
    · exact Nat.mod_lt _ (by decide)
    · exact h.2 c hc

/-! ## A run of bytes -/

theorem Memory.wf_write : ∀ (l : List Byte) (m : List Host.Cell) (a : Nat), Memory.wf m = true →
    Memory.wf (Memory.write m a l) = true
  | [], _, _, h => h
  | x :: t, m, a, h => Memory.wf_write t (Memory.setByte m a x) (a + 1) (Memory.wf_setByte a x h)

/-- A write leaves every byte outside it as it was. -/
theorem Memory.byte_write_of_lt : ∀ (l : List Byte) (m : List Host.Cell) (a b : Nat), b < a → a + l.length ≤ 2 ^ 52 →
    Memory.byte (Memory.write m a l) b = Memory.byte m b
  | [], _, _, _, _, _ => rfl
  | x :: t, m, a, b, hb, hl => by
    simp only [List.length_cons] at hl
    rw [Memory.write, Memory.byte_write_of_lt t _ _ _ (by omega) (by omega), Memory.byte_setByte, if_neg]
    rw [Nat.mod_eq_of_lt (by omega), Nat.mod_eq_of_lt (by omega)]; omega

theorem Memory.byte_write_of_ge : ∀ (l : List Byte) (m : List Host.Cell) (a b : Nat), a + l.length ≤ b → b < 2 ^ 52 →
    Memory.byte (Memory.write m a l) b = Memory.byte m b
  | [], _, _, _, _, _ => rfl
  | x :: t, m, a, b, hb, hl => by
    simp only [List.length_cons] at hb
    rw [Memory.write, Memory.byte_write_of_ge t _ _ _ (by omega) hl, Memory.byte_setByte, if_neg]
    rw [Nat.mod_eq_of_lt hl, Nat.mod_eq_of_lt (by omega)]; omega

/-- A read after a write gives what was written. -/
theorem Memory.byte_write : ∀ (l : List Byte) (m : List Host.Cell) (a i : Nat) (h : i < l.length), a + l.length ≤ 2 ^ 52 →
    Memory.byte (Memory.write m a l) (a + i) = l[i]
  | x :: t, m, a, 0, h, hl => by
    simp only [List.length_cons] at hl
    rw [Memory.write, Memory.byte_write_of_lt t _ _ _ (by omega) (by omega), Nat.add_zero, Memory.byte_setByte, if_pos rfl]
    rfl
  | x :: t, m, a, i + 1, h, hl => by
    simp only [List.length_cons] at hl h
    rw [Memory.write, show a + (i + 1) = a + 1 + i by omega, Memory.byte_write t _ _ i (by omega) (by omega)]
    rfl

/-! ## The machine's memory -/

@[simp] theorem State.post_mem (s : State) (die : Nat) (w : Bool) (n : Option Nat) (es : List Event) :
    (s.post die w n es).mem = s.mem := by
  simp only [State.post, State.enqueue]
  split
  · split <;> rfl
  · split <;> rfl

/-- What every step of a fold keeps, the fold keeps. -/
theorem foldl_keeps {α β : Type} {P : β → Prop} {f : β → α → β} (h : ∀ b a, P b → P (f b a)) :
    ∀ (l : List α) (b : β), P b → P (l.foldl f b)
  | [], _, hb => hb
  | a :: l, b, hb => foldl_keeps h l (f b a) (h b a hb)

/-- The one operation that writes memory writes just its bytes. -/
theorem State.writeBytes_mem (s : State) (die a : Nat) (l : List Byte) (mark : Bool) :
    (s.writeBytes die a l mark).mem = Memory.write s.mem a l := by
  refine foldl_keeps (P := fun st : State => st.mem = Memory.write s.mem a l) (fun st g h => ?_) _ _ rfl
  split
  · exact h
  · split
    · exact h
    · split
      · rw [State.post_mem]; exact h
      · exact h

theorem State.writeBytes_canonical {s : State} (die a : Nat) (l : List Byte) (mark : Bool) (h : s.Canonical) :
    (s.writeBytes die a l mark).Canonical := by
  unfold State.Canonical; rw [State.writeBytes_mem]; exact Memory.wf_write _ _ _ h

/-- An engine's write of the bytes it has. -/
theorem State.writeSome_canonical {s : State} (die a : Nat) (l : List EByte) (h : s.Canonical) :
    (s.writeSome die a l).Canonical := by
  refine foldl_keeps (P := State.Canonical) (fun st k h => ?_) _ _ h
  dsimp only
  split
  · exact State.writeBytes_canonical _ _ _ _ h
  · refine foldl_keeps (P := State.Canonical) (fun st k h => ?_) _ _ h
    split
    · exact State.writeBytes_canonical _ _ _ _ h
    · exact h

/-- Memory has the canonical form right after reset. -/
theorem State.reset_canonical : State.reset.Canonical := by decide

end Sys2Proof.Machine
end

