-- ==== Sys2Proof/Laws/PerInstr.lean ====
section
/-!
SUPPORT. What holds of every instruction as syntax, one lemma for each constructor of `Instr`.
-/
namespace Sys2Proof.Laws

/-- The number of the check that fails is one of the list. -/
theorem firstFail_mem {l : List (Nat × Bool)} {n : Nat} (h : firstFail l = some n) : n ∈ l.map (·.1) := by
  unfold firstFail at h
  cases hf : l.find? (fun c => !c.2) with
  | none => rw [hf] at h; cases h
  | some c =>
    rw [hf] at h; cases h
    exact List.mem_map_of_mem (List.mem_of_find?_eq_some hf)

theorem firstFail_number {l : List (Nat × Bool)} {n : Nat} (hl : ∀ c ∈ l.map (·.1), c ∈ [1, 2, 3]) (h : firstFail l = some n) :
    n ∈ [1, 2, 3] := hl n (firstFail_mem h)

/-! ## The number of the check that a decoded instruction fails is 1, 2 or 3 (03 R91) -/

def CheckNumber.Statement (i : Instr) : Prop := ∀ n, WellFormed.check i = some n → n ∈ [1, 2, 3]

/-- An instruction that no check concerns. -/
theorem CheckNumber.of_none {i : Instr} (h : WellFormed.check i = none) : CheckNumber.Statement i :=
  fun n hn => by rw [h] at hn; cases hn

/-- An instruction that meets or fails a list of checks. -/
theorem CheckNumber.of_list {i : Instr} (l : List (Nat × Bool)) (h : WellFormed.check i = firstFail l)
    (hl : ∀ c ∈ l.map (·.1), c ∈ [1, 2, 3]) : CheckNumber.Statement i :=
  fun n hn => firstFail_number hl (by rw [← h]; exact hn)

theorem CheckNumber.nop (p : Bool) : Statement (.nop p) := of_none rfl
theorem CheckNumber.trap (p : Bool) (c : BitVec 14) : Statement (.trap p c) := of_none rfl
theorem CheckNumber.eret (p : Bool) (a : BitVec 7) : Statement (.eret p a) := of_list _ rfl (by simp)
theorem CheckNumber.bkpt (p : Bool) : Statement (.bkpt p) := of_none rfl
theorem CheckNumber.csrr (p : Bool) (d : BitVec 7) (i : BitVec 14) : Statement (.csrr p d i) := of_none rfl
theorem CheckNumber.csrw (p : Bool) (d : BitVec 7) (i : BitVec 14) : Statement (.csrw p d i) := of_none rfl
theorem CheckNumber.csrs (p : Bool) (d : BitVec 7) (i : BitVec 14) : Statement (.csrs p d i) := of_none rfl
theorem CheckNumber.csrc (p : Bool) (d : BitVec 7) (i : BitVec 14) : Statement (.csrc p d i) := of_none rfl
theorem CheckNumber.sleep (p : Bool) (a : BitVec 7) : Statement (.sleep p a) := of_none rfl
theorem CheckNumber.sleepWake (unit : Nat) : Statement (.sleepWake unit) := of_none rfl
theorem CheckNumber.evt (p : Bool) (a b : BitVec 7) : Statement (.evt p a b) := of_none rfl
theorem CheckNumber.spawn (p : Bool) (a : BitVec 7) : Statement (.spawn p a) := of_list _ rfl (by simp)
theorem CheckNumber.join (p : Bool) (a b : BitVec 7) : Statement (.join p a b) := of_list _ rfl (by simp)
theorem CheckNumber.cancel (p : Bool) (a b : BitVec 7) : Statement (.cancel p a b) := of_list _ rfl (by simp)
theorem CheckNumber.rinkq (p : Bool) (d a b : BitVec 7) : Statement (.rinkq p d a b) := of_none rfl
theorem CheckNumber.vdie (p : Bool) (d a : BitVec 7) : Statement (.vdie p d a) := of_list _ rfl (by simp)
theorem CheckNumber.hops (p : Bool) (d a b : BitVec 7) : Statement (.hops p d a b) := of_none rfl
theorem CheckNumber.sadd (p : Bool) (d a b : BitVec 7) : Statement (.sadd p d a b) := of_none rfl
theorem CheckNumber.ssub (p : Bool) (d a b : BitVec 7) : Statement (.ssub p d a b) := of_none rfl
theorem CheckNumber.smul (p : Bool) (d a b : BitVec 7) : Statement (.smul p d a b) := of_none rfl
theorem CheckNumber.smulhs (p : Bool) (d a b : BitVec 7) : Statement (.smulhs p d a b) := of_none rfl
theorem CheckNumber.smulhn (p : Bool) (d a b : BitVec 7) : Statement (.smulhn p d a b) := of_none rfl
theorem CheckNumber.sadd64 (p : Bool) (d a b : BitVec 7) : Statement (.sadd64 p d a b) := of_list _ rfl (by simp)
theorem CheckNumber.ssub64 (p : Bool) (d a b : BitVec 7) : Statement (.ssub64 p d a b) := of_list _ rfl (by simp)
theorem CheckNumber.sand (p : Bool) (d a b : BitVec 7) : Statement (.sand p d a b) := of_none rfl
theorem CheckNumber.sor (p : Bool) (d a b : BitVec 7) : Statement (.sor p d a b) := of_none rfl
theorem CheckNumber.sxor (p : Bool) (d a b : BitVec 7) : Statement (.sxor p d a b) := of_none rfl
theorem CheckNumber.sshl (p : Bool) (d a b : BitVec 7) : Statement (.sshl p d a b) := of_none rfl
theorem CheckNumber.sshr (p : Bool) (d a b : BitVec 7) : Statement (.sshr p d a b) := of_none rfl
theorem CheckNumber.ssra (p : Bool) (d a b : BitVec 7) : Statement (.ssra p d a b) := of_none rfl
theorem CheckNumber.smins (p : Bool) (d a b : BitVec 7) : Statement (.smins p d a b) := of_none rfl
theorem CheckNumber.smaxs (p : Bool) (d a b : BitVec 7) : Statement (.smaxs p d a b) := of_none rfl
theorem CheckNumber.sslts (p : Bool) (d a b : BitVec 7) : Statement (.sslts p d a b) := of_none rfl
theorem CheckNumber.ssltn (p : Bool) (d a b : BitVec 7) : Statement (.ssltn p d a b) := of_none rfl
theorem CheckNumber.sseq (p : Bool) (d a b : BitVec 7) : Statement (.sseq p d a b) := of_none rfl
theorem CheckNumber.ssne (p : Bool) (d a b : BitVec 7) : Statement (.ssne p d a b) := of_none rfl
theorem CheckNumber.sclz (p : Bool) (d a : BitVec 7) : Statement (.sclz p d a) := of_none rfl
theorem CheckNumber.spopc (p : Bool) (d a : BitVec 7) : Statement (.spopc p d a) := of_none rfl
theorem CheckNumber.sbfe (p : Bool) (d a b : BitVec 7) : Statement (.sbfe p d a b) := of_none rfl
theorem CheckNumber.sbins (p : Bool) (d a b : BitVec 7) : Statement (.sbins p d a b) := of_none rfl
theorem CheckNumber.sdivn (p : Bool) (d a b : BitVec 7) : Statement (.sdivn p d a b) := of_none rfl
theorem CheckNumber.sremn (p : Bool) (d a b : BitVec 7) : Statement (.sremn p d a b) := of_none rfl
theorem CheckNumber.ssel (p : Bool) (d a b : BitVec 7) : Statement (.ssel p d a b) := of_none rfl
theorem CheckNumber.saddi (p : Bool) (d a : BitVec 7) (i : BitVec 9) : Statement (.saddi p d a i) := of_none rfl
theorem CheckNumber.sandi (p : Bool) (d a : BitVec 7) (i : BitVec 9) : Statement (.sandi p d a i) := of_none rfl
theorem CheckNumber.sori (p : Bool) (d a : BitVec 7) (i : BitVec 9) : Statement (.sori p d a i) := of_none rfl
theorem CheckNumber.sxori (p : Bool) (d a : BitVec 7) (i : BitVec 9) : Statement (.sxori p d a i) := of_none rfl
theorem CheckNumber.sshli (p : Bool) (d a : BitVec 7) (i : BitVec 5) : Statement (.sshli p d a i) := of_none rfl
theorem CheckNumber.sshri (p : Bool) (d a : BitVec 7) (i : BitVec 5) : Statement (.sshri p d a i) := of_none rfl
theorem CheckNumber.ssrai (p : Bool) (d a : BitVec 7) (i : BitVec 5) : Statement (.ssrai p d a i) := of_none rfl
theorem CheckNumber.sslti (p : Bool) (d a : BitVec 7) (i : BitVec 9) : Statement (.sslti p d a i) := of_none rfl
theorem CheckNumber.sli (p : Bool) (d : BitVec 7) (i : BitVec 19) : Statement (.sli p d i) := of_none rfl
theorem CheckNumber.shi (p : Bool) (d : BitVec 7) (i : BitVec 19) : Statement (.shi p d i) := of_none rfl
theorem CheckNumber.bra (p : Bool) (o : BitVec 18) : Statement (.bra p o) := of_none rfl
theorem CheckNumber.brany (p : Bool) (k : BitVec 4) (o : BitVec 18) : Statement (.brany p k o) := of_none rfl
theorem CheckNumber.brall (p : Bool) (k : BitVec 4) (o : BitVec 18) : Statement (.brall p k o) := of_none rfl
theorem CheckNumber.brnone (p : Bool) (k : BitVec 4) (o : BitVec 18) : Statement (.brnone p k o) := of_none rfl
theorem CheckNumber.call (p : Bool) (o : BitVec 18) : Statement (.call p o) := of_none rfl
theorem CheckNumber.beqz (p : Bool) (s : BitVec 7) (o : BitVec 16) : Statement (.beqz p s o) := of_none rfl
theorem CheckNumber.bnez (p : Bool) (s : BitVec 7) (o : BitVec 16) : Statement (.bnez p s o) := of_none rfl
theorem CheckNumber.bltz (p : Bool) (s : BitVec 7) (o : BitVec 16) : Statement (.bltz p s o) := of_none rfl
theorem CheckNumber.bgez (p : Bool) (s : BitVec 7) (o : BitVec 16) : Statement (.bgez p s o) := of_none rfl
theorem CheckNumber.bgtz (p : Bool) (s : BitVec 7) (o : BitVec 16) : Statement (.bgtz p s o) := of_none rfl
theorem CheckNumber.blez (p : Bool) (s : BitVec 7) (o : BitVec 16) : Statement (.blez p s o) := of_none rfl
theorem CheckNumber.jr (p : Bool) (a : BitVec 7) : Statement (.jr p a) := of_list _ rfl (by simp)
theorem CheckNumber.jalr (p : Bool) (d a : BitVec 7) : Statement (.jalr p d a) := of_list _ rfl (by simp)
theorem CheckNumber.mbr (p : Bool) (t : BitVec 7) (m : BitVec 4) (n : BitVec 2) (o : BitVec 13) : Statement (.mbr p t m n o) :=
  of_list _ rfl (by simp)
theorem CheckNumber.wfuse (p : Bool) (b : BitVec 7) : Statement (.wfuse p b) := of_list _ rfl (by simp)
theorem CheckNumber.wsplit (p : Bool) (b : BitVec 7) : Statement (.wsplit p b) := of_list _ rfl (by simp)
theorem CheckNumber.wbase (p : Bool) (n : BitVec 5) : Statement (.wbase p n) := of_none rfl
theorem CheckNumber.yield (p : Bool) : Statement (.yield p) := of_none rfl
theorem CheckNumber.wexit (p : Bool) : Statement (.wexit p) := of_none rfl
theorem CheckNumber.bars (p : Bool) (a b : BitVec 7) : Statement (.bars p a b) := of_list _ rfl (by simp)
theorem CheckNumber.bara (p : Bool) (a b : BitVec 7) : Statement (.bara p a b) := of_list _ rfl (by simp)
theorem CheckNumber.barw (p : Bool) (d a b : BitVec 7) : Statement (.barw p d a b) := of_list _ rfl (by simp)
theorem CheckNumber.barwTimeout (unit : Nat) : Statement (.barwTimeout unit) := of_none rfl
theorem CheckNumber.cbara (p : Bool) (a : BitVec 7) : Statement (.cbara p a) := of_none rfl
theorem CheckNumber.cbarw (p : Bool) (d a : BitVec 7) : Statement (.cbarw p d a) := of_none rfl
theorem CheckNumber.cbarwTimeout (unit : Nat) : Statement (.cbarwTimeout unit) := of_none rfl
theorem CheckNumber.bjoin (p : Bool) : Statement (.bjoin p) := of_none rfl
theorem CheckNumber.dqpush (p : Bool) (a : BitVec 7) : Statement (.dqpush p a) := of_none rfl
theorem CheckNumber.dqpop (p : Bool) (d : BitVec 7) : Statement (.dqpop p d) := of_none rfl
theorem CheckNumber.vadd (p : Bool) (d a b : BitVec 7) : Statement (.vadd p d a b) := of_none rfl
theorem CheckNumber.vsub (p : Bool) (d a b : BitVec 7) : Statement (.vsub p d a b) := of_none rfl
theorem CheckNumber.vmul (p : Bool) (d a b : BitVec 7) : Statement (.vmul p d a b) := of_none rfl
theorem CheckNumber.vmulhs (p : Bool) (d a b : BitVec 7) : Statement (.vmulhs p d a b) := of_none rfl
theorem CheckNumber.vmad (p : Bool) (d a b : BitVec 7) : Statement (.vmad p d a b) := of_none rfl
theorem CheckNumber.vadd64 (p : Bool) (d a b : BitVec 7) : Statement (.vadd64 p d a b) := of_list _ rfl (by simp)
theorem CheckNumber.vsub64 (p : Bool) (d a b : BitVec 7) : Statement (.vsub64 p d a b) := of_list _ rfl (by simp)
theorem CheckNumber.vand (p : Bool) (d a b : BitVec 7) : Statement (.vand p d a b) := of_none rfl
theorem CheckNumber.vor (p : Bool) (d a b : BitVec 7) : Statement (.vor p d a b) := of_none rfl
theorem CheckNumber.vxor (p : Bool) (d a b : BitVec 7) : Statement (.vxor p d a b) := of_none rfl
theorem CheckNumber.vandn (p : Bool) (d a b : BitVec 7) : Statement (.vandn p d a b) := of_none rfl
theorem CheckNumber.vshl (p : Bool) (d a b : BitVec 7) : Statement (.vshl p d a b) := of_none rfl
theorem CheckNumber.vshr (p : Bool) (d a b : BitVec 7) : Statement (.vshr p d a b) := of_none rfl
theorem CheckNumber.vsra (p : Bool) (d a b : BitVec 7) : Statement (.vsra p d a b) := of_none rfl
theorem CheckNumber.vmins (p : Bool) (d a b : BitVec 7) : Statement (.vmins p d a b) := of_none rfl
theorem CheckNumber.vmaxs (p : Bool) (d a b : BitVec 7) : Statement (.vmaxs p d a b) := of_none rfl
theorem CheckNumber.vminn (p : Bool) (d a b : BitVec 7) : Statement (.vminn p d a b) := of_none rfl
theorem CheckNumber.vmaxn (p : Bool) (d a b : BitVec 7) : Statement (.vmaxn p d a b) := of_none rfl
theorem CheckNumber.vaddss (p : Bool) (d a b : BitVec 7) : Statement (.vaddss p d a b) := of_none rfl
theorem CheckNumber.vsubss (p : Bool) (d a b : BitVec 7) : Statement (.vsubss p d a b) := of_none rfl
theorem CheckNumber.vclz (p : Bool) (d a : BitVec 7) : Statement (.vclz p d a) := of_none rfl
theorem CheckNumber.vpopc (p : Bool) (d a : BitVec 7) : Statement (.vpopc p d a) := of_none rfl
theorem CheckNumber.vbfe (p : Bool) (d a b : BitVec 7) : Statement (.vbfe p d a b) := of_none rfl
theorem CheckNumber.vbins (p : Bool) (d a b : BitVec 7) : Statement (.vbins p d a b) := of_none rfl
theorem CheckNumber.vmov (p : Bool) (d a : BitVec 7) : Statement (.vmov p d a) := of_none rfl
theorem CheckNumber.vlaneid (p : Bool) (d : BitVec 7) : Statement (.vlaneid p d) := of_none rfl
theorem CheckNumber.vaddScalar (p : Bool) (d a b : BitVec 7) : Statement (.vaddScalar p d a b) := of_none rfl
theorem CheckNumber.vsubScalar (p : Bool) (d a b : BitVec 7) : Statement (.vsubScalar p d a b) := of_none rfl
theorem CheckNumber.vmulScalar (p : Bool) (d a b : BitVec 7) : Statement (.vmulScalar p d a b) := of_none rfl
theorem CheckNumber.vmulhsScalar (p : Bool) (d a b : BitVec 7) : Statement (.vmulhsScalar p d a b) := of_none rfl
theorem CheckNumber.vmadScalar (p : Bool) (d a b : BitVec 7) : Statement (.vmadScalar p d a b) := of_none rfl
theorem CheckNumber.vadd64Scalar (p : Bool) (d a b : BitVec 7) : Statement (.vadd64Scalar p d a b) := of_list _ rfl (by simp)
theorem CheckNumber.vsub64Scalar (p : Bool) (d a b : BitVec 7) : Statement (.vsub64Scalar p d a b) := of_list _ rfl (by simp)
theorem CheckNumber.vandScalar (p : Bool) (d a b : BitVec 7) : Statement (.vandScalar p d a b) := of_none rfl
theorem CheckNumber.vorScalar (p : Bool) (d a b : BitVec 7) : Statement (.vorScalar p d a b) := of_none rfl
theorem CheckNumber.vxorScalar (p : Bool) (d a b : BitVec 7) : Statement (.vxorScalar p d a b) := of_none rfl
theorem CheckNumber.vandnScalar (p : Bool) (d a b : BitVec 7) : Statement (.vandnScalar p d a b) := of_none rfl
theorem CheckNumber.vshlScalar (p : Bool) (d a b : BitVec 7) : Statement (.vshlScalar p d a b) := of_none rfl
theorem CheckNumber.vshrScalar (p : Bool) (d a b : BitVec 7) : Statement (.vshrScalar p d a b) := of_none rfl
theorem CheckNumber.vsraScalar (p : Bool) (d a b : BitVec 7) : Statement (.vsraScalar p d a b) := of_none rfl
theorem CheckNumber.vminsScalar (p : Bool) (d a b : BitVec 7) : Statement (.vminsScalar p d a b) := of_none rfl
theorem CheckNumber.vmaxsScalar (p : Bool) (d a b : BitVec 7) : Statement (.vmaxsScalar p d a b) := of_none rfl
theorem CheckNumber.vminnScalar (p : Bool) (d a b : BitVec 7) : Statement (.vminnScalar p d a b) := of_none rfl
theorem CheckNumber.vmaxnScalar (p : Bool) (d a b : BitVec 7) : Statement (.vmaxnScalar p d a b) := of_none rfl
theorem CheckNumber.vaddssScalar (p : Bool) (d a b : BitVec 7) : Statement (.vaddssScalar p d a b) := of_none rfl
theorem CheckNumber.vsubssScalar (p : Bool) (d a b : BitVec 7) : Statement (.vsubssScalar p d a b) := of_none rfl
theorem CheckNumber.vbfeScalar (p : Bool) (d a b : BitVec 7) : Statement (.vbfeScalar p d a b) := of_none rfl
theorem CheckNumber.vbinsScalar (p : Bool) (d a b : BitVec 7) : Statement (.vbinsScalar p d a b) := of_none rfl
theorem CheckNumber.vmovScalar (p : Bool) (d b : BitVec 7) : Statement (.vmovScalar p d b) := of_none rfl
theorem CheckNumber.vfaddF32 (p : Bool) (d a b : BitVec 7) (r : Rounding) : Statement (.vfaddF32 p d a b r) := of_none rfl
theorem CheckNumber.vfsubF32 (p : Bool) (d a b : BitVec 7) (r : Rounding) : Statement (.vfsubF32 p d a b r) := of_none rfl
theorem CheckNumber.vfmulF32 (p : Bool) (d a b : BitVec 7) (r : Rounding) : Statement (.vfmulF32 p d a b r) := of_none rfl
theorem CheckNumber.vffmaF32 (p : Bool) (d a b : BitVec 7) (r : Rounding) : Statement (.vffmaF32 p d a b r) := of_none rfl
theorem CheckNumber.vfaddF64 (p : Bool) (d a b : BitVec 7) (r : Rounding) : Statement (.vfaddF64 p d a b r) :=
  of_list _ rfl (by simp)
theorem CheckNumber.vfsubF64 (p : Bool) (d a b : BitVec 7) (r : Rounding) : Statement (.vfsubF64 p d a b r) :=
  of_list _ rfl (by simp)
theorem CheckNumber.vfmulF64 (p : Bool) (d a b : BitVec 7) (r : Rounding) : Statement (.vfmulF64 p d a b r) :=
  of_list _ rfl (by simp)
theorem CheckNumber.vffmaF64 (p : Bool) (d a b : BitVec 7) (r : Rounding) : Statement (.vffmaF64 p d a b r) :=
  of_list _ rfl (by simp)
theorem CheckNumber.vfaddF16 (p : Bool) (d a b : BitVec 7) (r : Rounding) : Statement (.vfaddF16 p d a b r) := of_none rfl
theorem CheckNumber.vfsubF16 (p : Bool) (d a b : BitVec 7) (r : Rounding) : Statement (.vfsubF16 p d a b r) := of_none rfl
theorem CheckNumber.vfmulF16 (p : Bool) (d a b : BitVec 7) (r : Rounding) : Statement (.vfmulF16 p d a b r) := of_none rfl
theorem CheckNumber.vffmaF16 (p : Bool) (d a b : BitVec 7) (r : Rounding) : Statement (.vffmaF16 p d a b r) := of_none rfl
theorem CheckNumber.vfaddBf16 (p : Bool) (d a b : BitVec 7) (r : Rounding) : Statement (.vfaddBf16 p d a b r) := of_none rfl
theorem CheckNumber.vfsubBf16 (p : Bool) (d a b : BitVec 7) (r : Rounding) : Statement (.vfsubBf16 p d a b r) := of_none rfl
theorem CheckNumber.vfmulBf16 (p : Bool) (d a b : BitVec 7) (r : Rounding) : Statement (.vfmulBf16 p d a b r) := of_none rfl
theorem CheckNumber.vffmaBf16 (p : Bool) (d a b : BitVec 7) (r : Rounding) : Statement (.vffmaBf16 p d a b r) := of_none rfl
theorem CheckNumber.vfminF32 (p : Bool) (d a b : BitVec 7) : Statement (.vfminF32 p d a b) := of_none rfl
theorem CheckNumber.vfmaxF32 (p : Bool) (d a b : BitVec 7) : Statement (.vfmaxF32 p d a b) := of_none rfl
theorem CheckNumber.vfminF64 (p : Bool) (d a b : BitVec 7) : Statement (.vfminF64 p d a b) := of_list _ rfl (by simp)
theorem CheckNumber.vfmaxF64 (p : Bool) (d a b : BitVec 7) : Statement (.vfmaxF64 p d a b) := of_list _ rfl (by simp)
theorem CheckNumber.vfabsF32 (p : Bool) (d a : BitVec 7) : Statement (.vfabsF32 p d a) := of_none rfl
theorem CheckNumber.vfnegF32 (p : Bool) (d a : BitVec 7) : Statement (.vfnegF32 p d a) := of_none rfl
theorem CheckNumber.vfabsF64 (p : Bool) (d a : BitVec 7) : Statement (.vfabsF64 p d a) := of_list _ rfl (by simp)
theorem CheckNumber.vfnegF64 (p : Bool) (d a : BitVec 7) : Statement (.vfnegF64 p d a) := of_list _ rfl (by simp)
theorem CheckNumber.vfclassF32 (p : Bool) (d a : BitVec 7) : Statement (.vfclassF32 p d a) := of_none rfl
theorem CheckNumber.vfclassF64 (p : Bool) (d a : BitVec 7) : Statement (.vfclassF64 p d a) := of_list _ rfl (by simp)
theorem CheckNumber.vfsclF32 (p : Bool) (d a b : BitVec 7) : Statement (.vfsclF32 p d a b) := of_none rfl
theorem CheckNumber.vfsclF64 (p : Bool) (d a b : BitVec 7) : Statement (.vfsclF64 p d a b) := of_list _ rfl (by simp)
theorem CheckNumber.vfgexF32 (p : Bool) (d a : BitVec 7) : Statement (.vfgexF32 p d a) := of_none rfl
theorem CheckNumber.vfgexF64 (p : Bool) (d a : BitVec 7) : Statement (.vfgexF64 p d a) := of_list _ rfl (by simp)
theorem CheckNumber.vcvtF64F32 (p : Bool) (d a : BitVec 7) : Statement (.vcvtF64F32 p d a) := of_list _ rfl (by simp)
theorem CheckNumber.vcvtF32F64 (p : Bool) (d a : BitVec 7) (s : Bool) (r : Rounding) : Statement (.vcvtF32F64 p d a s r) :=
  of_list _ rfl (by simp)
theorem CheckNumber.vcvtF16F32 (p : Bool) (d a : BitVec 7) (s : Bool) (r : Rounding) : Statement (.vcvtF16F32 p d a s r) :=
  of_none rfl
theorem CheckNumber.vcvtF32F16 (p : Bool) (d a : BitVec 7) : Statement (.vcvtF32F16 p d a) := of_none rfl
theorem CheckNumber.vcvtBf16F32 (p : Bool) (d a : BitVec 7) (s : Bool) (r : Rounding) : Statement (.vcvtBf16F32 p d a s r) :=
  of_none rfl
theorem CheckNumber.vcvtF32Bf16 (p : Bool) (d a : BitVec 7) : Statement (.vcvtF32Bf16 p d a) := of_none rfl
theorem CheckNumber.vcvtS32F32 (p : Bool) (d a : BitVec 7) (s : Bool) (r : Rounding) : Statement (.vcvtS32F32 p d a s r) :=
  of_none rfl
theorem CheckNumber.vcvtF32S32 (p : Bool) (d a : BitVec 7) (s : Bool) (r : Rounding) : Statement (.vcvtF32S32 p d a s r) :=
  of_none rfl
theorem CheckNumber.vcvtN32F32 (p : Bool) (d a : BitVec 7) (s : Bool) (r : Rounding) : Statement (.vcvtN32F32 p d a s r) :=
  of_none rfl
theorem CheckNumber.vcvtF32N32 (p : Bool) (d a : BitVec 7) (s : Bool) (r : Rounding) : Statement (.vcvtF32N32 p d a s r) :=
  of_none rfl
theorem CheckNumber.vcvtS32F64 (p : Bool) (d a : BitVec 7) (s : Bool) (r : Rounding) : Statement (.vcvtS32F64 p d a s r) :=
  of_list _ rfl (by simp)
theorem CheckNumber.vcvtF64S32 (p : Bool) (d a : BitVec 7) : Statement (.vcvtF64S32 p d a) := of_list _ rfl (by simp)
theorem CheckNumber.vcvtS64F64 (p : Bool) (d a : BitVec 7) (s : Bool) (r : Rounding) : Statement (.vcvtS64F64 p d a s r) :=
  of_list _ rfl (by simp)
theorem CheckNumber.vcvtF64S64 (p : Bool) (d a : BitVec 7) (s : Bool) (r : Rounding) : Statement (.vcvtF64S64 p d a s r) :=
  of_list _ rfl (by simp)
theorem CheckNumber.vcvtE4m3F32 (p : Bool) (d a : BitVec 7) (s : Bool) (r : Rounding) : Statement (.vcvtE4m3F32 p d a s r) :=
  of_none rfl
theorem CheckNumber.vcvtF32E4m3 (p : Bool) (d a : BitVec 7) : Statement (.vcvtF32E4m3 p d a) := of_none rfl
theorem CheckNumber.vcvtE5m2F32 (p : Bool) (d a : BitVec 7) (s : Bool) (r : Rounding) : Statement (.vcvtE5m2F32 p d a s r) :=
  of_none rfl
theorem CheckNumber.vcvtF32E5m2 (p : Bool) (d a : BitVec 7) : Statement (.vcvtF32E5m2 p d a) := of_none rfl
theorem CheckNumber.vcvtF32E2m1 (p : Bool) (d a : BitVec 7) : Statement (.vcvtF32E2m1 p d a) := of_none rfl
theorem CheckNumber.vcvtF32E2m3 (p : Bool) (d a : BitVec 7) : Statement (.vcvtF32E2m3 p d a) := of_none rfl
theorem CheckNumber.vcvtF32E3m2 (p : Bool) (d a : BitVec 7) : Statement (.vcvtF32E3m2 p d a) := of_none rfl
theorem CheckNumber.vrcpF32 (p : Bool) (d a : BitVec 7) : Statement (.vrcpF32 p d a) := of_none rfl
theorem CheckNumber.vrsqF32 (p : Bool) (d a : BitVec 7) : Statement (.vrsqF32 p d a) := of_none rfl
theorem CheckNumber.vsqrtF32 (p : Bool) (d a : BitVec 7) (r : Rounding) : Statement (.vsqrtF32 p d a r) := of_none rfl
theorem CheckNumber.vexp2F32 (p : Bool) (d a : BitVec 7) : Statement (.vexp2F32 p d a) := of_none rfl
theorem CheckNumber.vlog2F32 (p : Bool) (d a : BitVec 7) : Statement (.vlog2F32 p d a) := of_none rfl
theorem CheckNumber.vsinF32 (p : Bool) (d a : BitVec 7) : Statement (.vsinF32 p d a) := of_none rfl
theorem CheckNumber.vcosF32 (p : Bool) (d a : BitVec 7) : Statement (.vcosF32 p d a) := of_none rfl
theorem CheckNumber.vtanhF32 (p : Bool) (d a : BitVec 7) : Statement (.vtanhF32 p d a) := of_none rfl
theorem CheckNumber.vdivF32 (p : Bool) (d a : BitVec 7) (r : Rounding) : Statement (.vdivF32 p d a r) := of_none rfl
theorem CheckNumber.vrcpF64 (p : Bool) (d a : BitVec 7) : Statement (.vrcpF64 p d a) := of_list _ rfl (by simp)
theorem CheckNumber.vrsqF64 (p : Bool) (d a : BitVec 7) : Statement (.vrsqF64 p d a) := of_list _ rfl (by simp)
theorem CheckNumber.vsqrtF64 (p : Bool) (d a : BitVec 7) (r : Rounding) : Statement (.vsqrtF64 p d a r) :=
  of_list _ rfl (by simp)
theorem CheckNumber.vexp2F64 (p : Bool) (d a : BitVec 7) : Statement (.vexp2F64 p d a) := of_list _ rfl (by simp)
theorem CheckNumber.vlog2F64 (p : Bool) (d a : BitVec 7) : Statement (.vlog2F64 p d a) := of_list _ rfl (by simp)
theorem CheckNumber.vsinF64 (p : Bool) (d a : BitVec 7) : Statement (.vsinF64 p d a) := of_list _ rfl (by simp)
theorem CheckNumber.vcosF64 (p : Bool) (d a : BitVec 7) : Statement (.vcosF64 p d a) := of_list _ rfl (by simp)
theorem CheckNumber.vdivF64 (p : Bool) (d a : BitVec 7) (r : Rounding) : Statement (.vdivF64 p d a r) :=
  of_list _ rfl (by simp)
theorem CheckNumber.vcmpF32 (p : Bool) (d a b : BitVec 7) (c : Cond) : Statement (.vcmpF32 p d a b c) :=
  of_list _ rfl (by simp)
theorem CheckNumber.vcmpF64 (p : Bool) (d a b : BitVec 7) (c : Cond) : Statement (.vcmpF64 p d a b c) :=
  of_list _ rfl (by simp)
theorem CheckNumber.vcmpS32 (p : Bool) (d a b : BitVec 7) (c : Cond) : Statement (.vcmpS32 p d a b c) :=
  of_list _ rfl (by simp)
theorem CheckNumber.vcmpN32 (p : Bool) (d a b : BitVec 7) (c : Cond) : Statement (.vcmpN32 p d a b c) :=
  of_list _ rfl (by simp)
theorem CheckNumber.vshfl (p : Bool) (d a b : BitVec 7) : Statement (.vshfl p d a b) := of_none rfl
theorem CheckNumber.vshflx (p : Bool) (d a k : BitVec 7) : Statement (.vshflx p d a k) := of_none rfl
theorem CheckNumber.vshflu (p : Bool) (d a k : BitVec 7) : Statement (.vshflu p d a k) := of_none rfl
theorem CheckNumber.vshfld (p : Bool) (d a k : BitVec 7) : Statement (.vshfld p d a k) := of_none rfl
theorem CheckNumber.vbcst (p : Bool) (d a b : BitVec 7) : Statement (.vbcst p d a b) := of_none rfl
theorem CheckNumber.vredaddS32 (p : Bool) (d a : BitVec 7) : Statement (.vredaddS32 p d a) := of_none rfl
theorem CheckNumber.vredaddF32 (p : Bool) (d a : BitVec 7) : Statement (.vredaddF32 p d a) := of_none rfl
theorem CheckNumber.vredmaxF32 (p : Bool) (d a : BitVec 7) : Statement (.vredmaxF32 p d a) := of_none rfl
theorem CheckNumber.vredminF32 (p : Bool) (d a : BitVec 7) : Statement (.vredminF32 p d a) := of_none rfl
theorem CheckNumber.vscanS32 (p : Bool) (d a : BitVec 7) : Statement (.vscanS32 p d a) := of_none rfl
theorem CheckNumber.vscanF32 (p : Bool) (d a : BitVec 7) : Statement (.vscanF32 p d a) := of_none rfl
theorem CheckNumber.vselm (p : Bool) (d a b : BitVec 7) : Statement (.vselm p d a b) := of_list _ rfl (by simp)
theorem CheckNumber.mand (p : Bool) (d a b : BitVec 7) : Statement (.mand p d a b) := of_list _ rfl (by simp)
theorem CheckNumber.mor (p : Bool) (d a b : BitVec 7) : Statement (.mor p d a b) := of_list _ rfl (by simp)
theorem CheckNumber.mxor (p : Bool) (d a b : BitVec 7) : Statement (.mxor p d a b) := of_list _ rfl (by simp)
theorem CheckNumber.mandn (p : Bool) (d a b : BitVec 7) : Statement (.mandn p d a b) := of_list _ rfl (by simp)
theorem CheckNumber.mnot (p : Bool) (d a : BitVec 7) : Statement (.mnot p d a) := of_list _ rfl (by simp)
theorem CheckNumber.mmov (p : Bool) (d a : BitVec 7) : Statement (.mmov p d a) := of_list _ rfl (by simp)
theorem CheckNumber.mpopc (p : Bool) (d a : BitVec 7) : Statement (.mpopc p d a) := of_list _ rfl (by simp)
theorem CheckNumber.mfirst (p : Bool) (d a : BitVec 7) : Statement (.mfirst p d a) := of_list _ rfl (by simp)
theorem CheckNumber.mtos (p : Bool) (d a : BitVec 7) : Statement (.mtos p d a) := of_list _ rfl (by simp)
theorem CheckNumber.stom (p : Bool) (d a : BitVec 7) : Statement (.stom p d a) := of_list _ rfl (by simp)
theorem CheckNumber.vdp4s (p : Bool) (d a b : BitVec 7) : Statement (.vdp4s p d a b) := of_none rfl
theorem CheckNumber.vdp4z (p : Bool) (d a b : BitVec 7) : Statement (.vdp4z p d a b) := of_none rfl
theorem CheckNumber.vdp8s (p : Bool) (d a b : BitVec 7) : Statement (.vdp8s p d a b) := of_none rfl
theorem CheckNumber.vdp8z (p : Bool) (d a b : BitVec 7) : Statement (.vdp8z p d a b) := of_none rfl
theorem CheckNumber.vdpf4 (p : Bool) (d a b : BitVec 7) : Statement (.vdpf4 p d a b) := of_none rfl
theorem CheckNumber.vdpf8a (p : Bool) (d a b : BitVec 7) : Statement (.vdpf8a p d a b) := of_none rfl
theorem CheckNumber.vdpf8b (p : Bool) (d a b : BitVec 7) : Statement (.vdpf8b p d a b) := of_none rfl
theorem CheckNumber.vunpk4l (p : Bool) (d a : BitVec 7) : Statement (.vunpk4l p d a) := of_none rfl
theorem CheckNumber.vunpk4h (p : Bool) (d a : BitVec 7) : Statement (.vunpk4h p d a) := of_none rfl
theorem CheckNumber.vunpk6 (p : Bool) (d a : BitVec 7) : Statement (.vunpk6 p d a) := of_none rfl
theorem CheckNumber.veset (p : Bool) (d b : BitVec 7) : Statement (.veset p d b) := of_none rfl
theorem CheckNumber.veget (p : Bool) (d a : BitVec 7) : Statement (.veget p d a) := of_none rfl
theorem CheckNumber.vemov (p : Bool) (d a : BitVec 7) : Statement (.vemov p d a) := of_none rfl
theorem CheckNumber.veadd (p : Bool) (d a b : BitVec 7) : Statement (.veadd p d a b) := of_none rfl
theorem CheckNumber.rqntE2m1 (p : Bool) (d a : BitVec 7) (c : Bool) (h : HadOpt) (r : RqRound) : Statement (.rqntE2m1 p d a c h r) :=
  of_list _ rfl (by simp)
theorem CheckNumber.rqntE2m3 (p : Bool) (d a : BitVec 7) (h : HadOpt) (r : RqRound) : Statement (.rqntE2m3 p d a h r) :=
  of_list _ rfl (by simp)
theorem CheckNumber.rqntE3m2 (p : Bool) (d a : BitVec 7) (h : HadOpt) (r : RqRound) : Statement (.rqntE3m2 p d a h r) :=
  of_list _ rfl (by simp)
theorem CheckNumber.rqntE4m3 (p : Bool) (d a : BitVec 7) (h : HadOpt) (r : RqRound) : Statement (.rqntE4m3 p d a h r) :=
  of_list _ rfl (by simp)
theorem CheckNumber.rqntE5m2 (p : Bool) (d a : BitVec 7) (h : HadOpt) (r : RqRound) : Statement (.rqntE5m2 p d a h r) :=
  of_list _ rfl (by simp)
theorem CheckNumber.rqntg4 (p : Bool) (d a : BitVec 7) (h : HadOpt) (r : RqRound) : Statement (.rqntg4 p d a h r) :=
  of_list _ rfl (by simp)
theorem CheckNumber.rqntg8 (p : Bool) (d a : BitVec 7) (h : HadOpt) (r : RqRound) : Statement (.rqntg8 p d a h r) :=
  of_list _ rfl (by simp)
theorem CheckNumber.vebmax (p : Bool) (d a : BitVec 7) : Statement (.vebmax p d a) := of_list _ rfl (by simp)
theorem CheckNumber.vhad16 (p : Bool) (d a : BitVec 7) : Statement (.vhad16 p d a) := of_list _ rfl (by simp)
theorem CheckNumber.vhad32 (p : Bool) (d a : BitVec 7) : Statement (.vhad32 p d a) := of_list _ rfl (by simp)
theorem CheckNumber.vldB8 (p : Bool) (d a b : BitVec 7) (m : AddrMode) : Statement (.vldB8 p d a b m) :=
  of_list _ rfl (by simp)
theorem CheckNumber.vldS8 (p : Bool) (d a b : BitVec 7) (m : AddrMode) : Statement (.vldS8 p d a b m) :=
  of_list _ rfl (by simp)
theorem CheckNumber.vldB16 (p : Bool) (d a b : BitVec 7) (m : AddrMode) : Statement (.vldB16 p d a b m) :=
  of_list _ rfl (by simp)
theorem CheckNumber.vldS16 (p : Bool) (d a b : BitVec 7) (m : AddrMode) : Statement (.vldS16 p d a b m) :=
  of_list _ rfl (by simp)
theorem CheckNumber.vldW32 (p : Bool) (d a b : BitVec 7) (m : AddrMode) : Statement (.vldW32 p d a b m) :=
  of_list _ rfl (by simp)
theorem CheckNumber.vldW64 (p : Bool) (d a b : BitVec 7) (m : AddrMode) : Statement (.vldW64 p d a b m) :=
  of_list _ rfl (by simp)
theorem CheckNumber.vldW128 (p : Bool) (d a b : BitVec 7) (m : AddrMode) : Statement (.vldW128 p d a b m) :=
  of_list _ rfl (by simp)
theorem CheckNumber.vldE (p : Bool) (d a b : BitVec 7) (m : AddrMode) : Statement (.vldE p d a b m) := of_list _ rfl (by simp)
theorem CheckNumber.vstB8 (p : Bool) (d a b : BitVec 7) (m : AddrMode) : Statement (.vstB8 p d a b m) :=
  of_list _ rfl (by simp)
theorem CheckNumber.vstB16 (p : Bool) (d a b : BitVec 7) (m : AddrMode) : Statement (.vstB16 p d a b m) :=
  of_list _ rfl (by simp)
theorem CheckNumber.vstW32 (p : Bool) (d a b : BitVec 7) (m : AddrMode) : Statement (.vstW32 p d a b m) :=
  of_list _ rfl (by simp)
theorem CheckNumber.vstW64 (p : Bool) (d a b : BitVec 7) (m : AddrMode) : Statement (.vstW64 p d a b m) :=
  of_list _ rfl (by simp)
theorem CheckNumber.vstW128 (p : Bool) (d a b : BitVec 7) (m : AddrMode) : Statement (.vstW128 p d a b m) :=
  of_list _ rfl (by simp)
theorem CheckNumber.vstE (p : Bool) (d a b : BitVec 7) (m : AddrMode) : Statement (.vstE p d a b m) := of_list _ rfl (by simp)
theorem CheckNumber.vatomAdd32 (p : Bool) (d a : BitVec 7) (n : Bool) (s : Scope) (u : AtomUse) (x : Bool) : Statement (.vatomAdd32 p d a n s u x) :=
  of_list _ rfl (by simp)
theorem CheckNumber.vatomAdd64 (p : Bool) (d a : BitVec 7) (n : Bool) (s : Scope) (u : AtomUse) (x : Bool) : Statement (.vatomAdd64 p d a n s u x) :=
  of_list _ rfl (by simp)
theorem CheckNumber.vatomMinS32 (p : Bool) (d a : BitVec 7) (n : Bool) (s : Scope) (u : AtomUse) (x : Bool) : Statement (.vatomMinS32 p d a n s u x) :=
  of_list _ rfl (by simp)
theorem CheckNumber.vatomMaxS32 (p : Bool) (d a : BitVec 7) (n : Bool) (s : Scope) (u : AtomUse) (x : Bool) : Statement (.vatomMaxS32 p d a n s u x) :=
  of_list _ rfl (by simp)
theorem CheckNumber.vatomAnd (p : Bool) (d a : BitVec 7) (n : Bool) (s : Scope) (u : AtomUse) (x : Bool) : Statement (.vatomAnd p d a n s u x) :=
  of_list _ rfl (by simp)
theorem CheckNumber.vatomOr (p : Bool) (d a : BitVec 7) (n : Bool) (s : Scope) (u : AtomUse) (x : Bool) : Statement (.vatomOr p d a n s u x) :=
  of_list _ rfl (by simp)
theorem CheckNumber.vatomXor (p : Bool) (d a : BitVec 7) (n : Bool) (s : Scope) (u : AtomUse) (x : Bool) : Statement (.vatomXor p d a n s u x) :=
  of_list _ rfl (by simp)
theorem CheckNumber.vatomXch32 (p : Bool) (d a : BitVec 7) (n : Bool) (s : Scope) (u : AtomUse) (x : Bool) : Statement (.vatomXch32 p d a n s u x) :=
  of_list _ rfl (by simp)
theorem CheckNumber.vatomXch64 (p : Bool) (d a : BitVec 7) (n : Bool) (s : Scope) (u : AtomUse) (x : Bool) : Statement (.vatomXch64 p d a n s u x) :=
  of_list _ rfl (by simp)
theorem CheckNumber.vatomCas32 (p : Bool) (d a : BitVec 7) (n : Bool) (s : Scope) (u : AtomUse) (x : Bool) : Statement (.vatomCas32 p d a n s u x) :=
  of_list _ rfl (by simp)
theorem CheckNumber.vatomCas64 (p : Bool) (d a : BitVec 7) (n : Bool) (s : Scope) (u : AtomUse) (x : Bool) : Statement (.vatomCas64 p d a n s u x) :=
  of_list _ rfl (by simp)
theorem CheckNumber.vatomFadd32 (p : Bool) (d a : BitVec 7) (n : Bool) (s : Scope) (u : AtomUse) (x : Bool) : Statement (.vatomFadd32 p d a n s u x) :=
  of_list _ rfl (by simp)
theorem CheckNumber.vatomFadd64 (p : Bool) (d a : BitVec 7) (n : Bool) (s : Scope) (u : AtomUse) (x : Bool) : Statement (.vatomFadd64 p d a n s u x) :=
  of_list _ rfl (by simp)
theorem CheckNumber.vatomFaddo32 (p : Bool) (d a : BitVec 7) (n : Bool) (s : Scope) (u : AtomUse) (x : Bool) : Statement (.vatomFaddo32 p d a n s u x) :=
  of_list _ rfl (by simp)
theorem CheckNumber.vatomFaddo64 (p : Bool) (d a : BitVec 7) (n : Bool) (s : Scope) (u : AtomUse) (x : Bool) : Statement (.vatomFaddo64 p d a n s u x) :=
  of_list _ rfl (by simp)
theorem CheckNumber.vatomIncw (p : Bool) (d a : BitVec 7) (n : Bool) (s : Scope) (u : AtomUse) (x : Bool) : Statement (.vatomIncw p d a n s u x) :=
  of_list _ rfl (by simp)
theorem CheckNumber.sld32 (p : Bool) (d a : BitVec 7) (i : BitVec 9) : Statement (.sld32 p d a i) := of_list _ rfl (by simp)
theorem CheckNumber.sld64 (p : Bool) (d a : BitVec 7) (i : BitVec 9) : Statement (.sld64 p d a i) := of_list _ rfl (by simp)
theorem CheckNumber.sld128 (p : Bool) (d a : BitVec 7) (i : BitVec 9) : Statement (.sld128 p d a i) := of_list _ rfl (by simp)
theorem CheckNumber.sst32 (p : Bool) (d a : BitVec 7) (i : BitVec 9) : Statement (.sst32 p d a i) := of_list _ rfl (by simp)
theorem CheckNumber.sst64 (p : Bool) (d a : BitVec 7) (i : BitVec 9) : Statement (.sst64 p d a i) := of_list _ rfl (by simp)
theorem CheckNumber.sst128 (p : Bool) (d a : BitVec 7) (i : BitVec 9) : Statement (.sst128 p d a i) := of_list _ rfl (by simp)
theorem CheckNumber.saadd (p : Bool) (d a : BitVec 7) (i : BitVec 9) : Statement (.saadd p d a i) := of_list _ rfl (by simp)
theorem CheckNumber.sacas (p : Bool) (d a : BitVec 7) (i : BitVec 9) : Statement (.sacas p d a i) := of_list _ rfl (by simp)
theorem CheckNumber.acp4 (p : Bool) (d a b : BitVec 7) : Statement (.acp4 p d a b) := of_list _ rfl (by simp)
theorem CheckNumber.acp8 (p : Bool) (d a b : BitVec 7) : Statement (.acp8 p d a b) := of_list _ rfl (by simp)
theorem CheckNumber.acp16 (p : Bool) (d a b : BitVec 7) : Statement (.acp16 p d a b) := of_list _ rfl (by simp)
theorem CheckNumber.acps4 (p : Bool) (d a b : BitVec 7) : Statement (.acps4 p d a b) := of_list _ rfl (by simp)
theorem CheckNumber.acps8 (p : Bool) (d a b : BitVec 7) : Statement (.acps8 p d a b) := of_list _ rfl (by simp)
theorem CheckNumber.acps16 (p : Bool) (d a b : BitVec 7) : Statement (.acps16 p d a b) := of_list _ rfl (by simp)
theorem CheckNumber.boinit (p : Bool) (a b : BitVec 7) : Statement (.boinit p a b) := of_none rfl
theorem CheckNumber.boarr (p : Bool) (d a : BitVec 7) : Statement (.boarr p d a) := of_none rfl
theorem CheckNumber.boexp (p : Bool) (a b : BitVec 7) : Statement (.boexp p a b) := of_none rfl
theorem CheckNumber.bowait (p : Bool) (d a b : BitVec 7) : Statement (.bowait p d a b) := of_none rfl
theorem CheckNumber.botest (p : Bool) (d a : BitVec 7) : Statement (.botest p d a) := of_none rfl
theorem CheckNumber.bowaitTimeout (unit : Nat) : Statement (.bowaitTimeout unit) := of_none rfl
theorem CheckNumber.waitaEq (p : Bool) (d a b : BitVec 7) : Statement (.waitaEq p d a b) := of_list _ rfl (by simp)
theorem CheckNumber.waitaNe (p : Bool) (d a b : BitVec 7) : Statement (.waitaNe p d a b) := of_list _ rfl (by simp)
theorem CheckNumber.waitaTimeout (unit : Nat) : Statement (.waitaTimeout unit) := of_none rfl
theorem CheckNumber.fenceAcq (p : Bool) (s : Scope) : Statement (.fenceAcq p s) := of_none rfl
theorem CheckNumber.fenceRel (p : Bool) (s : Scope) : Statement (.fenceRel p s) := of_none rfl
theorem CheckNumber.fenceFull (p : Bool) (s : Scope) : Statement (.fenceFull p s) := of_none rfl
theorem CheckNumber.lempty (p : Bool) (a : BitVec 7) : Statement (.lempty p a) := of_none rfl
theorem CheckNumber.lfill (p : Bool) (a : BitVec 7) : Statement (.lfill p a) := of_none rfl
theorem CheckNumber.ltest (p : Bool) (d a : BitVec 7) : Statement (.ltest p d a) := of_none rfl
theorem CheckNumber.lwait (p : Bool) (d a b : BitVec 7) : Statement (.lwait p d a b) := of_none rfl
theorem CheckNumber.lwaitTimeout (unit : Nat) : Statement (.lwaitTimeout unit) := of_none rfl
theorem CheckNumber.ldt4 (p : Bool) (d a b : BitVec 7) : Statement (.ldt4 p d a b) := of_list _ rfl (by simp)
theorem CheckNumber.ldt6 (p : Bool) (d a b : BitVec 7) : Statement (.ldt6 p d a b) := of_list _ rfl (by simp)
theorem CheckNumber.ldt8 (p : Bool) (d a b : BitVec 7) : Statement (.ldt8 p d a b) := of_list _ rfl (by simp)
theorem CheckNumber.ldt16 (p : Bool) (d a b : BitVec 7) : Statement (.ldt16 p d a b) := of_list _ rfl (by simp)
theorem CheckNumber.ldt32 (p : Bool) (d a b : BitVec 7) : Statement (.ldt32 p d a b) := of_list _ rfl (by simp)
theorem CheckNumber.tcpy (p : Bool) (d a b : BitVec 7) : Statement (.tcpy p d a b) := of_list _ rfl (by simp)
theorem CheckNumber.tcpys (p : Bool) (d a b : BitVec 7) : Statement (.tcpys p d a b) := of_list _ rfl (by simp)
theorem CheckNumber.tcpyv (p : Bool) (d a : BitVec 7) : Statement (.tcpyv p d a) := of_list _ rfl (by simp)
theorem CheckNumber.shset (p : Bool) (d a b : BitVec 7) : Statement (.shset p d a b) := of_list _ rfl (by simp)
theorem CheckNumber.shdrop (p : Bool) (a : BitVec 7) : Statement (.shdrop p a) := of_none rfl
theorem CheckNumber.shqry (p : Bool) (d a b : BitVec 7) : Statement (.shqry p d a b) := of_none rfl
theorem CheckNumber.macq (p : Bool) : Statement (.macq p) := of_none rfl
theorem CheckNumber.mrel (p : Bool) : Statement (.mrel p) := of_none rfl
theorem CheckNumber.matrixGrant (core : Nat) : Statement (.matrixGrant core) := of_none rfl
theorem CheckNumber.mmode (p : Bool) (a : BitVec 7) : Statement (.mmode p a) := of_none rfl
theorem CheckNumber.mma (p k c : Bool) (t : BitVec 3) (a b : BitVec 7) : Statement (.mma p k c t a b) :=
  of_list _ rfl (by simp)
theorem CheckNumber.mloop (p k c : Bool) (t : BitVec 3) (a b : BitVec 7) : Statement (.mloop p k c t a b) :=
  of_list _ rfl (by simp)
theorem CheckNumber.matrixStep (core : Nat) : Statement (.matrixStep core) := of_none rfl
theorem CheckNumber.macc (p : Bool) (d : BitVec 7) (o : Bool) (t : BitVec 3) (b : BitVec 7) : Statement (.macc p d o t b) :=
  of_list _ rfl (by simp)
theorem CheckNumber.maccw (p o : Bool) (t : BitVec 3) (a b : BitVec 7) : Statement (.maccw p o t a b) :=
  of_list _ rfl (by simp)
theorem CheckNumber.mzero (p : Bool) (t : BitVec 3) : Statement (.mzero p t) := of_none rfl
theorem CheckNumber.mqry (p : Bool) (d : BitVec 7) : Statement (.mqry p d) := of_none rfl
theorem CheckNumber.mwait (p : Bool) : Statement (.mwait p) := of_none rfl
theorem CheckNumber.gpost (p : Bool) (a b : BitVec 7) : Statement (.gpost p a b) := of_list _ rfl (by simp)
theorem CheckNumber.gcancel (p : Bool) (d a : BitVec 7) : Statement (.gcancel p d a) := of_none rfl
theorem CheckNumber.gadd (p : Bool) (a b : BitVec 7) : Statement (.gadd p a b) := of_none rfl
theorem CheckNumber.grd (p : Bool) (d a : BitVec 7) : Statement (.grd p d a) := of_none rfl
theorem CheckNumber.gset (p : Bool) (a b : BitVec 7) : Statement (.gset p a b) := of_none rfl
theorem CheckNumber.gateActionComplete (op : Nat) : Statement (.gateActionComplete op) := of_none rfl
theorem CheckNumber.rput (p : Bool) (a : BitVec 7) : Statement (.rput p a) := of_list _ rfl (by simp)
theorem CheckNumber.rget (p : Bool) (a : BitVec 7) : Statement (.rget p a) := of_list _ rfl (by simp)
theorem CheckNumber.rflag (p : Bool) (a b : BitVec 7) : Statement (.rflag p a b) := of_none rfl
theorem CheckNumber.publish (p : Bool) (d a : BitVec 7) : Statement (.publish p d a) := of_list _ rfl (by simp)
theorem CheckNumber.pubq (p : Bool) (d a : BitVec 7) : Statement (.pubq p d a) := of_none rfl
theorem CheckNumber.tgath (p : Bool) (a : BitVec 7) : Statement (.tgath p a) := of_list _ rfl (by simp)
theorem CheckNumber.tred (p : Bool) (a : BitVec 7) : Statement (.tred p a) := of_list _ rfl (by simp)
theorem CheckNumber.tcvt (p : Bool) (a : BitVec 7) : Statement (.tcvt p a) := of_list _ rfl (by simp)
theorem CheckNumber.stash (p : Bool) (a : BitVec 7) : Statement (.stash p a) := of_list _ rfl (by simp)
theorem CheckNumber.restore (p : Bool) (a : BitVec 7) : Statement (.restore p a) := of_list _ rfl (by simp)
theorem CheckNumber.teaselCommandComplete (op : Nat) : Statement (.teaselCommandComplete op) := of_none rfl
theorem CheckNumber.resultArrival (unit entry : Nat) : Statement (.resultArrival unit entry) := of_none rfl
theorem CheckNumber.parkCommit (unit : Nat) : Statement (.parkCommit unit) := of_none rfl
theorem CheckNumber.loadPerform (op : Nat) (useCopy useTlb : Bool) : Statement (.loadPerform op useCopy useTlb) := of_none rfl
theorem CheckNumber.storePerform (op : Nat) (useTlb : Bool) : Statement (.storePerform op useTlb) := of_none rfl
theorem CheckNumber.atomicPerform (op : Nat) (how : AtomicChoice) : Statement (.atomicPerform op how) := of_none rfl
theorem CheckNumber.leaseExpiry (core line : Nat) : Statement (.leaseExpiry core line) := of_none rfl
theorem CheckNumber.tlbLeaseExpiry (core page : Nat) : Statement (.tlbLeaseExpiry core page) := of_none rfl
theorem CheckNumber.copyWriteLands (op line : Nat) : Statement (.copyWriteLands op line) := of_none rfl
theorem CheckNumber.acpsSourceRelease (op : Nat) : Statement (.acpsSourceRelease op) := of_none rfl
theorem CheckNumber.tcpyComplete (op : Nat) : Statement (.tcpyComplete op) := of_none rfl
theorem CheckNumber.tcpysComplete (op : Nat) : Statement (.tcpysComplete op) := of_none rfl
theorem CheckNumber.tcpyvDelivery (op : Nat) : Statement (.tcpyvDelivery op) := of_none rfl
theorem CheckNumber.recordAcceptance (ctx : Nat) : Statement (.recordAcceptance ctx) := of_none rfl
theorem CheckNumber.dispatchStep : Statement (.dispatchStep) := of_none rfl
theorem CheckNumber.recordCompletion (ctx key : Nat) : Statement (.recordCompletion ctx key) := of_none rfl
theorem CheckNumber.rputArrival (m : RputMessage) : Statement (.rputArrival m) := of_none rfl
theorem CheckNumber.rflagArrival (m : RflagMessage) : Statement (.rflagArrival m) := of_none rfl
theorem CheckNumber.rgetResponse (op : Nat) (data : GetData) : Statement (.rgetResponse op data) := of_none rfl
theorem CheckNumber.rputAcknowledge (op : Nat) : Statement (.rputAcknowledge op) := of_none rfl
theorem CheckNumber.messageUndeliverable (op : Nat) : Statement (.messageUndeliverable op) := of_none rfl
theorem CheckNumber.ualinkPortFailure (port : Nat) : Statement (.ualinkPortFailure port) := of_none rfl
theorem CheckNumber.correctableError (die : Nat) (cell : ErrCell) : Statement (.correctableError die cell) := of_none rfl
theorem CheckNumber.uncorrectableError (target : ErrTarget) : Statement (.uncorrectableError target) := of_none rfl
theorem CheckNumber.hbmRowRepair (die row : Nat) : Statement (.hbmRowRepair die row) := of_none rfl
theorem CheckNumber.residueCheckFailure (core attempts : Nat) : Statement (.residueCheckFailure core attempts) := of_none rfl
theorem CheckNumber.contextSave (ctx : Nat) : Statement (.contextSave ctx) := of_none rfl
theorem CheckNumber.eventBufferDrain (die : Nat) : Statement (.eventBufferDrain die) := of_none rfl
theorem CheckNumber.openSession (h : AqpenHeader) (advance : Bool) : Statement (.openSession h advance) := of_none rfl
theorem CheckNumber.closeSession (h : AqpenHeader) : Statement (.closeSession h) := of_none rfl
theorem CheckNumber.statusQuery (h : AqpenHeader) : Statement (.statusQuery h) := of_none rfl
theorem CheckNumber.ctxcreate (h : AqpenHeader) (c : CtxCreate) : Statement (.ctxcreate h c) := of_none rfl
theorem CheckNumber.ctxwrite (h : AqpenHeader) (ctx offset : Nat) (bytes : List (BitVec 8)) : Statement (.ctxwrite h ctx offset bytes) :=
  of_none rfl
theorem CheckNumber.ctxdestroy (h : AqpenHeader) (ctx : Nat) : Statement (.ctxdestroy h ctx) := of_none rfl
theorem CheckNumber.preempt (h : AqpenHeader) (ctx : Nat) : Statement (.preempt h ctx) := of_none rfl
theorem CheckNumber.aqpenRestore (h : AqpenHeader) (ctx : Nat) (dies : List (BitVec 8)) : Statement (.aqpenRestore h ctx dies) :=
  of_none rfl
theorem CheckNumber.savesize (h : AqpenHeader) : Statement (.savesize h) := of_none rfl
theorem CheckNumber.submit (h : AqpenHeader) (ctx : Nat) (records : List (BitVec 64)) : Statement (.submit h ctx records) :=
  of_none rfl
theorem CheckNumber.aqpenCancel (h : AqpenHeader) (ctx : Nat) (control : BitVec 32) (record : BitVec 64) : Statement (.aqpenCancel h ctx control record) :=
  of_none rfl
theorem CheckNumber.inval (h : AqpenHeader) (asid : BitVec 8) (start length : BitVec 64) : Statement (.inval h asid start length) :=
  of_none rfl
theorem CheckNumber.fixans (h : AqpenHeader) (token : Nat) (answer : BitVec 32) : Statement (.fixans h token answer) :=
  of_none rfl
theorem CheckNumber.memreg (h : AqpenHeader) (ctx : Nat) (va length : BitVec 64) (access : BitVec 32) : Statement (.memreg h ctx va length access) :=
  of_none rfl
theorem CheckNumber.evtread (h : AqpenHeader) (count : Nat) : Statement (.evtread h count) := of_none rfl
theorem CheckNumber.regread (h : AqpenHeader) (die : Nat) (reg : DieReg) : Statement (.regread h die reg) := of_none rfl
theorem CheckNumber.debugClaim (h : AqpenHeader) (ctx : Nat) : Statement (.debugClaim h ctx) := of_none rfl
theorem CheckNumber.debugHalt (h : AqpenHeader) (ctx unit : Nat) : Statement (.debugHalt h ctx unit) := of_none rfl
theorem CheckNumber.debugResume (h : AqpenHeader) (ctx unit : Nat) : Statement (.debugResume h ctx unit) := of_none rfl
theorem CheckNumber.debugEnd (h : AqpenHeader) (ctx unit : Nat) : Statement (.debugEnd h ctx unit) := of_none rfl
theorem CheckNumber.debugRegisterAccess (h : AqpenHeader) (ctx unit : Nat) (reg : DebugReg) (write : Option (BitVec 64)) : Statement (.debugRegisterAccess h ctx unit reg write) :=
  of_none rfl
theorem CheckNumber.spdm (h : AqpenHeader) (request : SpdmRequest) : Statement (.spdm h request) := of_none rfl
theorem CheckNumber.telem (h : AqpenHeader) : Statement (.telem h) := of_none rfl
theorem CheckNumber.plimit (h : AqpenHeader) (watts : Nat) : Statement (.plimit h watts) := of_none rfl
theorem CheckNumber.aqpenRetransmit (sess seq : Nat) : Statement (.aqpenRetransmit sess seq) := of_none rfl
theorem CheckNumber.rdmaWrite (target : RoceTarget) (va : BitVec 64) (bytes : List (BitVec 8)) : Statement (.rdmaWrite target va bytes) :=
  of_none rfl
theorem CheckNumber.rdmaRead (target : RoceTarget) (va : BitVec 64) (length : Nat) : Statement (.rdmaRead target va length) :=
  of_none rfl
theorem CheckNumber.roceSend (mark : RoceMark) (bytes : List (BitVec 8)) : Statement (.roceSend mark bytes) := of_none rfl
theorem CheckNumber.resetDevice : Statement (.resetDevice) := of_none rfl
theorem CheckNumber.bringupStepTimeout : Statement (.bringupStepTimeout) := of_none rfl
theorem CheckNumber.powerLimitExceeded : Statement (.powerLimitExceeded) := of_none rfl
theorem CheckNumber.thermalThreshold (celsius : Nat) : Statement (.thermalThreshold celsius) := of_none rfl
theorem CheckNumber.telemetryUpdate (values : BitVec 256) (throttled : BitVec 16) : Statement (.telemetryUpdate values throttled) :=
  of_none rfl
theorem CheckNumber.tcpysSourceRelease (op : Nat) : Statement (.tcpysSourceRelease op) := of_none rfl
theorem CheckNumber.rgetRequestArrival (m : RgetRequest) : Statement (.rgetRequestArrival m) := of_none rfl
theorem CheckNumber.ethernetPartnerSignal : Statement (.ethernetPartnerSignal) := of_none rfl
theorem CheckNumber.bringupStepComplete (report : BringupReport) : Statement (.bringupStepComplete report) := of_none rfl
theorem CheckNumber.portFault (port : Nat) : Statement (.portFault port) := of_none rfl
theorem CheckNumber.congestionNotificationPacket (qp : Nat) : Statement (.congestionNotificationPacket qp) := of_none rfl
theorem CheckNumber.priorityFlowControlFrame (priority : Nat) (pause : Bool) : Statement (.priorityFlowControlFrame priority pause) :=
  of_none rfl
theorem CheckNumber.unknownOpcodeFrame (frame : BadFrame) : Statement (.unknownOpcodeFrame frame) := of_none rfl
theorem CheckNumber.powerFallsBelowLimit : Statement (.powerFallsBelowLimit) := of_none rfl
theorem CheckNumber.faddoListEnlarge (ctx entries : Nat) : Statement (.faddoListEnlarge ctx entries) := of_none rfl

end Sys2Proof.Laws
end

