-- ==== Sys2Proof/Tests/Slice0.lean ====
section
/-!
SUPPORT. The model's own tests. Decoding: one word of every row of spec/opcode_table.json that has one, put together from
the fields of 03 R84 to R90, and the words that the spec itself works out. Well-formedness: a term for each limit that
breaks it. Then, for every statement of Certificates/Slice0/Obligations.lean that has hypotheses, states and operands
that meet them.
-/
namespace Sys2Proof.Tests
open Sys2Proof Sys2Proof.Machine

/- One theorem after another: elaborated side by side, those that evaluate states take too much memory at once. -/
set_option Elab.async false

/-! ## Decoding: every row that has a word (03 R84 to R90) -/

theorem test_decode_sys :
    decode 0x00000000#32 = .ok (.nop false) ∧
    decode 0x80056781#32 = .ok (.trap true 0x2b3c) ∧
    decode 0x00001002#32 = .ok (.eret false 1) ∧
    decode 0x80000003#32 = .ok (.bkpt true) ∧
    decode 0x004054A4#32 = .ok (.csrr false 8 0x2a5) ∧
    decode 0x804054A5#32 = .ok (.csrw true 8 0x2a5) ∧
    decode 0x004054A6#32 = .ok (.csrs false 8 0x2a5) ∧
    decode 0x804054A7#32 = .ok (.csrc true 8 0x2a5) ∧
    decode 0x00010008#32 = .ok (.sleep false 16) ∧
    decode 0x80010309#32 = .ok (.evt true 16 24) ∧
    decode 0x0001000A#32 = .ok (.spawn false 16) ∧
    decode 0x8001030B#32 = .ok (.join true 16 24) ∧
    decode 0x0001030C#32 = .ok (.cancel false 16 24) ∧
    decode 0x8041030D#32 = .ok (.rinkq true 8 16 24) ∧
    decode 0x0041000E#32 = .ok (.vdie false 8 16) ∧
    decode 0x8041030F#32 = .ok (.hops true 8 16 24) :=
  ⟨rfl, rfl, rfl, rfl, rfl, rfl, rfl, rfl, rfl, rfl, rfl, rfl, rfl, rfl, rfl, rfl⟩

theorem test_decode_salu :
    decode 0x04410300#32 = .ok (.sadd false 8 16 24) ∧
    decode 0x84410301#32 = .ok (.ssub true 8 16 24) ∧
    decode 0x04410302#32 = .ok (.smul false 8 16 24) ∧
    decode 0x84410303#32 = .ok (.smulhs true 8 16 24) ∧
    decode 0x04410304#32 = .ok (.smulhn false 8 16 24) ∧
    decode 0x84410305#32 = .ok (.sadd64 true 8 16 24) ∧
    decode 0x04410306#32 = .ok (.ssub64 false 8 16 24) ∧
    decode 0x84410307#32 = .ok (.sand true 8 16 24) ∧
    decode 0x04410308#32 = .ok (.sor false 8 16 24) ∧
    decode 0x84410309#32 = .ok (.sxor true 8 16 24) ∧
    decode 0x0441030A#32 = .ok (.sshl false 8 16 24) ∧
    decode 0x8441030B#32 = .ok (.sshr true 8 16 24) ∧
    decode 0x0441030C#32 = .ok (.ssra false 8 16 24) ∧
    decode 0x8441030D#32 = .ok (.smins true 8 16 24) ∧
    decode 0x0441030E#32 = .ok (.smaxs false 8 16 24) ∧
    decode 0x8441030F#32 = .ok (.sslts true 8 16 24) ∧
    decode 0x04410310#32 = .ok (.ssltn false 8 16 24) ∧
    decode 0x84410311#32 = .ok (.sseq true 8 16 24) ∧
    decode 0x04410312#32 = .ok (.ssne false 8 16 24) ∧
    decode 0x84410013#32 = .ok (.sclz true 8 16) ∧
    decode 0x04410014#32 = .ok (.spopc false 8 16) ∧
    decode 0x84410315#32 = .ok (.sbfe true 8 16 24) ∧
    decode 0x04410316#32 = .ok (.sbins false 8 16 24) ∧
    decode 0x84410317#32 = .ok (.sdivn true 8 16 24) ∧
    decode 0x04410318#32 = .ok (.sremn false 8 16 24) ∧
    decode 0x84410319#32 = .ok (.ssel true 8 16 24) :=
  ⟨rfl, rfl, rfl, rfl, rfl, rfl, rfl, rfl, rfl, rfl, rfl, rfl, rfl, rfl, rfl, rfl, rfl, rfl, rfl, rfl, rfl, rfl, rfl, rfl, rfl, rfl⟩

theorem test_decode_salui :
    decode 0x084101B2#32 = .ok (.saddi false 8 16 0x1b2) ∧
    decode 0x884103B2#32 = .ok (.sandi true 8 16 0x1b2) ∧
    decode 0x084105B2#32 = .ok (.sori false 8 16 0x1b2) ∧
    decode 0x884107B2#32 = .ok (.sxori true 8 16 0x1b2) ∧
    decode 0x08410813#32 = .ok (.sshli false 8 16 19) ∧
    decode 0x88410A13#32 = .ok (.sshri true 8 16 19) ∧
    decode 0x08410C13#32 = .ok (.ssrai false 8 16 19) ∧
    decode 0x88410FB2#32 = .ok (.sslti true 8 16 0x1b2) :=
  ⟨rfl, rfl, rfl, rfl, rfl, rfl, rfl, rfl⟩

theorem test_decode_sli :
    decode 0x0C45A5C3#32 = .ok (.sli false 8 0x5a5c3) :=
  rfl

theorem test_decode_shi :
    decode 0x9045A5C3#32 = .ok (.shi true 8 0x5a5c3) :=
  rfl

theorem test_decode_br :
    decode 0x1402F00D#32 = .ok (.bra false 0x2f00d) ∧
    decode 0x946EF00D#32 = .ok (.brany true 11 0x2f00d) ∧
    decode 0x14AEF00D#32 = .ok (.brall false 11 0x2f00d) ∧
    decode 0x94EEF00D#32 = .ok (.brnone true 11 0x2f00d) ∧
    decode 0x1502F00D#32 = .ok (.call false 0x2f00d) :=
  ⟨rfl, rfl, rfl, rfl, rfl⟩

theorem test_decode_brs :
    decode 0x9A68BEEF#32 = .ok (.beqz true 77 0xbeef) ∧
    decode 0x1A69BEEF#32 = .ok (.bnez false 77 0xbeef) ∧
    decode 0x9A6ABEEF#32 = .ok (.bltz true 77 0xbeef) ∧
    decode 0x1A6BBEEF#32 = .ok (.bgez false 77 0xbeef) ∧
    decode 0x9A6CBEEF#32 = .ok (.bgtz true 77 0xbeef) ∧
    decode 0x1A6DBEEF#32 = .ok (.blez false 77 0xbeef) :=
  ⟨rfl, rfl, rfl, rfl, rfl, rfl⟩

theorem test_decode_jmp :
    decode 0x9C010000#32 = .ok (.jr true 16) ∧
    decode 0x1C410001#32 = .ok (.jalr false 8 16) :=
  ⟨rfl, rfl⟩

theorem test_decode_mbr :
    decode 0x204DFABC#32 = .ok (.mbr false 9 11 3 0x1abc) :=
  rfl

theorem test_decode_wctl :
    decode 0x24000400#32 = .ok (.wfuse false 32) ∧
    decode 0x24000201#32 = .ok (.wsplit false 16) ∧
    decode 0x24000262#32 = .ok (.wbase false 19) ∧
    decode 0xA4000003#32 = .ok (.yield true) ∧
    decode 0x24000004#32 = .ok (.wexit false) ∧
    decode 0xA40100A5#32 = .ok (.bars true 16 5) ∧
    decode 0x240100A6#32 = .ok (.bara false 16 5) ∧
    decode 0xA44100A7#32 = .ok (.barw true 8 16 5) ∧
    decode 0x24010008#32 = .ok (.cbara false 16) ∧
    decode 0xA4410009#32 = .ok (.cbarw true 8 16) ∧
    decode 0x2400000A#32 = .ok (.bjoin false) ∧
    decode 0xA401000B#32 = .ok (.dqpush true 16) ∧
    decode 0x2440000C#32 = .ok (.dqpop false 8) :=
  ⟨rfl, rfl, rfl, rfl, rfl, rfl, rfl, rfl, rfl, rfl, rfl, rfl, rfl⟩

theorem test_decode_vint :
    decode 0xA8410300#32 = .ok (.vadd true 8 16 24) ∧
    decode 0x28410301#32 = .ok (.vsub false 8 16 24) ∧
    decode 0xA8410302#32 = .ok (.vmul true 8 16 24) ∧
    decode 0x28410303#32 = .ok (.vmulhs false 8 16 24) ∧
    decode 0xA8410304#32 = .ok (.vmad true 8 16 24) ∧
    decode 0x28410305#32 = .ok (.vadd64 false 8 16 24) ∧
    decode 0xA8410306#32 = .ok (.vsub64 true 8 16 24) ∧
    decode 0x28410307#32 = .ok (.vand false 8 16 24) ∧
    decode 0xA8410308#32 = .ok (.vor true 8 16 24) ∧
    decode 0x28410309#32 = .ok (.vxor false 8 16 24) ∧
    decode 0xA841030A#32 = .ok (.vandn true 8 16 24) ∧
    decode 0x2841030B#32 = .ok (.vshl false 8 16 24) ∧
    decode 0xA841030C#32 = .ok (.vshr true 8 16 24) ∧
    decode 0x2841030D#32 = .ok (.vsra false 8 16 24) ∧
    decode 0xA841030E#32 = .ok (.vmins true 8 16 24) ∧
    decode 0x2841030F#32 = .ok (.vmaxs false 8 16 24) ∧
    decode 0xA8410310#32 = .ok (.vminn true 8 16 24) ∧
    decode 0x28410311#32 = .ok (.vmaxn false 8 16 24) ∧
    decode 0xA8410312#32 = .ok (.vaddss true 8 16 24) ∧
    decode 0x28410313#32 = .ok (.vsubss false 8 16 24) ∧
    decode 0xA8410014#32 = .ok (.vclz true 8 16) ∧
    decode 0x28410015#32 = .ok (.vpopc false 8 16) ∧
    decode 0xA8410316#32 = .ok (.vbfe true 8 16 24) ∧
    decode 0x28410317#32 = .ok (.vbins false 8 16 24) ∧
    decode 0xA8410018#32 = .ok (.vmov true 8 16) ∧
    decode 0x28400019#32 = .ok (.vlaneid false 8) :=
  ⟨rfl, rfl, rfl, rfl, rfl, rfl, rfl, rfl, rfl, rfl, rfl, rfl, rfl, rfl, rfl, rfl, rfl, rfl, rfl, rfl, rfl, rfl, rfl, rfl, rfl, rfl⟩

theorem test_decode_vints :
    decode 0xAC410300#32 = .ok (.vaddScalar true 8 16 24) ∧
    decode 0x2C410301#32 = .ok (.vsubScalar false 8 16 24) ∧
    decode 0xAC410302#32 = .ok (.vmulScalar true 8 16 24) ∧
    decode 0x2C410303#32 = .ok (.vmulhsScalar false 8 16 24) ∧
    decode 0xAC410304#32 = .ok (.vmadScalar true 8 16 24) ∧
    decode 0x2C410305#32 = .ok (.vadd64Scalar false 8 16 24) ∧
    decode 0xAC410306#32 = .ok (.vsub64Scalar true 8 16 24) ∧
    decode 0x2C410307#32 = .ok (.vandScalar false 8 16 24) ∧
    decode 0xAC410308#32 = .ok (.vorScalar true 8 16 24) ∧
    decode 0x2C410309#32 = .ok (.vxorScalar false 8 16 24) ∧
    decode 0xAC41030A#32 = .ok (.vandnScalar true 8 16 24) ∧
    decode 0x2C41030B#32 = .ok (.vshlScalar false 8 16 24) ∧
    decode 0xAC41030C#32 = .ok (.vshrScalar true 8 16 24) ∧
    decode 0x2C41030D#32 = .ok (.vsraScalar false 8 16 24) ∧
    decode 0xAC41030E#32 = .ok (.vminsScalar true 8 16 24) ∧
    decode 0x2C41030F#32 = .ok (.vmaxsScalar false 8 16 24) ∧
    decode 0xAC410310#32 = .ok (.vminnScalar true 8 16 24) ∧
    decode 0x2C410311#32 = .ok (.vmaxnScalar false 8 16 24) ∧
    decode 0xAC410312#32 = .ok (.vaddssScalar true 8 16 24) ∧
    decode 0x2C410313#32 = .ok (.vsubssScalar false 8 16 24) ∧
    decode 0xAC410316#32 = .ok (.vbfeScalar true 8 16 24) ∧
    decode 0x2C410317#32 = .ok (.vbinsScalar false 8 16 24) ∧
    decode 0xAC400318#32 = .ok (.vmovScalar true 8 24) :=
  ⟨rfl, rfl, rfl, rfl, rfl, rfl, rfl, rfl, rfl, rfl, rfl, rfl, rfl, rfl, rfl, rfl, rfl, rfl, rfl, rfl, rfl, rfl, rfl⟩

theorem test_decode_vf32 :
    decode 0x30410302#32 = .ok (.vfaddF32 false 8 16 24 .rpi) ∧
    decode 0xB041030B#32 = .ok (.vfsubF32 true 8 16 24 .rmi) ∧
    decode 0x30410314#32 = .ok (.vfmulF32 false 8 16 24 .rna) ∧
    decode 0xB041031D#32 = .ok (.vffmaF32 true 8 16 24 .rsr) :=
  ⟨rfl, rfl, rfl, rfl⟩

theorem test_decode_vf64 :
    decode 0x34410306#32 = .ok (.vfaddF64 false 8 16 24 .rto) ∧
    decode 0xB4410308#32 = .ok (.vfsubF64 true 8 16 24 .rne) ∧
    decode 0x34410311#32 = .ok (.vfmulF64 false 8 16 24 .rtz) ∧
    decode 0xB441031A#32 = .ok (.vffmaF64 true 8 16 24 .rpi) :=
  ⟨rfl, rfl, rfl, rfl⟩

theorem test_decode_vf16 :
    decode 0x38410303#32 = .ok (.vfaddF16 false 8 16 24 .rmi) ∧
    decode 0xB841030C#32 = .ok (.vfsubF16 true 8 16 24 .rna) ∧
    decode 0x38410315#32 = .ok (.vfmulF16 false 8 16 24 .rsr) ∧
    decode 0xB841031E#32 = .ok (.vffmaF16 true 8 16 24 .rto) :=
  ⟨rfl, rfl, rfl, rfl⟩

theorem test_decode_vbf16 :
    decode 0x3C410300#32 = .ok (.vfaddBf16 false 8 16 24 .rne) ∧
    decode 0xBC410309#32 = .ok (.vfsubBf16 true 8 16 24 .rtz) ∧
    decode 0x3C410312#32 = .ok (.vfmulBf16 false 8 16 24 .rpi) ∧
    decode 0xBC41031B#32 = .ok (.vffmaBf16 true 8 16 24 .rmi) :=
  ⟨rfl, rfl, rfl, rfl⟩

theorem test_decode_vfmisc :
    decode 0x40410300#32 = .ok (.vfminF32 false 8 16 24) ∧
    decode 0xC0410301#32 = .ok (.vfmaxF32 true 8 16 24) ∧
    decode 0x40410302#32 = .ok (.vfminF64 false 8 16 24) ∧
    decode 0xC0410303#32 = .ok (.vfmaxF64 true 8 16 24) ∧
    decode 0x40410004#32 = .ok (.vfabsF32 false 8 16) ∧
    decode 0xC0410005#32 = .ok (.vfnegF32 true 8 16) ∧
    decode 0x40410006#32 = .ok (.vfabsF64 false 8 16) ∧
    decode 0xC0410007#32 = .ok (.vfnegF64 true 8 16) ∧
    decode 0x40410008#32 = .ok (.vfclassF32 false 8 16) ∧
    decode 0xC0410009#32 = .ok (.vfclassF64 true 8 16) ∧
    decode 0x4041030A#32 = .ok (.vfsclF32 false 8 16 24) ∧
    decode 0xC041030B#32 = .ok (.vfsclF64 true 8 16 24) ∧
    decode 0x4041000C#32 = .ok (.vfgexF32 false 8 16) ∧
    decode 0xC041000D#32 = .ok (.vfgexF64 true 8 16) :=
  ⟨rfl, rfl, rfl, rfl, rfl, rfl, rfl, rfl, rfl, rfl, rfl, rfl, rfl, rfl⟩

theorem test_decode_vcvt :
    decode 0x44410000#32 = .ok (.vcvtF64F32 false 8 16) ∧
    decode 0xC44108A1#32 = .ok (.vcvtF32F64 true 8 16 true .rsr) ∧
    decode 0x444100C2#32 = .ok (.vcvtF16F32 false 8 16 false .rto) ∧
    decode 0xC4410003#32 = .ok (.vcvtF32F16 true 8 16) ∧
    decode 0x44410824#32 = .ok (.vcvtBf16F32 false 8 16 true .rtz) ∧
    decode 0xC4410005#32 = .ok (.vcvtF32Bf16 true 8 16) ∧
    decode 0x44410066#32 = .ok (.vcvtS32F32 false 8 16 false .rmi) ∧
    decode 0xC4410087#32 = .ok (.vcvtF32S32 true 8 16 false .rna) ∧
    decode 0x444108A8#32 = .ok (.vcvtN32F32 false 8 16 true .rsr) ∧
    decode 0xC44108C9#32 = .ok (.vcvtF32N32 true 8 16 true .rto) ∧
    decode 0x4441000A#32 = .ok (.vcvtS32F64 false 8 16 false .rne) ∧
    decode 0xC441000B#32 = .ok (.vcvtF64S32 true 8 16) ∧
    decode 0x4441084C#32 = .ok (.vcvtS64F64 false 8 16 true .rpi) ∧
    decode 0xC441086D#32 = .ok (.vcvtF64S64 true 8 16 true .rmi) ∧
    decode 0x4441008E#32 = .ok (.vcvtE4m3F32 false 8 16 false .rna) ∧
    decode 0xC441000F#32 = .ok (.vcvtF32E4m3 true 8 16) ∧
    decode 0x444108D0#32 = .ok (.vcvtE5m2F32 false 8 16 true .rto) ∧
    decode 0xC4410011#32 = .ok (.vcvtF32E5m2 true 8 16) ∧
    decode 0x44410012#32 = .ok (.vcvtF32E2m1 false 8 16) ∧
    decode 0xC4410013#32 = .ok (.vcvtF32E2m3 true 8 16) ∧
    decode 0x44410014#32 = .ok (.vcvtF32E3m2 false 8 16) :=
  ⟨rfl, rfl, rfl, rfl, rfl, rfl, rfl, rfl, rfl, rfl, rfl, rfl, rfl, rfl, rfl, rfl, rfl, rfl, rfl, rfl, rfl⟩

theorem test_decode_vxc :
    decode 0xC8410000#32 = .ok (.vrcpF32 true 8 16) ∧
    decode 0x48410001#32 = .ok (.vrsqF32 false 8 16) ∧
    decode 0xC84100C2#32 = .ok (.vsqrtF32 true 8 16 .rto) ∧
    decode 0x48410003#32 = .ok (.vexp2F32 false 8 16) ∧
    decode 0xC8410004#32 = .ok (.vlog2F32 true 8 16) ∧
    decode 0x48410005#32 = .ok (.vsinF32 false 8 16) ∧
    decode 0xC8410006#32 = .ok (.vcosF32 true 8 16) ∧
    decode 0x48410007#32 = .ok (.vtanhF32 false 8 16) ∧
    decode 0xC84100A8#32 = .ok (.vdivF32 true 8 16 .rsr) ∧
    decode 0x48410009#32 = .ok (.vrcpF64 false 8 16) ∧
    decode 0xC841000A#32 = .ok (.vrsqF64 true 8 16) ∧
    decode 0x4841002B#32 = .ok (.vsqrtF64 false 8 16 .rtz) ∧
    decode 0xC841000C#32 = .ok (.vexp2F64 true 8 16) ∧
    decode 0x4841000D#32 = .ok (.vlog2F64 false 8 16) ∧
    decode 0xC841000E#32 = .ok (.vsinF64 true 8 16) ∧
    decode 0x4841000F#32 = .ok (.vcosF64 false 8 16) ∧
    decode 0xC84100D0#32 = .ok (.vdivF64 true 8 16 .rto) :=
  ⟨rfl, rfl, rfl, rfl, rfl, rfl, rfl, rfl, rfl, rfl, rfl, rfl, rfl, rfl, rfl, rfl, rfl⟩

theorem test_decode_vcmp :
    decode 0x4C410304#32 = .ok (.vcmpF32 false 8 16 24 .gt) ∧
    decode 0xCC41030D#32 = .ok (.vcmpF64 true 8 16 24 .ge) ∧
    decode 0x4C410310#32 = .ok (.vcmpS32 false 8 16 24 .eq) ∧
    decode 0xCC410319#32 = .ok (.vcmpN32 true 8 16 24 .ne) :=
  ⟨rfl, rfl, rfl, rfl⟩

theorem test_decode_vlane :
    decode 0x50410300#32 = .ok (.vshfl false 8 16 24) ∧
    decode 0xD04102A1#32 = .ok (.vshflx true 8 16 21) ∧
    decode 0x504102A2#32 = .ok (.vshflu false 8 16 21) ∧
    decode 0xD04102A3#32 = .ok (.vshfld true 8 16 21) ∧
    decode 0x50410304#32 = .ok (.vbcst false 8 16 24) ∧
    decode 0xD0410005#32 = .ok (.vredaddS32 true 8 16) ∧
    decode 0x50410006#32 = .ok (.vredaddF32 false 8 16) ∧
    decode 0xD0410007#32 = .ok (.vredmaxF32 true 8 16) ∧
    decode 0x50410008#32 = .ok (.vredminF32 false 8 16) ∧
    decode 0xD0410009#32 = .ok (.vscanS32 true 8 16) ∧
    decode 0x5041000A#32 = .ok (.vscanF32 false 8 16) ∧
    decode 0xD04100AB#32 = .ok (.vselm true 8 16 5) ∧
    decode 0x504030AC#32 = .ok (.mand false 8 3 5) ∧
    decode 0xD04030AD#32 = .ok (.mor true 8 3 5) ∧
    decode 0x504030AE#32 = .ok (.mxor false 8 3 5) ∧
    decode 0xD04030AF#32 = .ok (.mandn true 8 3 5) ∧
    decode 0x50403010#32 = .ok (.mnot false 8 3) ∧
    decode 0xD0403011#32 = .ok (.mmov true 8 3) ∧
    decode 0x50403012#32 = .ok (.mpopc false 8 3) ∧
    decode 0xD0403013#32 = .ok (.mfirst true 8 3) ∧
    decode 0x50403014#32 = .ok (.mtos false 8 3) ∧
    decode 0xD0410015#32 = .ok (.stom true 8 16) :=
  ⟨rfl, rfl, rfl, rfl, rfl, rfl, rfl, rfl, rfl, rfl, rfl, rfl, rfl, rfl, rfl, rfl, rfl, rfl, rfl, rfl, rfl, rfl⟩

theorem test_decode_vpack :
    decode 0x54410300#32 = .ok (.vdp4s false 8 16 24) ∧
    decode 0xD4410301#32 = .ok (.vdp4z true 8 16 24) ∧
    decode 0x54410302#32 = .ok (.vdp8s false 8 16 24) ∧
    decode 0xD4410303#32 = .ok (.vdp8z true 8 16 24) ∧
    decode 0x54410304#32 = .ok (.vdpf4 false 8 16 24) ∧
    decode 0xD4410305#32 = .ok (.vdpf8a true 8 16 24) ∧
    decode 0x54410306#32 = .ok (.vdpf8b false 8 16 24) ∧
    decode 0xD4410007#32 = .ok (.vunpk4l true 8 16) ∧
    decode 0x54410008#32 = .ok (.vunpk4h false 8 16) ∧
    decode 0xD4410009#32 = .ok (.vunpk6 true 8 16) ∧
    decode 0x5440030A#32 = .ok (.veset false 8 24) ∧
    decode 0xD441000B#32 = .ok (.veget true 8 16) ∧
    decode 0x5441000C#32 = .ok (.vemov false 8 16) ∧
    decode 0xD441030D#32 = .ok (.veadd true 8 16 24) :=
  ⟨rfl, rfl, rfl, rfl, rfl, rfl, rfl, rfl, rfl, rfl, rfl, rfl, rfl, rfl⟩

theorem test_decode_vmx :
    decode 0x58410100#32 = .ok (.rqntE2m1 false 8 16 false .h32 .rne) ∧
    decode 0xD8310021#32 = .ok (.rqntE2m3 true 6 16 .none .rsr) ∧
    decode 0x58310082#32 = .ok (.rqntE3m2 false 6 16 .h16 .rne) ∧
    decode 0xD8410123#32 = .ok (.rqntE4m3 true 8 16 .h32 .rsr) ∧
    decode 0x58410004#32 = .ok (.rqntE5m2 false 8 16 .none .rne) ∧
    decode 0xD84100A5#32 = .ok (.rqntg4 true 8 16 .h16 .rsr) ∧
    decode 0x58410106#32 = .ok (.rqntg8 false 8 16 .h32 .rne) ∧
    decode 0xD8410007#32 = .ok (.vebmax true 8 16) ∧
    decode 0x58410008#32 = .ok (.vhad16 false 8 16) ∧
    decode 0xD8410009#32 = .ok (.vhad32 true 8 16) :=
  ⟨rfl, rfl, rfl, rfl, rfl, rfl, rfl, rfl, rfl, rfl⟩

theorem test_decode_vld :
    decode 0x5C410300#32 = .ok (.vldB8 false 8 16 24 .base) ∧
    decode 0xDC410307#32 = .ok (.vldS8 true 8 16 24 .scratchBase) ∧
    decode 0x5C410308#32 = .ok (.vldB16 false 8 16 24 .base) ∧
    decode 0xDC41030F#32 = .ok (.vldS16 true 8 16 24 .scratchBase) ∧
    decode 0x5C410310#32 = .ok (.vldW32 false 8 16 24 .base) ∧
    decode 0xDC410317#32 = .ok (.vldW64 true 8 16 24 .scratchBase) ∧
    decode 0x5C410318#32 = .ok (.vldW128 false 8 16 24 .base) ∧
    decode 0xDC41031F#32 = .ok (.vldE true 8 16 24 .scratchBase) :=
  ⟨rfl, rfl, rfl, rfl, rfl, rfl, rfl, rfl⟩

theorem test_decode_vst :
    decode 0x60410300#32 = .ok (.vstB8 false 8 16 24 .base) ∧
    decode 0xE041030B#32 = .ok (.vstB16 true 8 16 24 .scratchBase) ∧
    decode 0x60410310#32 = .ok (.vstW32 false 8 16 24 .base) ∧
    decode 0xE0410317#32 = .ok (.vstW64 true 8 16 24 .scratchBase) ∧
    decode 0x60410318#32 = .ok (.vstW128 false 8 16 24 .base) ∧
    decode 0xE041031F#32 = .ok (.vstE true 8 16 24 .scratchBase) :=
  ⟨rfl, rfl, rfl, rfl, rfl, rfl⟩

theorem test_decode_vatom :
    decode 0x644102C0#32 = .ok (.vatomAdd32 false 8 16 false .device .quantum false) ∧
    decode 0xE44102C1#32 = .ok (.vatomAdd64 true 8 16 false .device .quantum false) ∧
    decode 0x64410952#32 = .ok (.vatomMinS32 false 8 16 true .cluster .release true) ∧
    decode 0xE4410953#32 = .ok (.vatomMaxS32 true 8 16 true .cluster .release true) ∧
    decode 0x64410954#32 = .ok (.vatomAnd false 8 16 true .cluster .release true) ∧
    decode 0xE4410955#32 = .ok (.vatomOr true 8 16 true .cluster .release true) ∧
    decode 0x64410956#32 = .ok (.vatomXor false 8 16 true .cluster .release true) ∧
    decode 0xE4410037#32 = .ok (.vatomXch32 true 8 16 false .block .acquire true) ∧
    decode 0x64410038#32 = .ok (.vatomXch64 false 8 16 false .block .acquire true) ∧
    decode 0xE44101E9#32 = .ok (.vatomCas32 true 8 16 false .cluster .speculative false) ∧
    decode 0x644101EA#32 = .ok (.vatomCas64 false 8 16 false .cluster .speculative false) ∧
    decode 0xE441095B#32 = .ok (.vatomFadd32 true 8 16 true .cluster .release true) ∧
    decode 0x6441095C#32 = .ok (.vatomFadd64 false 8 16 true .cluster .release true) ∧
    decode 0xE4410B8D#32 = .ok (.vatomFaddo32 true 8 16 true .system .commutative false) ∧
    decode 0x64410B8E#32 = .ok (.vatomFaddo64 false 8 16 true .system .commutative false) ∧
    decode 0xE441095F#32 = .ok (.vatomIncw true 8 16 true .cluster .release true) :=
  ⟨rfl, rfl, rfl, rfl, rfl, rfl, rfl, rfl, rfl, rfl, rfl, rfl, rfl, rfl, rfl, rfl⟩

theorem test_decode_smem :
    decode 0x684101B2#32 = .ok (.sld32 false 8 16 0x1b2) ∧
    decode 0xE84103B2#32 = .ok (.sld64 true 8 16 0x1b2) ∧
    decode 0x684105B2#32 = .ok (.sld128 false 8 16 0x1b2) ∧
    decode 0xE84107B2#32 = .ok (.sst32 true 8 16 0x1b2) ∧
    decode 0x684109B2#32 = .ok (.sst64 false 8 16 0x1b2) ∧
    decode 0xE8410BB2#32 = .ok (.sst128 true 8 16 0x1b2) ∧
    decode 0x68410DB2#32 = .ok (.saadd false 8 16 0x1b2) ∧
    decode 0xE8410FB2#32 = .ok (.sacas true 8 16 0x1b2) :=
  ⟨rfl, rfl, rfl, rfl, rfl, rfl, rfl, rfl⟩

theorem test_decode_vsync :
    decode 0x6C410300#32 = .ok (.acp4 false 8 16 24) ∧
    decode 0xEC410301#32 = .ok (.acp8 true 8 16 24) ∧
    decode 0x6C410302#32 = .ok (.acp16 false 8 16 24) ∧
    decode 0xEC410303#32 = .ok (.acps4 true 8 16 24) ∧
    decode 0x6C410304#32 = .ok (.acps8 false 8 16 24) ∧
    decode 0xEC410305#32 = .ok (.acps16 true 8 16 24) ∧
    decode 0x6C010306#32 = .ok (.boinit false 16 24) ∧
    decode 0xEC410007#32 = .ok (.boarr true 8 16) ∧
    decode 0x6C010308#32 = .ok (.boexp false 16 24) ∧
    decode 0xEC410309#32 = .ok (.bowait true 8 16 24) ∧
    decode 0x6C41000A#32 = .ok (.botest false 8 16) ∧
    decode 0xEC41030B#32 = .ok (.waitaEq true 8 16 24) ∧
    decode 0x6C41030C#32 = .ok (.waitaNe false 8 16 24) ∧
    decode 0xEC00002D#32 = .ok (.fenceAcq true .cluster) ∧
    decode 0x6C00004E#32 = .ok (.fenceRel false .device) ∧
    decode 0xEC00006F#32 = .ok (.fenceFull true .system) ∧
    decode 0x6C010010#32 = .ok (.lempty false 16) ∧
    decode 0xEC010011#32 = .ok (.lfill true 16) ∧
    decode 0x6C410012#32 = .ok (.ltest false 8 16) ∧
    decode 0xEC410313#32 = .ok (.lwait true 8 16 24) :=
  ⟨rfl, rfl, rfl, rfl, rfl, rfl, rfl, rfl, rfl, rfl, rfl, rfl, rfl, rfl, rfl, rfl, rfl, rfl, rfl, rfl⟩

theorem test_decode_tens :
    decode 0x70410300#32 = .ok (.ldt4 false 8 16 24) ∧
    decode 0xF0410301#32 = .ok (.ldt6 true 8 16 24) ∧
    decode 0x70410302#32 = .ok (.ldt8 false 8 16 24) ∧
    decode 0xF0410303#32 = .ok (.ldt16 true 8 16 24) ∧
    decode 0x71010304#32 = .ok (.ldt32 false 32 16 24) ∧
    decode 0xF0410305#32 = .ok (.tcpy true 8 16 24) ∧
    decode 0x70410306#32 = .ok (.tcpys false 8 16 24) ∧
    decode 0xF0410007#32 = .ok (.tcpyv true 8 16) ∧
    decode 0x70410308#32 = .ok (.shset false 8 16 24) ∧
    decode 0xF0010009#32 = .ok (.shdrop true 16) ∧
    decode 0x7041030A#32 = .ok (.shqry false 8 16 24) :=
  ⟨rfl, rfl, rfl, rfl, rfl, rfl, rfl, rfl, rfl, rfl, rfl⟩

theorem test_decode_mat :
    decode 0xF4000000#32 = .ok (.macq true) ∧
    decode 0x74000001#32 = .ok (.mrel false) ∧
    decode 0xF4010002#32 = .ok (.mmode true 16) ∧
    decode 0x77290303#32 = .ok (.mma false true true 5 16 24) ∧
    decode 0xF7290304#32 = .ok (.mloop true true true 5 16 24) ∧
    decode 0x74405305#32 = .ok (.macc false 8 false 5 24) ∧
    decode 0xF4290306#32 = .ok (.maccw true false 5 16 24) ∧
    decode 0x74280007#32 = .ok (.mzero false 5) ∧
    decode 0xF4400008#32 = .ok (.mqry true 8) ∧
    decode 0x74000009#32 = .ok (.mwait false) :=
  ⟨rfl, rfl, rfl, rfl, rfl, rfl, rfl, rfl, rfl, rfl⟩

theorem test_decode_net :
    decode 0xF8010300#32 = .ok (.gpost true 16 24) ∧
    decode 0x78410001#32 = .ok (.gcancel false 8 16) ∧
    decode 0xF8010302#32 = .ok (.gadd true 16 24) ∧
    decode 0x78410003#32 = .ok (.grd false 8 16) ∧
    decode 0xF8010304#32 = .ok (.gset true 16 24) ∧
    decode 0x78010005#32 = .ok (.rput false 16) ∧
    decode 0xF8010006#32 = .ok (.rget true 16) ∧
    decode 0x78010307#32 = .ok (.rflag false 16 24) ∧
    decode 0xF8410008#32 = .ok (.publish true 8 16) ∧
    decode 0x78410009#32 = .ok (.pubq false 8 16) ∧
    decode 0xF801000A#32 = .ok (.tgath true 16) ∧
    decode 0x7801000B#32 = .ok (.tred false 16) ∧
    decode 0xF801000C#32 = .ok (.tcvt true 16) ∧
    decode 0x7801000D#32 = .ok (.stash false 16) ∧
    decode 0xF801000E#32 = .ok (.restore true 16) :=
  ⟨rfl, rfl, rfl, rfl, rfl, rfl, rfl, rfl, rfl, rfl, rfl, rfl, rfl, rfl, rfl⟩

/-! ## Decoding: words that the spec works out (03, 04, 05, 07, 08, 12, 14, 20) -/

theorem test_worked_scalar :
    decode 0x144FFFFB#32 = .ok (.brany false 3 0x3FFFB) ∧
    decode 0x00380404#32 = .ok (.csrr false 7 0x20) ∧
    decode 0x0C4FFFFD#32 = .ok (.sli false 9 0x7FFFD) ∧
    decode 0x04409140#32 = .ok (.sadd false 8 9 10) ∧
    decode 0x0440A185#32 = .ok (.sadd64 false 8 10 12) ∧
    decode 0x084091FB#32 = .ok (.saddi false 8 9 0x1FB) ∧
    decode 0x08409803#32 = .ok (.sshli false 8 9 3) ∧
    decode 0x148C0004#32 = .ok (.brall false 3 4) ∧
    decode 0x1500000C#32 = .ok (.call false 12) ∧
    decode 0x1841FFFD#32 = .ok (.bnez false 8 0xFFFD) ∧
    decode 0x1C108001#32 = .ok (.jalr false 2 8) ∧
    decode 0x24000800#32 = .ok (.wfuse false 64) ∧
    decode 0x24000042#32 = .ok (.wbase false 2) ∧
    decode 0x00002461#32 = .ok (.trap false 0x123) ∧
    decode 0x00001002#32 = .ok (.eret false 1) ∧
    decode 0x00480405#32 = .ok (.csrw false 9 0x20) ∧
    decode 0x0048A16D#32 = .ok (.rinkq false 9 10 11) :=
  ⟨rfl, rfl, rfl, rfl, rfl, rfl, rfl, rfl, rfl, rfl, rfl, rfl, rfl, rfl, rfl, rfl, rfl⟩

theorem test_worked_vector :
    decode 0x30082060#32 = .ok (.vfaddF32 false 1 2 3 .rne) ∧
    decode 0x28082060#32 = .ok (.vadd false 1 2 3) ∧
    decode 0x2C082100#32 = .ok (.vaddScalar false 1 2 8) ∧
    decode 0x34208219#32 = .ok (.vffmaF64 false 4 8 16 .rtz) ∧
    decode 0x4408280E#32 = .ok (.vcvtE4m3F32 false 1 2 true .rne) ∧
    decode 0x48082002#32 = .ok (.vsqrtF32 false 1 2 .rne) ∧
    decode 0x4C082062#32 = .ok (.vcmpF32 false 1 2 3 .lt) ∧
    decode 0x50082021#32 = .ok (.vshflx false 1 2 1) ∧
    decode 0x50402006#32 = .ok (.vredaddF32 false 8 2) ∧
    decode 0x50008015#32 = .ok (.stom false 0 8) ∧
    decode 0x54082060#32 = .ok (.vdp4s false 1 2 3) ∧
    decode 0x58420003#32 = .ok (.rqntE4m3 false 8 32 .none .rne) ∧
    decode 0x58220320#32 = .ok (.rqntE2m1 false 4 32 true .h32 .rsr) ∧
    decode 0x2C10118B#32 = .ok (.vshlScalar false 2 1 12) :=
  ⟨rfl, rfl, rfl, rfl, rfl, rfl, rfl, rfl, rfl, rfl, rfl, rfl, rfl, rfl⟩

theorem test_worked_memory :
    decode 0x5C40407C#32 = .ok (.vldE false 8 4 3 .base) ∧
    decode 0x6040C01A#32 = .ok (.vstW128 false 8 12 0 .scratch) ∧
    decode 0x64206209#32 = .ok (.vatomCas32 false 4 6 false .device .acqRel false) ∧
    decode 0x64186A80#32 = .ok (.vatomAdd32 false 3 6 true .device .commutative false) ∧
    decode 0x68404202#32 = .ok (.sld64 false 8 4 2) ∧
    decode 0x6C108062#32 = .ok (.acp16 false 2 8 3) ∧
    decode 0x6C48C007#32 = .ok (.boarr false 9 12) ∧
    decode 0x6C48A18B#32 = .ok (.waitaEq false 9 10 12) ∧
    decode 0x6C48A193#32 = .ok (.lwait false 9 10 12) ∧
    decode 0x6C00004E#32 = .ok (.fenceRel false .device) ∧
    decode 0x70804102#32 = .ok (.ldt8 false 16 4 8) :=
  ⟨rfl, rfl, rfl, rfl, rfl, rfl, rfl, rfl, rfl, rfl, rfl⟩

theorem test_worked_matrix_and_net :
    decode 0x77110303#32 = .ok (.mma false true true 2 16 24) ∧
    decode 0x75090304#32 = .ok (.mloop false false true 1 16 24) ∧
    decode 0x7500B125#32 = .ok (.macc false 32 true 3 9) ∧
    decode 0x74128126#32 = .ok (.maccw false false 2 40 9) ∧
    decode 0x74280007#32 = .ok (.mzero false 5) ∧
    decode 0x78004140#32 = .ok (.gpost false 4 10) ∧
    decode 0x7848A001#32 = .ok (.gcancel false 9 10) ∧
    decode 0x78508003#32 = .ok (.grd false 10 8) ∧
    decode 0x78010005#32 = .ok (.rput false 16) ∧
    decode 0x78008127#32 = .ok (.rflag false 8 9) :=
  ⟨rfl, rfl, rfl, rfl, rfl, rfl, rfl, rfl, rfl, rfl⟩

/-- Words that name no row (03 R91 check 1) or carry a reserved field (check 2), and fewer than four bytes. -/
theorem test_decode_refuses :
    decode 0x7C000000#32 = .error .selector ∧ decode 0x0000001F#32 = .error .selector ∧
    decode 0x00080000#32 = .error .reserved ∧ decode 0x44000160#32 = .error .reserved ∧
    decode 0x30082067#32 = .error .selector ∧
    decodeBytes [0x60, 0x20, 0x08] = .error .short :=
  ⟨rfl, rfl, rfl, rfl, rfl, rfl⟩

/-! ## Well-formedness: a term that breaks each limit is refused, with its check -/

/-- Check 1: a compare of integers has no unordered conditions (03 R89). Check 2: fields with few values. -/
theorem test_illFormed_values :
    WellFormed.check (.vcmpS32 false 1 2 3 .un) = some 1 ∧
    WellFormed.check (.eret false 2) = some 2 ∧
    WellFormed.check (.wfuse false 24) = some 2 ∧
    WellFormed.check (.wsplit false 64) = some 2 ∧
    WellFormed.check (.bars false 0 8) = some 2 ∧
    WellFormed.check (.mma false false false 0 16 20) = some 2 ∧
    WellFormed.check (.vldW32 false 8 4 3 .pair) = some 2 ∧
    WellFormed.check (.vatomFadd32 false 8 4 false .device .quantum false) = some 2 ∧
    WellFormed.check (.vatomAdd32 false 8 4 true .device .commutative true) = some 2 := by
  decide

/-- Check 3: pairs, groups, mask registers and the masks and target of a multiway branch (02 R62; 05 R130). -/
theorem test_illFormed_registers :
    WellFormed.check (.sadd64 false 9 10 12) = some 3 ∧
    WellFormed.check (.sadd64 false 8 11 12) = some 3 ∧
    WellFormed.check (.vcmpF32 false 16 2 3 .eq) = some 3 ∧
    WellFormed.check (.mbr false 4 14 2 0) = some 3 ∧
    WellFormed.check (.mbr false 0 1 2 0) = some 3 ∧
    WellFormed.check (.rqntE2m1 false 2 32 true .h32 .rsr) = some 3 ∧
    WellFormed.check (.rqntE2m3 false 124 32 .none .rne) = some 3 ∧
    WellFormed.check (.vldW128 false 10 4 3 .base) = some 3 ∧
    WellFormed.check (.vatomCas64 false 10 4 false .device .acqRel false) = some 3 ∧
    WellFormed.check (.ldt32 false 8 4 8) = some 3 ∧
    WellFormed.check (.rput false 4) = some 3 := by
  decide

theorem test_wellFormed_mma : WellFormed (.mma false true true 2 16 24) := by
  unfold WellFormed; decide


/-! ## States that meet the hypotheses of the statements

One block of one wave of eight lanes in slice 0 of core 0, whose context maps the first GiB of die 0 flat. -/

def demoWave : Wave := loadedWave 2 1
def demoBlock : Block := loadedBlock 1
/-- The machine with that wave, block and context as given, about to run an instruction of the wave. -/
def demoState (w : Wave) (b : Block) (x : Context) : State :=
  { State.loaded State.reset with cur := some 0, waves := [(0, w)], blocks := [(1, b)], ctxs := [(0, x)] }
def demo : State := demoState demoWave demoBlock loadedContext

/-- The wave with scalar registers, vector registers (one value in every lane) and m0 as given. -/
def demoRegs (ss : List (Nat × Word)) (vs : List (Nat × Word)) (m0 : DWord) : Wave :=
  { demoWave with regs := { demoWave.regs with
      s := ss.foldl (fun m x => m.put 0 x.1 x.2) demoWave.regs.s
      v := vs.foldl (fun m x => (List.range 8).foldl (fun m q => m.put 0 (64 * x.1 + q) x.2) m) demoWave.regs.v
      m := demoWave.regs.m.put 0 0 m0 } }

def readyOperands (w : Wave) (b : Block) (p : Bool) (ops : List Opnd) : Bool :=
  (!p || (w.arrived && w.deferred.isEmpty)) &&
    ops.all fun o => (o.window (w.parked p) b).isNone && !o.busy (w.parked p) && !o.poisoned (w.parked p)

theorem ready_of {s : State} {u : Nat} {w : Wave} {b : Block} {p : Bool} {ops : List Opnd} (hc : s.cur = some u)
    (hw : s.wave u = some w) (hb : s.block w.block = some b) (h : readyOperands w b p ops = true) : Ready s u w b p ops := by
  simp only [readyOperands, Bool.and_eq_true, Bool.or_eq_true, List.all_eq_true, Bool.not_eq_true', Option.isNone_iff_eq_none,
    List.isEmpty_iff] at h
  refine ⟨hc, hw, hb, fun hp => ?_, fun hp => ?_, fun o ho => (h.2 o ho).1.1, fun o ho => (h.2 o ho).1.2, fun o ho => (h.2 o ho).2⟩
  · rcases h.1 with h | h
    · exact absurd (hp.symm.trans h) (by decide +kernel)
    · exact h.1
  · rcases h.1 with h | h
    · exact absurd (hp.symm.trans h) (by decide +kernel)
    · exact h.2


/-! ### Decoding, steps, traps -/

/-- A word that fails each check of 03 R91, in a running unit. -/
theorem witness_NopAndIllegalWords :
    (∀ p, Ready demo 0 demoWave demoBlock p []) ∧ ¬((1 : BitVec 7) = 0 ∧ (0 : BitVec 7) = 0 ∧ (0 : BitVec 7) = 0) ∧
    demo.cur = some 0 ∧ demo.wave 0 = some demoWave ∧
    decode 0x0000001F#32 = .error .selector ∧ decode 0x00080000#32 = .error .reserved ∧
    (decode 0x4C1020DE#32 = .ok (.vcmpN32 false 2 2 6 .un) ∧ WellFormed.check (.vcmpN32 false 2 2 6 .un) = some 1) ∧
    (decode 0x00002002#32 = .ok (.eret false 2) ∧ WellFormed.check (.eret false 2) = some 2) ∧
    (decode 0x0448A185#32 = .ok (.sadd64 false 9 10 12) ∧ WellFormed.check (.sadd64 false 9 10 12) = some 3) :=
  ⟨fun p => ready_of rfl rfl rfl (by cases p <;> decide +kernel), by decide +kernel, rfl, rfl, rfl, rfl, ⟨rfl, rfl⟩, ⟨rfl, rfl⟩, rfl, rfl⟩

/-- The demonstration's wave at unit `u`, whose slice or engine is the next happening. -/
def demoIssue (u k : Nat) (w : Wave) : State :=
  { demo with
    waves := [(u, w)], mem := Memory.write demo.mem loadedPc (leBytes 4 0x04409140)
    agenda := [if k < 8 then .slice 0 k else .fore 0] }
def demoFore : Wave := { demoWave with fore := true }

/-- A wave of slice 0, one of slice 7 and a forerunner, each about to run SADD s8, s9, s10. -/
theorem witness_StepRunsDecoded :
    ∀ e ∈ [(0, 0, demoWave), (7, 28, demoWave), (8, 32, demoFore)],
      let s := demoIssue e.2.1 e.1 e.2.2
      let t := State.takeSlot { s with agenda := [] } 0 e.1 e.2.1
      s.agenda = (if e.1 < 8 then .slice 0 e.1 else .fore 0) :: [] ∧ nextUnit { s with agenda := [] } 0 e.1 = some e.2.1 ∧
        t.wave e.2.1 = some e.2.2 ∧ e.2.2.cancelDue = none ∧ t.block e.2.2.block = some demoBlock ∧
        t.ctx demoBlock.ctx = some loadedContext ∧ fetchAt t loadedContext e.2.2 = .word 0x04409140#32 := by
  decide +kernel

theorem witness_StepRunsDecoded_word :
    decode 0x04409140#32 = .ok (.sadd false 8 9 10) ∧ WellFormed.check (.sadd false 8 9 10) = none := ⟨rfl, rfl⟩

theorem witness_StepRunsEvent : ({ demo with agenda := [.event .dispatchStep] } : State).agenda = .event .dispatchStep :: [] := rfl

def demoHandler : Context := { loadedContext with traph := 0x8000 }
def demoInHandler : Wave := { demoWave with csr := { demoWave.csr with hnd := true, trappc := 0x20040 } }

/-- A wave whose context has a handler; one in its handler, and one whose context has none. -/
theorem witness_TrapTaken :
    (demoWave.arrived = true ∧ demoWave.regs.vBusy = [] ∧ demoWave.deferred = [] ∧ demoWave.csr.hnd = false ∧
      (demoState demoWave demoBlock demoHandler).ctx demoBlock.ctx = some demoHandler ∧ demoHandler.traph ≠ 0) ∧
    (demoInHandler.arrived = true ∧ demoInHandler.regs.vBusy = [] ∧ demoInHandler.deferred = [] ∧
      demoInHandler.csr.hnd = true ∧ demoHandler.compulsory = false ∧
      (demoState demoInHandler demoBlock demoHandler).eventRoom (coreDie (unitCore 0)) 1 = true) ∧
    (loadedContext.traph = 0 ∧ demo.eventRoom (coreDie (unitCore 0)) 1 = true) := by
  decide +kernel

theorem witness_TrapInstructions :
    (Ready (demoState demoWave demoBlock demoHandler) 0 demoWave demoBlock true [] ∧ demoHandler.debugClaim = false) ∧
    Ready (demoState demoWave demoBlock { loadedContext with debugClaim := true }) 0 demoWave demoBlock true [] ∧
      ({ loadedContext with debugClaim := true } : Context).compulsory = false :=
  ⟨⟨ready_of rfl rfl rfl (by decide +kernel), rfl⟩, ready_of rfl rfl rfl (by decide +kernel), rfl⟩

theorem witness_EretReturns :
    (Ready (demoState demoInHandler demoBlock demoHandler) 0 demoInHandler demoBlock true [] ∧ demoInHandler.csr.hnd = true) ∧
    (Ready demo 0 demoWave demoBlock true [] ∧ demoWave.csr.hnd = false) :=
  ⟨⟨ready_of rfl rfl rfl (by decide +kernel), rfl⟩, ready_of rfl rfl rfl (by decide +kernel), rfl⟩

/-! ### Scalar instructions -/

theorem witness_ScalarArithmetic (p : Bool) :
    Ready demo 0 demoWave demoBlock p [.sd 127 1, .ss 0 1, .ss 127 1] ∧ Ready demo 0 demoWave demoBlock p [.sd 0 1, .ss 9 1] ∧
    Ready demo 0 demoWave demoBlock p [.sd 126 2, .ss 0 2, .ss 126 2] ∧ Ready demo 0 demoWave demoBlock p [.sd 8 1, .ss 8 1] :=
  ⟨ready_of rfl rfl rfl (by cases p <;> decide +kernel), ready_of rfl rfl rfl (by cases p <;> decide +kernel),
    ready_of rfl rfl rfl (by cases p <;> decide +kernel), ready_of rfl rfl rfl (by cases p <;> decide +kernel)⟩

theorem witness_ScalarFields (p : Bool) : Ready demo 0 demoWave demoBlock p [.ss 8 1, .ss 127 1, .ss 0 1] :=
  ready_of rfl rfl rfl (by cases p <;> decide +kernel)

theorem witness_LoadImmediates (p : Bool) :
    Ready demo 0 demoWave demoBlock p [.sd 9 1] ∧ Ready demo 0 demoWave demoBlock p [.ss 9 1] :=
  ⟨ready_of rfl rfl rfl (by cases p <;> decide +kernel), ready_of rfl rfl rfl (by cases p <;> decide +kernel)⟩

/-- The demonstration's wave with m3 as given. -/
def demoMask (m0 m3 : DWord) : Wave :=
  { demoWave with regs := { demoWave.regs with m := (demoWave.regs.m.put 0 0 m0).put 0 3 m3 } }

/-- Masks that take and that do not take each branch; a forerunner. -/
theorem witness_Branches :
    (∀ p w, Ready (demoState { demoWave with regs := w } demoBlock loadedContext) 0 { demoWave with regs := w } demoBlock p [])
      ∧ (demoWave.fore = false) ∧
    ((demoMask 0xFF 1).getM 3 &&& (demoMask 0xFF 1).m0 ≠ 0) ∧ ((demoMask 0xFF 0).getM 3 &&& (demoMask 0xFF 0).m0 = 0) ∧
    ((demoMask 0xFF 0xFF).m0 ≠ 0 ∧ (demoMask 0xFF 0xFF).getM 3 &&& (demoMask 0xFF 0xFF).m0 = (demoMask 0xFF 0xFF).m0) ∧
    ((demoMask 0 0xFF).m0 = 0) ∧
    (∀ p, Ready (demoState demoFore demoBlock loadedContext) 0 demoFore demoBlock p []) ∧ demoFore.fore = true := by
  refine ⟨fun p w => ⟨rfl, rfl, rfl, fun _ => rfl, fun _ => rfl, ?_, ?_, ?_⟩, rfl, by decide +kernel, by decide +kernel, by decide +kernel, rfl,
    fun p => ready_of rfl rfl rfl (by cases p <;> decide +kernel), rfl⟩ <;> exact fun o h => nomatch h

/-- A negative, a zero and a positive register. -/
theorem witness_ScalarBranches :
    ∀ x ∈ [0xFFFFFFFF#32, 0, 1], ∀ p,
      Ready (demoState (demoRegs [(8, x)] [] 0xFF) demoBlock loadedContext) 0 (demoRegs [(8, x)] [] 0xFF) demoBlock p [.ss 8 1] ∧
      (demoRegs [(8, x)] [] 0xFF).rdS 8 = x := by
  intro x hx p
  simp only [List.mem_cons, List.not_mem_nil, or_false] at hx
  rcases hx with rfl | rfl | rfl <;> exact ⟨ready_of rfl rfl rfl (by cases p <;> decide +kernel), by decide +kernel⟩

/-- An aligned target and one that is not. -/
theorem witness_Jumps (p : Bool) :
    (Ready (demoState (demoRegs [(8, 0x20040)] [] 0xFF) demoBlock loadedContext) 0 (demoRegs [(8, 0x20040)] [] 0xFF) demoBlock p
        [.sd 2 2, .ss 8 2] ∧ ((demoRegs [(8, 0x20040)] [] 0xFF).rdS64 8).toNat % 4 = 0) ∧
    Ready (demoState (demoRegs [(8, 0x20040)] [] 0xFF) demoBlock loadedContext) 0 (demoRegs [(8, 0x20040)] [] 0xFF) demoBlock p
        [.ss 8 2] ∧
    (Ready (demoState (demoRegs [(8, 0x20043)] [] 0xFF) demoBlock loadedContext) 0 (demoRegs [(8, 0x20043)] [] 0xFF) demoBlock p
        [.sd 2 2, .ss 8 2] ∧ (((demoRegs [(8, 0x20043)] [] 0xFF).parked p).rdS64 8).toNat % 4 ≠ 0) :=
  ⟨⟨ready_of rfl rfl rfl (by cases p <;> decide +kernel), by decide +kernel⟩, ready_of rfl rfl rfl (by cases p <;> decide +kernel),
    ready_of rfl rfl rfl (by cases p <;> decide +kernel), by cases p <;> decide +kernel⟩

/-! ### Control and status registers, waiting, lanes -/

theorem witness_ControlReads (p : Bool) :
    Ready demo 0 demoWave demoBlock p [.sd 7 1] ∧ demo.ctx demoBlock.ctx = some loadedContext ∧
    Ready (demoState demoFore demoBlock loadedContext) 0 demoFore demoBlock p [.sd 7 1] ∧
    Ready demo 0 demoWave demoBlock (p || demoWave.lacksRoom 4) [.sd 7 1] ∧ (demo.ctx demoBlock.ctx).isSome = true :=
  ⟨ready_of rfl rfl rfl (by cases p <;> decide +kernel), rfl, ready_of rfl rfl rfl (by cases p <;> decide +kernel),
    ready_of rfl rfl rfl (by cases p <;> decide +kernel), rfl⟩

/-- Also: indices next to those of the map, and the last window base inside and the first beyond an allocation. -/
theorem witness_ControlWrites (p : Bool) :
    Ready demo 0 demoWave demoBlock p [.ss 9 1] ∧ Ready demo 0 demoWave demoBlock p [.sd 9 1] ∧
    (∀ i ∈ [0x00E, 0x00F, 0x016, 0x01F, 0x028, 0x02F, 0x035, 0x3FFF],
      i ∉ (List.range 14).map (· + 0x000) ++ (List.range 6).map (· + 0x010) ++ (List.range 8).map (· + 0x020)
        ++ (List.range 5).map (· + 0x030)) ∧
    (∀ i ∈ [0x01F, 0x026, 0x000], i ∉ (List.range 6).map (· + 0x020)) ∧
    (Ready demo 0 demoWave demoBlock true [] ∧ (demoWave.fore || demoWave.cpt) = false ∧ 8 * (15#5).toNat < demoBlock.vregs ∧
      demoBlock.vregs ≤ 8 * (16#5).toNat) ∧
    (Ready (demoState demoFore demoBlock loadedContext) 0 demoFore demoBlock true [] ∧ (demoFore.fore || demoFore.cpt) = true) :=
  ⟨ready_of rfl rfl rfl (by cases p <;> decide +kernel), ready_of rfl rfl rfl (by cases p <;> decide +kernel), by decide +kernel, by decide +kernel,
    ⟨ready_of rfl rfl rfl (by decide +kernel), by decide +kernel⟩, ready_of rfl rfl rfl (by decide +kernel), by decide +kernel⟩

def demoCompulsory : Context := { loadedContext with compulsory := true }

/-- A wave of unit 4 beside the demonstration's, in the same slice. -/
def demoBeside : Wave := { demoWave with uid := 9 }

/-- Default and compulsory mode; a deadline reached and one to come; two waves ready on a slice, one of which yielded. -/
theorem witness_SleepAndYield (p : Bool) :
    (Ready demo 0 demoWave demoBlock p [.ss 9 1] ∧ Ready demo 0 demoWave demoBlock p [] ∧ demo.cmp demoBlock = false) ∧
    (Ready (demoState demoWave demoBlock demoCompulsory) 0 demoWave demoBlock p [.ss 9 1] ∧
      Ready (demoState demoWave demoBlock demoCompulsory) 0 demoWave demoBlock p [] ∧
      (demoState demoWave demoBlock demoCompulsory).cmp demoBlock = true) ∧
    (∀ t ∈ [4, 5, 6], let s : State := { (demoState { demoWave with wait := .sleep t } demoBlock loadedContext) with pt := 5 }
      s.wave 0 = some { demoWave with wait := .sleep t } ∧ s.runs (0 / 64) = true) ∧
    (let s : State := { demo with
        waves := [(0, demoWave), (1, demoBeside)], cores := [(0, { CoreSt.empty with yielded := [(0, 2)] })] }
     s.boot.thermal ≠ 110 ∧ (sliceCands s 0 0).all (fun m => !m.trapDue s && !m.comp) = true ∧
        (sliceCands s 0 0).map (fun c => (c.unit, c.wave.uid, c.ready s)) = [(0, 2, true), (1, 9, true)] ∧
        (s.core 0).yielded.find 0 = some 2 ∧ nextUnit s 0 0 = some 1) :=
  ⟨⟨ready_of rfl rfl rfl (by cases p <;> decide +kernel), ready_of rfl rfl rfl (by cases p <;> decide +kernel), by decide +kernel⟩,
    ⟨ready_of rfl rfl rfl (by cases p <;> decide +kernel), ready_of rfl rfl rfl (by cases p <;> decide +kernel), by decide +kernel⟩,
    by decide +kernel, by decide +kernel⟩


/-- Two waves of one block, in units 0 and 1. -/
def demoPair (w m : Wave) : State := { demoState w demoBlock loadedContext with waves := [(0, w), (1, m)] }
def demoExiting : Wave := { demoWave with exited := 0x0F }
def demo16 : Wave := launchWave 2 1 16 0 0x20010 0 false
def demo16Block : Block := { demoBlock with lanes := 16 }

/-- A wave with lanes left and one whose last lanes leave; a wave of 16 lanes beside three free slots, and one of 64 lanes whose
parts of 16 fill the slice. -/
theorem witness_LanesLeaveAndSplit :
    (let w := demoRegs [] [] 0x7F
     Ready (demoState w demoBlock loadedContext) 0 w demoBlock true [] ∧
       (w.fore = false ∧ w.regs.vBusy = [] ∧ (w.exited ||| w.m0).getLsbD 7 = false)) ∧
    (let w := { demoExiting with regs := { demoExiting.regs with m := [(0, 0xF0)] } }
     let s := demoState w demoBlock loadedContext
     Ready s 0 w demoBlock true [] ∧ (w.fore = false ∧ w.cpt = false ∧ w.regs.vBusy = [] ∧
       (∀ k < w.lanes.length, (w.exited ||| w.commit.m0).getLsbD k = true) ∧ (s.mat 0).queue = [] ∧ demoBlock.stack = [] ∧
       ∀ uw ∈ s.waves, uw.2.block = w.block → uw.1 = 0)) ∧
    (let s := demoState demo16 demo16Block loadedContext
     Ready s 0 demo16 demo16Block true [] ∧ (demo16.fore = false ∧ demo16.cpt = false ∧ demo16.csr.hnd = false ∧
       demo16.regs.vBusy = [] ∧ demo16.width / (8#7).toNat = 2 ∧
       2 ≤ (s.freeSlots 0 (unitSlice 0)).length + 1 ∧
       demo16.lanes.length = demo16.width ∧ demo16.width ≤ 64 ∧ SMap.sorted 0 demo16.commit.regs.v = true ∧
       (∀ i < 2, demo16.exited.getLsbD (i * 8) = false) ∧
       ∀ uw ∈ s.waves, uw.1 = 0 ∧ uw.2 = demo16 ∧ uw.2.wait = .none)) ∧
    (let w := launchWave 2 1 64 0 0x20010 0 false
     let s := demoState w { demoBlock with lanes := 64 } loadedContext
     Ready s 0 w { demoBlock with lanes := 64 } true [] ∧ w.width / (16#7).toNat = 4 ∧
       (s.freeSlots 0 (unitSlice 0)).length + 1 = 4 ∧ w.width ≤ 64) := by
  exact ⟨⟨ready_of rfl rfl rfl (by decide +kernel), by decide +kernel⟩,
    ⟨ready_of rfl rfl rfl (by decide +kernel), by decide +kernel⟩, ⟨ready_of rfl rfl rfl (by decide +kernel), by decide +kernel⟩,
    ready_of rfl rfl rfl (by decide +kernel), by decide +kernel⟩

/-- The demonstration's block with a count, an expected count and a phase at barrier 5. -/
def demoArrived (n c : Nat) (g : Bool) : Block := { demoBlock with barriers := [(5, ⟨c, n, g⟩)] }
/-- A wave that has arrived at barrier 5 in a phase. -/
def demoTagged (g : Bool) : Wave := { demoWave with tags := [none, none, none, none, none, some g, none, none] }
def demoGroup : Group := ⟨0, 0, ⟨2, 1, false⟩⟩
/-- A block of a cluster launch of two, at whose barrier one wave has arrived. -/
def demoCluster (w : Wave) (x : Context) : State :=
  { demoState w { demoBlock with groupSize := 2 } x with groups := [(1, demoGroup)] }

/-- BARA and BARS: with two waves expected, and with a count in the register; the last arrival beside a waiter at BARS and one
at BARW. BARW after the phase, and before it with each timeout and in each mode; the same at a cluster's barrier. -/
theorem witness_Barriers :
    (let s := demoPair (demoRegs [(9, 0)] [] 0xFF) demoBeside
     Ready s 0 (demoRegs [(9, 0)] [] 0xFF) demoBlock false [.ss 9 1] ∧ arriveHolds s 0 (demoRegs [(9, 0)] [] 0xFF) demoBlock = false ∧
       (demoBlock.barriers.get Barrier.launch 5).arrivals = 0 ∧ (demoRegs [(9, 0)] [] 0xFF).tags.getD 5 none ≠ some false ∧
       (s.liveWaves demoBlock).length = 2) ∧
    (let w := demoRegs [(9, 3)] [] 0xFF
     let b := demoArrived 1 3 true
     let s := { demoPair w demoBeside with blocks := [(1, b)] }
     Ready s 0 w b false [.ss 9 1] ∧ arriveHolds s 0 w b = false ∧ (w.rdS 9).toNat = 3 ∧
       (b.barriers.get Barrier.launch 5).expected = 3 ∧ w.tags.getD 5 none ≠ some true) ∧
    (let w := demoRegs [(9, 3)] [] 0xFF
     let b := demoArrived 2 3 false
     let s := { demoState w b loadedContext with
       waves := [(0, w), (1, { demoBeside with wait := .bars 5 }), (2, { demoBeside with uid := 10, wait := .barw 5 7 none })] }
     Ready s 0 w b false [.ss 9 1] ∧ (w.fore || w.cpt) = false ∧ arriveHolds s 0 w b = false ∧ (w.rdS 9).toNat ≤ 2048 ∧
       b.uid = w.block ∧ (5#7).toNat < 8 ∧ w.wait = .none ∧ 3 ≤ (b.barriers.get Barrier.launch 5).arrivals + 1) ∧
    (let w := demoRegs [(9, 0)] [] 0xFF
     let b := demoArrived 1 0 false
     let s := { demoState w b loadedContext with waves := [(0, w), (1, { demoBeside with wait := .bars 5 })] }
     Ready s 0 w b false [.ss 9 1] ∧ arriveHolds s 0 w b = false ∧ w.tags.getD 5 none = none ∧ w.wait = .none ∧
       (b.barriers.get Barrier.launch 5).expected = 0 ∧
       ((s.setWave 0 w).liveWaves b).length ≤ (b.barriers.get Barrier.launch 5).arrivals + 1) :=
  ⟨⟨ready_of rfl rfl rfl (by decide +kernel), by decide +kernel⟩, ⟨ready_of rfl rfl rfl (by decide +kernel), by decide +kernel⟩, ⟨ready_of rfl rfl rfl (by decide +kernel), by decide +kernel⟩,
    ready_of rfl rfl rfl (by decide +kernel), by decide +kernel⟩

theorem witness_Barriers_waits :
    (∀ n ∈ [0, 1, 0xFFFFFFFF], ∀ g ∈ [false, true],
      let w : Wave := { demoRegs [(9, BitVec.ofNat 32 n)] [] 0xFF with tags := (demoTagged false).tags }
      let b := demoArrived 1 2 g
      readyOperands w b false [.sd 8 1, .ss 9 1] = true ∧ (w.fore || w.cpt) = false ∧ w.tags.getD 5 none = some false ∧
        (b.barriers.get Barrier.launch 5).phase = g ∧ (w.rdS 9).toNat = n) ∧
    ((demoState demoWave demoBlock loadedContext).cmp demoBlock = false ∧
      (demoState demoWave demoBlock demoCompulsory).cmp demoBlock = true) := by
  decide +kernel

theorem witness_Barriers_cluster :
    (∀ n ∈ [0, 2, 0xFFFFFFFF], ∀ t ∈ [none, some false, some true],
      let w : Wave := { demoRegs [(9, BitVec.ofNat 32 n)] [] 0xFF with ctag := t }
      let s := demoCluster w loadedContext
      readyOperands w demoBlock false [.sd 8 1, .ss 9 1] = true ∧ (w.fore || w.cpt) = false ∧
        s.groups.find 1 = some demoGroup ∧ s.released w .cluster = true ∧ (w.rdS 9).toNat = n) ∧
    (demoCluster demoWave demoCompulsory).cmp demoBlock = true := by
  decide +kernel

theorem witness_Barriers_illegal :
    (({ demoGroup with bar := ⟨3, 1, false⟩ } : Group).bar.arrivals + 1 < (3#32).toNat) ∧
    (Ready demo 0 demoWave demoBlock false [.sd 8 1, .ss 9 1] ∧ demoBlock.groupSize < 2) :=
  ⟨by decide +kernel, ready_of rfl rfl rfl (by decide +kernel), by decide +kernel⟩

/-- Each wait, its deadline passed, reached and to come, in each mode: with every earlier result arrived, with a pending
deferred error, and with a result outstanding. -/
theorem witness_WaitsTimeOut :
    ∀ k ∈ [Wait.barw 5 8 (some 6), .cbarw 8 (some 6), .bowait 1 16 8 true (some 6), .waita 1 16 8 true 3 (some 6),
        .lwait 1 2 8 (some 6)], ∀ x ∈ [loadedContext, demoCompulsory], ∀ t ∈ [5, 6, 7],
      (∀ n ∈ [0, 1],
        let w : Wave := { demoWave with wait := k, deferred := List.replicate n ⟨0x05, 4096, false, 0x20010, 0⟩ }
        let s : State := { (demoState w demoBlock x) with pt := t }
        s.wave 0 = some w ∧ s.block 1 = some demoBlock ∧ s.runs (0 / 64) = true ∧ s.cmp demoBlock = x.compulsory ∧
          w.arrived = true ∧ w.regs.vBusy = [] ∧ (6 < s.pt ↔ t = 7)) ∧
      (let w : Wave := { demoWave with wait := k, rb := [⟨9, 0x20010, 4, [.s 8], [], 1, 0, false, .none⟩] }
       let s : State := { (demoState w demoBlock x) with pt := t }
       s.wave 0 = some w ∧ s.runs (0 / 64) = true ∧ w.arrived = false) := by
  decide +kernel

/-- A forerunner context whose block has no live wave, a full queue, and room; a wave whose entry is there and one that waits. -/
theorem witness_DecisionQueue :
    (let s : State := { (demoState demoFore demoBlock loadedContext) with cur := some 32, waves := [(32, demoFore)] }
     Ready s 32 demoFore demoBlock false [.ss 9 1] ∧ demoFore.fore = true ∧ s.liveWaves demoBlock = []) ∧
    (∀ n ∈ [63, 64],
      let b : Block := { demoBlock with dq := List.replicate n 7 }
      let s : State := { (demoState demoWave b loadedContext) with cur := some 32, waves := [(0, demoWave), (32, demoFore)] }
      readyOperands demoFore b false [.ss 9 1] = true ∧ s.wave 32 = some demoFore ∧ s.liveWaves b ≠ [] ∧
        (b.dq.length < 64 ↔ n = 63)) ∧
    (Ready demo 0 demoWave demoBlock false [.sd 8 1] ∧ demoWave.fore = false ∧ demoWave.lacksRoom 4 = false ∧
      demoBlock.dq[demoWave.dqPos - demoBlock.dqBase]? = none) ∧
    (let b : Block := { demoBlock with dq := [5, 6], dqBase := 3 }
     let w : Wave := { demoWave with dqPos := 4 }
     Ready (demoState w b loadedContext) 0 w b false [.sd 8 1] ∧ b.dq[w.dqPos - b.dqBase]? = some 6) :=
  ⟨⟨ready_of rfl rfl rfl (by decide +kernel), by decide +kernel⟩, by decide +kernel,
    ⟨ready_of rfl rfl rfl (by decide +kernel), by decide +kernel⟩, ready_of rfl rfl rfl (by decide +kernel), by decide +kernel⟩

/-- The meeting wave as a stack entry saves it, and a path wave of it that has reached the join. -/
def demoSaved : SavedWave := ⟨0, { demoWave with wait := .mbr 9 3 1 0x20040 [0] }⟩
def demoPath (uid : Nat) : Wave := { demoWave with uid := uid, cpt := true, kin := [2], pc := 0x20040 }
def demoStacked (paths : List (DWord × List (Nat × Nat))) : Block := { demoBlock with stack := [⟨0x20040, paths, [demoSaved]⟩] }

/-- MBR beside another wave; MBR of the only wave, its lowest path the first, the second or the fallthrough; BJOIN beside
another path wave, of the last one, at another address, and outside a path wave. -/
theorem witness_MultiwayBranch :
    (let s := demoPair demoWave demoBeside
     Ready s 0 demoWave demoBlock true [.ss 9 2] ∧ (demoBlock.stack.length < 8 ∧ arriveHolds s 0 demoWave demoBlock = false ∧
       s.wave 1 = some demoBeside ∧ demoBeside.block = 1 ∧ demoBeside.fore = false ∧
       ∀ x ∈ s.waves, x.2.block = 1 → x.2.wait = .none ∧ x.2.dead = false)) ∧
    (∀ e ∈ [(0x80#64, 0#64, 0), (0, 0x80, 1), (0, 0, 2)],
      let w : Wave := { demoWave with regs := { demoWave.regs with m := [(0, 0x80), (3, e.1), (4, e.2.1)] } }
      readyOperands w demoBlock true [.ss 9 2] = true ∧
        arriveHolds (demoState w demoBlock loadedContext) 0 w.commit demoBlock = false ∧ w.commit.active = [7] ∧
        lanePath w.commit 3 2 7 = e.2.2) ∧
    (let b := demoStacked []
     let s : State := { (demoState (demoPath 5) b loadedContext) with waves := [(0, demoPath 5), (1, demoPath 6)] }
     Ready s 0 (demoPath 5) b true [] ∧ ((demoPath 5).cpt = true ∧ (demoPath 5).pc = 0x20040 ∧
       arriveHolds s 0 (demoPath 5) b = false ∧ s.wave 1 = some (demoPath 6) ∧
       ∀ x ∈ s.waves, x.2.block = 1 → x.2.cpt = true ∧ x.2.wait = .none)) ∧
    (let b := demoStacked [(0x20080, [])]
     let s := demoState (demoPath 5) b loadedContext
     Ready s 0 (demoPath 5) b true [] ∧ (arriveHolds s 0 (demoPath 5).commit b = false ∧ (demoPath 5).exited = 0 ∧
       demoSaved.wave.exited.getLsbD 0 = false ∧ 0 < demoSaved.wave.lanes.length)) ∧
    (let w : Wave := { demoPath 5 with pc := 0x20044 }
     Ready (demoState w (demoStacked []) loadedContext) 0 w (demoStacked []) true [] ∧ w.pc ≠ 0x20040) ∧
    (Ready demo 0 demoWave demoBlock true [] ∧ demoWave.cpt = false) :=
  ⟨⟨ready_of rfl rfl rfl (by decide +kernel), by decide +kernel⟩, by decide +kernel,
    ⟨ready_of rfl rfl rfl (by decide +kernel), by decide +kernel⟩, ⟨ready_of rfl rfl rfl (by decide +kernel), by decide +kernel⟩,
    ⟨ready_of rfl rfl rfl (by decide +kernel), by decide +kernel⟩, ready_of rfl rfl rfl (by decide +kernel), by decide +kernel⟩

/-- The upper of two waves of width 8. -/
def demoUpper : Wave := launchWave 9 1 8 8 0x20010 0 false
/-- The lower of them, waiting for it at WFUSE 16. -/
def demoLower : Wave := { launchWave 2 1 8 0 0x20010 0 true with wait := .wfuse 16 }

/-- Bad widths for a wave of width 8; a wave whose partner has not come; the last partner. -/
theorem witness_Fusion :
    (Ready demo 0 demoWave demoBlock true [] ∧ ((demoWave.fore || demoWave.cpt || demoWave.csr.hnd) = false ∧
      demoWave.regs.vBusy = [] ∧ (8#7).toNat ≤ demoWave.width ∧ (64#7).toNat / demoWave.width = 8)) ∧
    (let w := launchWave 2 1 8 0 0x20010 0 true
     let s : State := { (demoState w demo16Block loadedContext) with waves := [(0, w), (1, demoUpper)] }
     Ready s 0 w demo16Block true [] ∧ (w.width < (16#7).toNat ∧ (16#7).toNat / w.width ≠ 8 ∧
       (∀ x ∈ s.waves, x.2.wait = .none) ∧
       fuseState (s.setWave 0 { w with wait := .wfuse 16, word := s.ir }) demo16Block { w with wait := .wfuse 16, word := s.ir }
         16 = .wait)) ∧
    (let s : State := { (demoState demoLower demo16Block loadedContext) with
       cur := some 1, waves := [(0, demoLower), (1, demoUpper)] }
     Ready s 1 demoUpper demo16Block true [] ∧ (demoUpper.width = 8 ∧ demoUpper.first = 8 ∧
       demoUpper.lanes = [8, 9, 10, 11, 12, 13, 14, 15] ∧ demo16Block.uid = demoUpper.block ∧ demoLower.block = demoUpper.block ∧
       demoLower.width = 8 ∧ demoLower.first = 0 ∧ demoLower.lanes = [0, 1, 2, 3, 4, 5, 6, 7] ∧ demoLower.wait = .wfuse 16)) :=
  ⟨⟨ready_of rfl rfl rfl (by decide +kernel), by decide +kernel⟩, ⟨ready_of rfl rfl rfl (by decide +kernel), by decide +kernel⟩,
    ready_of rfl rfl rfl (by decide +kernel), by decide +kernel⟩


/-! ### Records and queries -/

/-- The translation that maps the first GiB flat. -/
def demoLeaf : TlbEntry := ⟨0, 0, 2 ^ 30, 0, true, true, false, 0, none, none, 0⟩
def demoArgs : Wave := demoRegs [(16, 0x8040), (18, 2), (20, 0x8041)] [] 0xFF
/-- A record at 0x8040 with a JOIN count of 2, in state WAITING. -/
def demoJoined (w : Wave) (b : Block) (x : Context) : State :=
  { demoState w b x with mem := Memory.write (Memory.write demo.mem 0x8050 (leBytes 4 2)) 0x8065 (leBytes 1 1) }

/-- EVT; SPAWN in each mode, from a replay-safe record, and of a misaligned address; JOIN of 0, of the whole count and of more;
CANCEL words that are legal and that are not. -/
theorem witness_RecordInstructions :
    (Ready (demoJoined demoArgs demoBlock loadedContext) 0 demoArgs demoBlock false [.ss 16 2, .ss 18 1] ∧
      (demoArgs.fore = false ∧ (demoArgs.rdS64 16).toNat % 64 = 0 ∧ (demoArgs.rdS64 20).toNat % 64 ≠ 0 ∧
        (demoJoined demoArgs demoBlock loadedContext).released demoArgs .device = true ∧
        (demoJoined demoArgs demoBlock demoCompulsory).cmp demoBlock = true ∧ demoBlock.rsafe = false ∧ demoArgs.denied = [] ∧
        demoArgs.rdS 0 = 0 ∧ (demoArgs.rdS 18).toNat = 2 ∧ 2 ≤ (demoJoined demoArgs demoBlock loadedContext).joinc 0x8040 ∧
        (demoJoined demoArgs demoBlock loadedContext).joinc 0x8040 < 3)) ∧
    (walk (demoJoined demoArgs demoBlock loadedContext) loadedContext 0x8040 true true = .ok demoLeaf ∧
      demoLeaf.phys 0x8040 = 0x8040 ∧ demoLeaf.phys 0x8040 + 64 ≤ 2 ^ 52) ∧
    (∀ n ∈ [0x00, 0x01, 0xFF2, 0x0F7], ctlOk (BitVec.ofNat 32 n) = true) ∧
    (∀ n ∈ [0x08, 0x10000, 0x10, 0x1002, 0x103], ctlOk (BitVec.ofNat 32 n) = false) :=
  ⟨⟨ready_of rfl rfl rfl (by decide +kernel), by decide +kernel⟩,
    by decide +kernel, by decide +kernel, by decide +kernel⟩

def demoRink (a b : Nat) : Wave := demoRegs [(10, BitVec.ofNat 32 a), (11, BitVec.ofNat 32 b)] [] 0xFF
def demoTwo (cmp : Bool) : Context := { loadedContext with nv := 2, table := [0, 1], compulsory := cmp }

/-- Every selector in each mode, with its argument at its last value and beyond it. -/
theorem witness_RinkAndHomeQueries :
    (∀ a ∈ List.range 8, ∀ b ∈ [0, 1, 2, 63, 64],
      let s := demoState (demoRink a b) demoBlock (demoTwo false)
      readyOperands (demoRink a b) demoBlock false [.sd 9 1, .ss 10 1, .ss 11 1] = true ∧
        readyOperands (demoRink a b) demoBlock false [.sd 9 1, .ss 10 2] = true ∧ s.ctx 0 = some (demoTwo false) ∧
        ((demoRink a b).rdS 10).toNat = a ∧ ((demoRink a b).rdS 11).toNat = b) ∧
    ((demoTwo false).nv = 2 ∧ (demoTwo true).compulsory = true ∧
      (demoState demoWave demoBlock (demoTwo false)).boot.lct.find (32 * (demoTwo false).table.getD (63 / 32) 0 + 63 % 32) =
        some 31) := by
  decide +kernel

/-! ### Vector instructions -/

/-- m0 partly set, with an exited lane, values in the registers, and generators. -/
def demoVector : Wave :=
  { demoRegs [(9, 5)] [(1, 0x40400000), (2, 0xC0000000), (3, 0x3F800000), (16, 0x01020304)] 0xB5 with exited := 0x40 }

theorem witness_VectorIntegers :
    Ready (demoState demoVector demoBlock loadedContext) 0 demoVector demoBlock false [.vd 127 1, .vs 0 1, .vs 127 1] ∧
    Ready (demoState demoVector demoBlock loadedContext) 0 demoVector demoBlock false [.vd 0 2, .vs 126 2, .vs 0 2] ∧
    Ready (demoState demoVector demoBlock loadedContext) 0 demoVector demoBlock false [.vs 1 1, .vs 1 1, .sl 9 1] ∧
    Ready (demoState demoVector demoBlock loadedContext) 0 demoVector demoBlock false [.vd 2 2, .vs 4 2, .sl 126 2] ∧
    Ready (demoState demoVector demoBlock loadedContext) 0 demoVector demoBlock false [.vd 1 1, .vs 2 1, .es 2 1] ∧
    demoVector.fore = false ∧
    (Ready (demoState demoFore demoBlock loadedContext) 0 demoFore demoBlock false [.vd 1 1, .vs 2 1, .vs 3 1] ∧ demoFore.fore = true) :=
  ⟨ready_of rfl rfl rfl (by decide +kernel), ready_of rfl rfl rfl (by decide +kernel), ready_of rfl rfl rfl (by decide +kernel),
    ready_of rfl rfl rfl (by decide +kernel), ready_of rfl rfl rfl (by decide +kernel), rfl,
    ready_of rfl rfl rfl (by decide +kernel), rfl⟩

/-- 1 in binary32, and the least subnormal of E2M1. -/
theorem witness_RoundingIsExact :
    (0x3F800000 < 2 ^ f32.bits ∧ f32.decode 0x3F800000 = .fin false (2 ^ 23) (-23)) ∧
      (1 < 2 ^ e2m1.bits ∧ e2m1.decode 1 = .fin false 1 (-1)) := by
  decide +kernel

/-- The demonstration's vectors with invalid and division enabled, register 2 a signalling NaN. -/
def demoTrapping : Wave :=
  { demoRegs [] [(1, 0x40400000), (2, 0x7F800001), (3, 0x7F800001)] 0xB5 with csr := { demoWave.csr with ftrapen := 0x3 } }

/-- The demonstration's vectors with lanes 0 and 3 of register 1 poisoned. -/
def demoDirty : Wave := { demoVector with regs := { demoVector.regs with vPoison := [laneKey 1 0, laneKey 1 3] } }

/-- Operations that raise no enabled exception, one that does, and one over a poisoned destination it does not read. -/
theorem witness_FloatingPoint :
    (Ready (demoState demoVector demoBlock loadedContext) 0 demoVector demoBlock false [.vs 1 1, .vs 2 1, .vs 3 1] ∧
      Ready (demoState demoDirty demoBlock loadedContext) 0 demoDirty demoBlock false [.vd 1 1, .vs 2 1, .vs 3 1] ∧
      Ready (demoState demoVector demoBlock loadedContext) 0 demoVector demoBlock false [.vs 4 2, .vs 2 2, .vs 2 2] ∧
      demoVector.csr.ftrapen = 0 ∧ demoVector.fore = false) ∧
    (Ready (demoState demoTrapping demoBlock loadedContext) 0 demoTrapping demoBlock false [.vs 1 1, .vs 2 1, .vs 3 1] ∧
      demoTrapping.raisesFirst (fun q => (fpAdd f32 .rne (demoTrapping.rdV 2 q).toNat (demoTrapping.rdV 3 q).toNat 0).flags) 0) := by
  refine ⟨⟨ready_of rfl rfl rfl (by decide +kernel), ready_of rfl rfl rfl (by decide +kernel), ready_of rfl rfl rfl (by decide +kernel),
    rfl, rfl⟩, ready_of rfl rfl rfl (by decide +kernel), by decide +kernel, by decide +kernel, fun j hj => absurd hj (Nat.not_lt_zero j)⟩

theorem witness_Conversions :
    (Ready (demoState demoVector demoBlock loadedContext) 0 demoVector demoBlock false [.vd 1 1, .vs 2 1] ∧
      Ready (demoState demoVector demoBlock loadedContext) 0 demoVector demoBlock false [.vd 2 2, .vs 2 1] ∧
      Ready (demoState demoVector demoBlock loadedContext) 0 demoVector demoBlock false [.vd 1 1, .vs 2 2] ∧
      Ready (demoState demoVector demoBlock loadedContext) 0 demoVector demoBlock false [.vd 2 2, .vs 4 2] ∧
      demoVector.csr.ftrapen = 0) ∧
    (Ready (demoState demoTrapping demoBlock loadedContext) 0 demoTrapping demoBlock false [.vd 1 1, .vs 2 1] ∧
      demoTrapping.raisesFirst (fun q => (cvtRound f32 f16 .rne false (demoTrapping.rdV 2 q).toNat 0).flags) 0) := by
  refine ⟨⟨ready_of rfl rfl rfl (by decide +kernel), ready_of rfl rfl rfl (by decide +kernel),
    ready_of rfl rfl rfl (by decide +kernel), ready_of rfl rfl rfl (by decide +kernel), rfl⟩,
    ready_of rfl rfl rfl (by decide +kernel), by decide +kernel, by decide +kernel, fun j hj => absurd hj (Nat.not_lt_zero j)⟩

/-- Compares that raise nothing enabled, that trap, and with m0 zero; a mask with and one without a set bit. -/
theorem witness_ComparisonsAndMasks :
    (Ready (demoState demoVector demoBlock loadedContext) 0 demoVector demoBlock false [.vs 1 1, .vs 2 1] ∧
      Ready (demoState demoVector demoBlock loadedContext) 0 demoVector demoBlock false [.vs 2 2, .vs 4 2] ∧
      Ready (demoState (demoMask 0 0) demoBlock loadedContext) 0 (demoMask 0 0) demoBlock false [.vs 1 1, .vs 2 1] ∧
      (demoMask 0 0).active = [] ∧ demoVector.csr.ftrapen = 0) ∧
    (Ready (demoState demoTrapping demoBlock loadedContext) 0 demoTrapping demoBlock false [.vs 1 1, .vs 2 1] ∧
      (f32.decode (demoTrapping.rdV 2 0).toNat).isSnan = true ∧ 0 ∈ demoTrapping.active) ∧
    (Ready (demoState (demoMask 0xFF 0x80) demoBlock loadedContext) 0 (demoMask 0xFF 0x80) demoBlock false [.sd 9 2] ∧
      ((demoMask 0xFF 0x80).getM 3).getLsbD 7 = true ∧ (∀ j < 7, ((demoMask 0xFF 0x80).getM 3).getLsbD j = false) ∧
      (demoMask 0xFF 0).getM 3 = 0 ∧
      Ready (demoState demoVector demoBlock loadedContext) 0 demoVector demoBlock false [.ss 8 2]) :=
  ⟨⟨ready_of rfl rfl rfl (by decide +kernel), ready_of rfl rfl rfl (by decide +kernel), ready_of rfl rfl rfl (by decide +kernel),
    by decide +kernel, rfl⟩, ⟨ready_of rfl rfl rfl (by decide +kernel), by decide +kernel⟩,
    ready_of rfl rfl rfl (by decide +kernel), by decide +kernel, by decide +kernel, by decide +kernel,
    ready_of rfl rfl rfl (by decide +kernel)⟩

theorem witness_Transcendentals :
    (Ready (demoState (demoMask 0 0) demoBlock loadedContext) 0 (demoMask 0 0) demoBlock false [.vd 1 1, .vs 2 1] ∧
      (demoMask 0 0).active = []) ∧
    (Ready (demoState demoVector demoBlock loadedContext) 0 demoVector demoBlock false [.vs 2 2, .vs 4 2] ∧
      Ready (demoState demoVector demoBlock loadedContext) 0 demoVector demoBlock false [.vs 1 1, .vs 2 1] ∧
      demoVector.lacksRoom 64 = false ∧ demoVector.active ≠ [] ∧ demoVector.csr.ftrapen = 0) ∧
    (Ready (demoState demoTrapping demoBlock loadedContext) 0 demoTrapping demoBlock false [.vd 1 1, .vs 2 1] ∧
      demoTrapping.raisesFirst (fun q => (fpSqrt f32 .rne (demoTrapping.rdV 2 q).toNat 0).flags) 0) := by
  refine ⟨⟨ready_of rfl rfl rfl (by decide +kernel), by decide +kernel⟩,
    ⟨ready_of rfl rfl rfl (by decide +kernel), ready_of rfl rfl rfl (by decide +kernel), by decide +kernel⟩,
    ready_of rfl rfl rfl (by decide +kernel), by decide +kernel, by decide +kernel, fun j hj => absurd hj (Nat.not_lt_zero j)⟩

/-- Moves whose sources are clean, with a lane that is not read poisoned and with one that is; a sum over the lanes that raises
invalid, with its trap enabled. -/
theorem witness_LaneMovesAndReductions :
    (Ready (demoState demoDirty demoBlock loadedContext) 0 demoDirty demoBlock false [.vd 1 1, .vx 1 1, .ex 1 1, .vs 3 1] ∧
      Ready (demoState demoDirty demoBlock loadedContext) 0 demoDirty demoBlock false [.vd 1 1, .vx 1 1, .ex 1 1] ∧
      Ready (demoState demoVector demoBlock loadedContext) 0 demoVector demoBlock false [.vd 1 1, .vx 2 1, .ex 2 1, .sl 9 1] ∧
      Ready (demoState demoVector demoBlock loadedContext) 0 demoVector demoBlock false [.sd 8 1, .vs 1 1] ∧
      demoVector.lacksRoom 4 = false ∧ demoVector.csr.ftrapen = 0 ∧ demoDirty.fore = false) ∧
    (let bad (w : Wave) (i : Int) : Bool := decide (0 ≤ i ∧ i < w.lanes.length) && w.regs.vPoison.contains (laneKey (w.phys 1 0) i.toNat)
     (∀ q ∈ demoDirty.active, bad demoDirty 5 = false) ∧ (∀ q ∈ demoDirty.active, bad demoDirty (-1) = false) ∧
     (∃ q ∈ demoDirty.active, bad demoDirty ((q ^^^ 1 : Nat) : Int) = true) ∧
     (∃ q ∈ demoDirty.active, bad demoDirty ((q : Int) - 4) = true) ∧ (∃ q ∈ demoDirty.active, bad demoDirty 3 = true) ∧
     (∀ q ∈ demoDirty.active.filter (fun q => (0xF6#64).getLsbD q), bad demoDirty q = false)) ∧
    (Ready (demoState demoTrapping demoBlock loadedContext) 0 demoTrapping demoBlock false [.sd 8 1, .vs 2 1] ∧
      Ready (demoState demoTrapping demoBlock loadedContext) 0 demoTrapping demoBlock false [.vd 8 1, .vs 2 1] ∧
      demoTrapping.csr.ftrapen.getLsbD 0 = true ∧
      (∃ n ∈ (treeNode (fun x y => fpAdd f32 .rne x y 0)
          (fun q => if demoTrapping.m0.getLsbD q then some (demoTrapping.rdV 2 q).toNat else none) 6 0).log,
        n.2.2.getLsbD 0 = true ∧ 0 ∈ demoTrapping.active ∧ n.1 ≤ 0 ∧ 0 < n.1 + n.2.1) ∧
      ∃ n ∈ (scanAt (fun x y => fpAdd f32 .rne x y 0)
          (fun q => if demoTrapping.m0.getLsbD q then some (demoTrapping.rdV 2 q).toNat else none) 4).2.1, n.2.2.getLsbD 0 = true) :=
  ⟨⟨ready_of rfl rfl rfl (by decide +kernel), ready_of rfl rfl rfl (by decide +kernel), ready_of rfl rfl rfl (by decide +kernel),
    ready_of rfl rfl rfl (by decide +kernel), by decide +kernel⟩, by decide +kernel,
    ready_of rfl rfl rfl (by decide +kernel), ready_of rfl rfl rfl (by decide +kernel), by decide +kernel, by decide +kernel⟩

theorem witness_PackedAndBlocks :
    Ready (demoState demoVector demoBlock loadedContext) 0 demoVector demoBlock false [.vs 1 1, .vs 2 1, .vs 3 1] ∧
    Ready (demoState demoVector demoBlock loadedContext) 0 demoVector demoBlock false [.vd 1 1, .vs 2 1, .es 2 1] ∧
    Ready (demoState demoVector demoBlock loadedContext) 0 demoVector demoBlock false [.ed 1 1, .sl 9 1] ∧
    Ready (demoState demoVector demoBlock loadedContext) 0 demoVector demoBlock false [.ed 1 1, .es 2 1, .vs 3 1] ∧
    Ready (demoState demoVector demoBlock loadedContext) 0 demoVector demoBlock false [.vd 119 9, .vs 96 32] ∧
    Ready (demoState demoVector demoBlock loadedContext) 0 demoVector demoBlock false [.vd 96 32, .vs 0 32] ∧
    demoVector.csr.ftrapen = 0 ∧ demoVector.fore = false ∧
    (Ready (demoState demoTrapping demoBlock loadedContext) 0 demoTrapping demoBlock false [.vd 40 1, .vs 0 32] ∧
      (blockMax ((List.range 32).map fun k => (demoTrapping.rdVk 0 k 0).toNat)).flags.getLsbD 0 = true) :=
  ⟨ready_of rfl rfl rfl (by decide +kernel), ready_of rfl rfl rfl (by decide +kernel), ready_of rfl rfl rfl (by decide +kernel),
    ready_of rfl rfl rfl (by decide +kernel), ready_of rfl rfl rfl (by decide +kernel), ready_of rfl rfl rfl (by decide +kernel),
    rfl, rfl, ready_of rfl rfl rfl (by decide +kernel), by decide +kernel⟩


/-! ### Memory instructions -/

/-- Registers 16 and 17 hold an address in every lane, s16 and s17 the same; register 3 holds 0 in every lane. -/
def demoAddr (n : Nat) : Wave :=
  demoRegs [(16, BitVec.ofNat 32 n), (17, BitVec.ofNat 32 (n / 2 ^ 32))] [(16, BitVec.ofNat 32 n), (17, BitVec.ofNat 32 (n / 2 ^ 32))] 0xB5

/-- Aligned and misaligned addresses, global and in scratch, at its last word and beyond it, and lanes that write one
address. -/
theorem witness_VectorMemory :
    (Ready (demoState (demoAddr 0x9000) demoBlock loadedContext) 0 (demoAddr 0x9000) demoBlock false [.vd 8 4, .sl 16 2, .vs 3 1] ∧
      Ready (demoState (demoAddr 0x9000) demoBlock loadedContext) 0 (demoAddr 0x9000) demoBlock false [.ed 8 1, .vs 16 2] ∧
      Ready (demoState (demoAddr 0x9000) demoBlock loadedContext) 0 (demoAddr 0x9000) demoBlock false [.vs 8 4, .sl 16 1, .vs 3 1] ∧
      Ready (demoState (demoAddr 0x9000) demoBlock loadedContext) 0 (demoAddr 0x9000) demoBlock false [.es 8 1, .vs 16 1]) ∧
    (∀ e ∈ [(AddrMode.base, true), (.pair, true), (.scratch, false), (.scratchBase, false)], ∀ n ∈ [0x9000, 0xFFFC, 0xFFFF, 0x10000],
      let w := demoAddr n
      let s := demoState w demoBlock loadedContext
      laneAddr e.1 w 16 3 7 = n ∧
        ((checkAddr s (s.ctxD demoBlock) demoBlock e.2 true true false 4 n 0).isNone = (n % 4 = 0 && (e.2 || n < 0x10000))) ∧
        scratchConflict s 0 demoBlock [mkAccess s demoBlock e.2 false 4 n] true true none = some s) ∧
    (∀ n ∈ [0x9000, 0x9001], inWindow n = false) ∧
    (let s := demoState (demoAddr 0x9000) demoBlock demoCompulsory
     (scratchConflict s 0 demoBlock [mkAccess s demoBlock false false 4 0x9000] true false none).isSome = true) := by
  refine ⟨⟨ready_of rfl rfl rfl (by decide +kernel), ready_of rfl rfl rfl (by decide +kernel),
    ready_of rfl rfl rfl (by decide +kernel), ready_of rfl rfl rfl (by decide +kernel)⟩, by decide +kernel, by decide +kernel,
    by decide +kernel⟩

/-- Atomics with and without a result, in memory and in scratch, in a replay-safe record too; FADDO in lanes of distinct Q; scalar
accesses at an aligned and a misaligned address. -/
theorem witness_AtomicAndScalarMemory :
    (Ready (demoState (demoAddr 0x9000) demoBlock loadedContext) 0 (demoAddr 0x9000) demoBlock false [.vs 8 4, .vs 16 2] ∧
      Ready (demoState (demoAddr 0x9000) demoBlock loadedContext) 0 (demoAddr 0x9000) demoBlock false [.vs 8 4, .vs 16 1] ∧
      Ready (demoState (demoAddr 0x9000) demoBlock loadedContext) 0 (demoAddr 0x9000) demoBlock false [.sd 8 4, .ss 16 2] ∧
      Ready (demoState (demoAddr 0x9000) demoBlock loadedContext) 0 (demoAddr 0x9000) demoBlock false [.ss 8 4, .ss 16 2] ∧
      Ready (demoState (demoAddr 0x9000) { demoBlock with rsafe := true } loadedContext) 0 (demoAddr 0x9000)
        { demoBlock with rsafe := true } false [.vs 8 1, .vs 16 2]) ∧
    (let w := demoAddr 0x9000
     let s := demoState w demoBlock loadedContext
     (∀ q ∈ w.active, checkAddr s (s.ctxD demoBlock) demoBlock true true false false 8 (laneAddr .pair w 16 0 q) q = none) ∧
       faddoRoom s demoBlock w.active.length = true ∧ (w.active.map fun q => w.lanes.getD q 0).Nodup ∧ w.lacksRoom 64 = false ∧
       checkAddr s (s.ctxD demoBlock) demoBlock true true true false 16 (w.rdS64 16 + (0x1FC#9).signExtend 64 * 4).toNat 0 = none ∧
       inWindow (w.rdS64 16).toNat = false) ∧
    (let w := demoAddr 0x9002
     inWindow (w.rdS64 16 + (1#9).signExtend 64 * 4).toNat = false ∧ (w.rdS64 16 + (1#9).signExtend 64 * 4).toNat % 4 ≠ 0) := by
  refine ⟨⟨ready_of rfl rfl rfl (by decide +kernel), ready_of rfl rfl rfl (by decide +kernel),
    ready_of rfl rfl rfl (by decide +kernel), ready_of rfl rfl rfl (by decide +kernel), ready_of rfl rfl rfl (by decide +kernel)⟩,
    by decide +kernel, by decide +kernel⟩

/-- An operation of the demonstration's wave. -/
def demoOp (k : OpKind) : Op :=
  { id := 7, owner := 2, core := 0, unit := 0, slot := 0, replay := false, ctx := 0, block := 1, key := 1, pc := 0x20010
    waitLoads := 0, waitStores := 0, parked := none, denied := [], horizon := none, note := [], waits := [], got := [], reached := 0
    epend := [], kind := k }
/-- The demonstration with one operation under way. -/
def demoDoing (k : OpKind) : State := { demo with ops := [demoOp k], cur := none }
/-- The same on an MX page. -/
def demoMx (k : OpKind) : State := { demoDoing k with mem := Memory.write demo.mem 0x12000 (leBytes 8 0x2D) }

def xlateIs (r : State × Xlate) (e : TlbEntry) : Bool := decide (r.2 = .ok e)

/-- Loads and stores of memory, of the sideband and of scratch, to the last bytes of the address space and of the block. -/
theorem witness_LoadsAndStoresPerform :
    (∀ a ∈ [0x9000, 2 ^ 30 - 16], ∀ k ∈ [OpKind.load ⟨true, 0, a, 16, false⟩ [.v 512] false 3, .store ⟨true, 0, a, 16, false⟩ (List.replicate 16 1)],
      let s := demoDoing k
      s.op 7 = some (demoOp k) ∧ inOrder s (demoOp k) = true ∧ inWindow a = false ∧ s.ctx 0 = some loadedContext ∧
        xlateIs (translate s 0 loadedContext a true false false) demoLeaf = true ∧
        xlateIs (translate s 0 loadedContext a false true true) demoLeaf = true ∧
        ((translate s 0 loadedContext a true false true).1.recordGlobal (demoOp k) (demoLeaf.phys a) 1 true false none).isSome = true ∧
        s.poisoned (demoLeaf.phys a) 16 = false ∧ demoLeaf.phys a + 16 ≤ 2 ^ 52) ∧
    (∀ k ∈ [OpKind.load ⟨true, 0, 0x9007, 1, true⟩ [.e 512] false 3, .store ⟨true, 0, 0x9007, 1, true⟩ [5]],
      let s := demoMx k
      s.op 7 = some (demoOp k) ∧ inOrder s (demoOp k) = true ∧ 0x9007 / 4096 ∉ (demoOp k).denied ∧
        s.poisoned (demoLeaf.phys 0x9007 / 128 * 128) 1 = false ∧
        xlateIs (translate s 0 loadedContext 0x9007 true false false) { demoLeaf with mx := true } = true) ∧
    (∀ k ∈ [OpKind.load ⟨false, 1, 0xFFF0, 16, false⟩ [.v 512] false 3, .load ⟨false, 1, 0xFF87, 1, true⟩ [.e 512] false 3,
        .store ⟨false, 1, 0xFFFF, 1, false⟩ [5], .store ⟨false, 1, 0xFF87, 1, true⟩ [5]],
      let s := demoDoing k
      s.op 7 = some (demoOp k) ∧ inOrder s (demoOp k) = true ∧ s.block 1 = some demoBlock ∧ demoBlock.uid = 1 ∧
        (∀ i < 16, (demoBlock.lineFE ((0xFFF0 + i) / 128)).full = true) ∧ demoBlock.poisoned 0xFFF0 16 = false ∧
        demoBlock.sidePoisoned (0xFF87 / 128) = false) := by
  decide +kernel

/-- Atomics of each width that are in order, and a FADDO of a page that was mapped at issue and of one that was not. -/
theorem witness_AtomicsPerform :
    (∀ k ∈ [OpKind.atomic ⟨true, 0, 0x9000, 4, false⟩ .add32 5 0 [.v 512] (some 3) .acqRel .device,
        .atomic ⟨true, 0, 0x9000, 8, false⟩ .cas64 5 6 [.v 512, .v 576] (some 3) .acquire .device,
        .atomic ⟨true, 0, 0x9000, 4, false⟩ .incw 5 0 [.v 512] (some 3) .unpaired .block,
        .faddo 0x9000 none false 0x3F800000 0 0 0, .faddo 0x9000 (some 0x9000) false 0x3F800000 0 0 0],
      let s := demoDoing k
      s.op 7 = some (demoOp k) ∧ inOrder s (demoOp k) = true ∧ s.ctx 0 = some loadedContext ∧ inWindow 0x9000 = false ∧
        0x9000 / 4096 ∉ (demoOp k).denied ∧ (∀ others ∈ [[], [7], [8, 7, 8]],
          (others.eraseDups.filterMap s.op).filter (combines s (demoOp k)) = []) ∧
        xlateIs (translate s 0 loadedContext 0x9000 true true false) demoLeaf = true ∧
        ((translate s 0 loadedContext 0x9000 true true true).1.recordGlobal (demoOp k) (demoLeaf.phys 0x9000) 3 true true none).isSome
          = true ∧ s.poisoned (demoLeaf.phys 0x9000) 8 = false) ∧
    ∀ e ∈ [(AtomOp.fadd32, 4), (.fadd64, 8)],
      let k : OpKind := .atomic ⟨true, 0, 0x9000, e.2, false⟩ e.1 5 0 [] none .commutative .device
      let o' := { demoOp k with id := 8, owner := 9, unit := 1 }
      let s : State := { demoDoing k with ops := [demoOp k, o'] }
      s.op 7 = some (demoOp k) ∧ s.op 8 = some o' ∧ inOrder s (demoOp k) = true ∧ combines s (demoOp k) o' = true ∧
        loadedContext.compulsory = false ∧ decide (walk s loadedContext 0x9000 true true = .ok demoLeaf) = true ∧
        xlateIs (translate s 0 loadedContext 0x9000 true true false) demoLeaf = true := by
  decide +kernel

def demoEntry (n : Nat) (k : Sample) : Entry := ⟨3, 0x2000C, 4, [.s 8], [], n, 0, false, k⟩
def demoAwaiting (n : Nat) (k : Sample) : Wave := { demoWave with rb := [demoEntry n k] }

/-- A wave that awaits one result, each counter read, a parking wave without and with a deferred error; a lease and a shadowed
translation, each just before, at and after its end. -/
theorem witness_ResultsAndLeases :
    (∀ k ∈ [Sample.none, .clockLo, .countLo 7, .clockHi, .retiredLo 7, .retiredHi],
      let s := demoState (demoAwaiting 1 k) demoBlock loadedContext
      s.wave 0 = some (demoAwaiting 1 k) ∧ s.runs (0 / 64) = true ∧ entryInFlight s 3 = false) ∧
    (∀ n ∈ [0, 1, 2],
      let w := { demoAwaiting 0 .none with parking := true, deferred := List.replicate n ⟨0x20, 0x9000, false, 0x2000C, 0⟩ }
      let s := demoState w demoBlock loadedContext
      s.wave 0 = some w ∧ s.runs (0 / 64) = true ∧ w.parking = true ∧ w.regs.vBusy = [] ∧ ∀ en ∈ w.rb, en.waiting = 0) ∧
    (let en := { demoEntry 0 .none with vals := [(.s 8, 77)] }
     (en.vals.map (·.1)).Nodup ∧ (∀ x ∈ en.dests, x ∈ en.vals.map (·.1))) ∧
    (∀ t ∈ [8, 9, 10],
      let s : State := { demo with
        pt := t, cores := [(0, { CoreSt.empty with l1 := [(5, ⟨[], [], [], 9⟩)], tlb := [{ demoLeaf with expiry := some 9 }] })] }
      ((s.core 0).l1.find 5).map (·.expiry) = some 9 ∧ (s.core 0).tlb = [{ demoLeaf with expiry := some 9 }]) := by
  decide +kernel


/-! ### Scratch synchronisation and copies -/

/-- A barrier object at offset 0x1000 of the demonstration's block: pending count, pending bytes, phase, validity. -/
def demoObject (pend bytes : Nat) (phase valid : Bool) : Block :=
  demoBlock.write 0x1000 (BarObj.toBytes ⟨BitVec.ofNat 16 pend, 3, BitVec.ofNat 32 bytes, phase, valid, 0⟩) false
/-- Registers 8 and 9 as given; 16 holds the object's address and 17 a value. -/
def demoAt (x n : Nat) : Wave := demoRegs [(8, BitVec.ofNat 32 x), (9, BitVec.ofNat 32 n), (16, 0x1000), (17, 77)] [] 0xB5

/-- An object with nothing there, with a pending count of 1 and of 65535, with bytes pending, in each phase; counts 1 and 65535
and the largest expectation; each token and timeout, in each mode; an object that is not valid. -/
theorem witness_BarrierObjects :
    (∀ n ∈ [0, 1, 65535, 2 ^ 31 - 1, 2 ^ 32 - 1], ∀ x ∈ [0, 1], ∀ c ∈ [loadedContext, demoCompulsory],
      ∀ k ∈ [demoBlock, demoObject 1 0 false true, demoObject 65535 0 true true, demoObject 0 64 true true],
      let w := demoAt x n
      let s := demoState w k c
      s.cur = some 0 ∧ s.wave 0 = some w ∧ s.block w.block = some k ∧
        readyOperands w k false [.ss 8 1, .ss 16 1, .ss 9 1] = true ∧ readyOperands w k false [.sd 8 1, .ss 16 1] = true ∧
        scratchTarget s k (w.rdS 16).toNat 16 = some (1, 0x1000) ∧ (w.rdS 16).toNat % 16 = 0 ∧
        s.scratchOps w 1 0x1000 16 = false ∧ s.acquiring w false = false ∧ s.block 1 = some k ∧ k.uid = 1 ∧ s.released w .block = true ∧
        (w.rdS 9).toNat = n ∧ (w.rdS 8).getLsbD 0 = (x = 1) ∧ s.cmp k = c.compulsory) ∧
    (demoBlock.object 0x1000).valid = false ∧
    (∀ e ∈ [(1, 0, false), (65535, 0, true), (0, 64, true)], (demoObject e.1 e.2.1 e.2.2 true).object 0x1000 =
      ⟨BitVec.ofNat 16 e.1, 3, BitVec.ofNat 32 e.2.1, e.2.2, true, 0⟩) := by
  decide +kernel

/-- The block with line 32, that of offset 0x1000, empty and with counted writes. -/
def demoLine (n : Nat) : Block := demoBlock.setFE 32 ⟨false, n⟩
def demoLate : Wave := { demoAt 0 0 with deferred := [⟨0x20, 0x9000, false, 0x2000C, 0⟩] }

/-- A word that meets each condition and one that does not, each timeout, in each mode; a full and an empty line; a fence with and
without a deferred error. -/
theorem witness_WordsLinesAndFences :
    (∀ n ∈ [0, 1, 2 ^ 32 - 1], ∀ c ∈ [loadedContext, demoCompulsory],
      ∀ k ∈ [demoBlock, demoBlock.write 0x1000 [77, 0, 0, 0] false, demoLine 0, demoLine 15],
      let w := demoAt 0 n
      let s := demoState w k c
      s.cur = some 0 ∧ s.wave 0 = some w ∧ s.block w.block = some k ∧ readyOperands w k false [] = true ∧
        readyOperands w k false [.sd 8 1, .ss 16 2, .ss 9 1] = true ∧
        scratchTarget s k (w.rdS 16).toNat 4 = some (1, 0x1000) ∧ scratchTarget s k (w.rdS 16).toNat 1 = some (1, 0x1000) ∧
        s.scratchOps w 1 0x1000 4 = false ∧ s.scratchWrites w (some (1, 32)) = false ∧ s.scratchWrites w none = false ∧
        s.readsFull w 1 32 = false ∧ s.block 1 = some k ∧ (w.rdS 9).toNat = n ∧ w.rdSk 16 1 = 77 ∧ s.cmp k = c.compulsory ∧
        w.deferred = [] ∧ s.partnerOps w = false ∧ s.acquiring w false = false ∧ s.acquiring w true = false ∧
        ∀ sc ∈ [Scope.cluster, .device, .system], s.released w sc = true) ∧
    (leNat ((demoBlock.write 0x1000 [77, 0, 0, 0] false).read 0x1000 4) = 77 ∧ leNat (demoBlock.read 0x1000 4) = 0 ∧
      (demoBlock.lineFE 32).full = true ∧ (demoLine 15).lineFE 32 = ⟨false, 15⟩) ∧
    (readyOperands demoLate demoBlock false [] = true ∧ demoLate.deferred = [⟨0x20, 0x9000, false, 0x2000C, 0⟩]) := by
  decide +kernel

/-- The image of a row of 32 single-precision numbers at 0x9000, and of 256 MX elements of format 0 there. -/
def demoImage (mx : Bool) : Desc :=
  if mx then BitVec.ofNat 512 (0x9000 + 256 * 2 ^ 64 + 2 ^ 324 + 2 ^ 328 + 8 * 2 ^ 352)
  else BitVec.ofNat 512 (0x9000 + 32 * 2 ^ 64 + 7 * 2 ^ 320 + 2 ^ 328)
/-- Slot 5 of the context's shape records holds that image in generation 9; the block may be delivered to directly. -/
def demoShapes (mx : Bool) (c : Context) : Context := { c with shapes := [(5, ⟨true, 9, demoImage mx⟩)] }
def demoDirect : Block := { demoObject 1 128 false true with rdir := true }
/-- A copy of one row of `n` elements between that record and offset 0 of scratch. -/
def demoCopy (n : Nat) : Wave :=
  demoRegs [(16, 9 * 4096 + 5), (22, BitVec.ofNat 32 (65536 + n)), (9, 0x1000), (10, 5), (8, 0x1000)] [] 0xB5
/-- The same with the object's address in the descriptor, as TCPYV has it. -/
def demoDeliver (n : Nat) : Wave := { demoCopy n with regs := { (demoCopy n).regs with s := (demoCopy n).regs.s.put 0 17 0x1000 } }

/-- Copies of each size, in each mode, to full lines, to lines with no write counted and with fourteen; an object that is valid, one
outside the block and none. -/
theorem witness_CopiesIssue :
    (∀ c ∈ [loadedContext, demoCompulsory], ∀ k ∈ [demoBlock, demoBlock.setFE 288 ⟨false, 14⟩], ∀ size ∈ [4, 8, 16], ∀ obj ∈ [0x1000, 0x1001, 2 ^ 32 - 16],
      let w := { demoAddr 0x9000 with regs := { (demoAddr 0x9000).regs with s := (demoAddr 0x9000).regs.s.put 0 18 (BitVec.ofNat 32 obj) } }
      let s := demoState w k c
      let lanes := w.active.map fun q => (q, laneAddr .base w 16 3 q, (w.rdV 16 q).toNat)
      s.cur = some 0 ∧ s.wave 0 = some w ∧ s.block w.block = some k ∧
        readyOperands w k false [.vs 16 1, .sl 16 2, .vs 3 1] = true ∧ readyOperands w k false [.vs 16 1, .sl 16 3, .vs 3 1] = true ∧
        s.acquiring w true = false ∧
        w.fore = false ∧ w.active ≠ [] ∧ checkCopy s k size lanes = none ∧ copyQueue s 0 < 64 ∧ s.globalStores w = false ∧
        ((copyTargets s k size lanes).map fun t => (t.2.1, t.2.2 / 128)).eraseDups = [(1, 288)] ∧
        (s.countLines [(1, 288)]).isSome = true) := by
  decide +kernel

/-- Bulk copies of both kinds of record, with an object and a completion word and with neither, and a delivery of 32 registers. -/
theorem witness_CopiesIssue_bulk :
    (∀ c ∈ [loadedContext, demoCompulsory], ∀ e ∈ [(false, 32), (true, 256)], ∀ d ∈ [0, 8], ∀ b ∈ [0, 9],
      let w := demoCopy e.2
      let s := demoState w demoDirect (demoShapes e.1 c)
      let d : BitVec 7 := BitVec.ofNat 7 d
      let b : BitVec 7 := BitVec.ofNat 7 b
      s.cur = some 0 ∧ s.wave 0 = some w ∧ s.block w.block = some demoDirect ∧
        readyOperands w demoDirect false [.ss d 1, .ss 16 8, .ss b (if b = 0 then 1 else 2)] = true ∧
        (match checkCopyReq s w demoDirect d 16 b with
         | .ok r => decide (r.c.lines = [0]) && decide (r.obj.isSome = (d ≠ 0)) && decide (r.word.isSome = (b ≠ 0))
         | .error _ => false) = true ∧
        s.globalStores w = false ∧ s.acquiring w true = false ∧ tensorQueue s 0 < 256 ∧ (s.countLines [(1, 0)]).isSome = true) ∧
    (let w := demoDeliver 32
     let s := demoState w demoDirect (demoShapes false loadedContext)
     let c := copyDescOf w 16 (demoImage false) demoDirect.uid 0
     Ready s 0 w demoDirect false [.vd 64 1, .ss 16 8] ∧ ((w.fore || w.cpt) = false ∧ demoDirect.rdir = true ∧
       demoDirect.uid = w.block ∧ current (s.ctxD demoDirect) (w.rdS 16) = some ⟨true, 9, demoImage false⟩ ∧ checkBox s w 16 c = none ∧
       (w.rdSk 16 1).toNat % 16 = 0 ∧ scratchTarget s demoDirect (w.rdSk 16 1).toNat 16 = some (1, 0x1000) ∧
       c.boxk 0 * c.esize = 1024 ∧ c.boxk 1 ≤ w.width ∧ c.boxk 2 = 1 ∧ c.boxk 3 = 1 ∧ c.boxk 4 = 1 ∧
       (Opnd.vd 64 32).window w demoDirect = none ∧ (Opnd.vd 64 32).busy w = false ∧ s.globalStores w = false ∧
       s.acquiring w true = false ∧ 64 % 8 = 0 ∧ c.boxk 0 * c.esize % 32 = 0 ∧
       tensorQueue s 0 < 256)) :=
  ⟨by decide +kernel, ready_of rfl rfl rfl (by decide +kernel), by decide +kernel⟩

/-- Transposing loads of each layout, inside their edges and beyond them, in each mode; with a poisoned parameter of a quad that has
an active lane, and of one that has none. -/
theorem witness_CopiesIssue_transposing :
    ∀ c ∈ [loadedContext, demoCompulsory], ∀ rows ∈ [0, 1, 16],
      ∀ k ∈ [(⟨2, 4, 2, 8, some 16⟩ : Ldt), ⟨3, 6, 4, 4, some 24⟩, ⟨4, 8, 4, 4, some 32⟩, ⟨8, 16, 8, 2, none⟩, ⟨16, 32, 16, 1, none⟩],
      let w := demoRegs [(9, BitVec.ofNat 32 rows), (10, 4)] [] 0xB5
      let s := demoState w demoBlock c
      s.cur = some 0 ∧ s.wave 0 = some w ∧ s.block w.block = some demoBlock ∧
        readyOperands w demoBlock false [.vd 64 k.regs, .ed 64 k.regs, .vx 3 1, .sl 9 2] = true ∧ w.fore = false ∧
        w.lacksRoom (4 * k.regs * w.active.length) = false ∧ w.active ≠ [] ∧
        (∀ q ∈ w.active, (∀ j < 4, w.regs.vPoison.contains (laneKey (w.phys 3 0) (q / 4 * 4 + j)) = false) ∧
          ldtCheck s w demoBlock k 3 rows 4 q = none) ∧
        (scratchConflict s 0 demoBlock ((ldtElems s w demoBlock k 3 rows 4 0).filterMap fun e => e.map fun t =>
          ⟨false, t.1, t.2 / 8, (t.2 % 8 + k.esize + 7) / 8, false⟩) true false none).isSome = true := by
  decide +kernel

theorem witness_CopiesIssue_quads :
    ∀ q ∈ [1, 5],
      let w : Wave := { demoMask 0x05 0 with regs := { (demoMask 0x05 0).regs with vPoison := [laneKey 3 q] } }
      readyOperands w demoBlock false [.vd 64 4, .ed 64 4, .vx 3 1, .sl 9 2] = true ∧
        (w.active.any fun p => (List.range 4).any fun j => w.regs.vPoison.contains (laneKey (w.phys 3 0) (p / 4 * 4 + j))) =
          decide (q = 1) := by
  decide +kernel

def demoShset (n : Nat) : Wave := demoRegs [(16, 0x9000), (9, BitVec.ofNat 32 n)] [] 0xB5
def homeReadIs (r : HomeRead) (l : List Byte) : Bool := match r with
  | .ok x => decide (x = l)
  | _ => false

/-- SHSET of the first and last slot; a current handle and one whose generation has passed. -/
theorem witness_CopiesIssue_shapes :
    (∀ n ∈ [0, 4095], ∀ mx ∈ [false, true],
      let w := demoShset n
      let s : State := { (demoState w demoBlock loadedContext) with
        mem := Memory.write demo.mem 0x9000 (leBytes 64 (demoImage mx).toNat) }
      s.cur = some 0 ∧ s.wave 0 = some w ∧ s.block w.block = some demoBlock ∧
        readyOperands w demoBlock false [.sd 8 1, .ss 16 2, .ss 9 1] = true ∧ (w.rdS 9).toNat = n ∧
        inWindow (w.rdS64 16).toNat = false ∧ (w.rdS64 16).toNat % 16 = 0 ∧ s.globalStores w = false ∧ s.acquiring w false = false ∧
        homeReadIs (homeRead s 0 w demoBlock (w.rdS64 16).toNat 64) (leBytes 64 (demoImage mx).toNat) = true ∧
        shapeOk (BitVec.ofNat 512 (leNat (leBytes 64 (demoImage mx).toNat))) = true ∧
        (s.recordLoad 0 demoBlock 0x9000 64).isSome = true) ∧
    (∀ g ∈ [9, 8], ∀ i ∈ [0, 15],
      let w := demoRegs [(16, BitVec.ofNat 32 (g * 4096 + 5)), (9, BitVec.ofNat 32 i)] [] 0xB5
      let s := demoState w demoBlock (demoShapes false loadedContext)
      s.cur = some 0 ∧ s.wave 0 = some w ∧ s.block w.block = some demoBlock ∧
        readyOperands w demoBlock false [.sd 8 1, .ss 16 1, .ss 9 1] = true ∧ (w.rdS 9).toNat = i ∧
        current (s.ctxD demoBlock) (w.rdS 16) = (if g = 9 then some ⟨true, 9, demoImage false⟩ else none)) := by
  decide +kernel

def demoBox (mx : Bool) (n : Nat) : CopyDesc := copyDescOf (demoCopy n) 16 (demoImage mx) 1 0
def demoCopying (k : OpKind) (c : Context) (b : Block) : State :=
  { (demoState demoWave b c) with ops := [demoOp k], cur := none, pt := 100 }

/-- Copies under way, each at its source's and at its destination's end: of one lane and of three whose bytes lie on two lines, one
in a block whose rank is 1 and whose page is parked for another line; of lines with one and with fifteen writes counted. -/
theorem witness_CopiesPerform :
    (∀ size ∈ [4, 8, 16], ∀ n ∈ [1, 15], ∀ r ∈ [0, 1],
      let b := { demoBlock.setFE 2 ⟨false, n⟩ with rank := r }
      let o := { demoOp (.acp [(0x9000, 1, 256)] size) with waits := [(0x5000, 1)] }
      let s : State := { (demoCopying o.kind loadedContext b) with ops := [o] }
      s.op 7 = some o ∧ inOrder s o = true ∧ 0x9000 / 4096 ∉ o.denied ∧ o.lineWaits 0x9000 = false ∧
        s.ctx 0 = some loadedContext ∧ s.block 1 = some b ∧ b.freed = false ∧ 0x9000 % size = 0 ∧
        decide (walk s loadedContext 0x9000 true false = .ok demoLeaf) = true ∧ b.lineFE 2 = ⟨false, n⟩ ∧
        ∀ i < size, demoLeaf.phys (0x9000 + i) = demoLeaf.phys 0x9000 + i) := by
  decide +kernel

theorem witness_CopiesPerform_lanes :
    (∀ n ∈ [1, 15],
      let b := demoBlock.setFE 2 ⟨false, n⟩
      let k : OpKind := .acp [(0x9000, 1, 256), (0x9010, 1, 272), (0x9020, 1, 384)] 16
      let s := demoCopying k loadedContext b
      s.op 7 = some (demoOp k) ∧ inOrder s (demoOp k) = true ∧ s.block 1 = some b ∧
        [(0x9000, 1, 256), (0x9010, 1, 272), (0x9020, 1, 384)].filter (fun l => scratchLine s l.2.1 l.2.2 = 2) =
          [(0x9000, 1, 256), (0x9010, 1, 272)] ∧ b.lineFE (256 / 128) = ⟨false, n⟩ ∧
        ∀ va ∈ [0x9000, 0x9010], (demoOp k).lineWaits va = false ∧ readFail s loadedContext [] va 16 = none ∧
          firstFault s loadedContext [] true false [(va, 16)] = none) := by
  decide +kernel

theorem witness_CopiesPerform_lines :
    (∀ mx ∈ [false, true], ∀ n ∈ [1, 15],
      let c := demoBox mx (if mx then 256 else 32)
      let b := demoBlock.setFE 0 ⟨false, n⟩
      let k : OpKind := .tcpy c (some (1, 0x1000, 0x1000)) (some (1, 0x1010, 5))
      let s : State := { (demoCopying k loadedContext b) with mem := if mx then (demoMx k).mem else demo.mem }
      s.op 7 = some (demoOp k) ∧ inOrder s (demoOp k) = true ∧ s.ctx 0 = some loadedContext ∧ 0 ∈ c.lines ∧
        (demoOp k).lineWaits 0 = false ∧ s.block c.block = some b ∧ b.uid = c.block ∧ b.freed = false ∧ b.lineFE 0 = ⟨false, n⟩ ∧
        firstFault s loadedContext [] true false ((c.chunksIn 0).flatMap c.ranges).eraseDups = none ∧
        rangesFail s loadedContext [] ((c.chunksIn 0).flatMap c.ranges).eraseDups = none ∧
        (!c.mx || (List.range 8).all fun i => (c.mxSide s loadedContext [] 0 0 i).isSome) = true) := by
  decide +kernel

theorem witness_CopiesPerform_completion :
    (∀ mx ∈ [false, true],
      let c := demoBox mx (if mx then 256 else 32)
      let o := { demoOp (.tcpy c (some (1, 0x1000, 0x1000)) (some (1, 0x1010, 5))) with note := [0] }
      ({ (demoCopying o.kind loadedContext demoDirect) with ops := [o] } : State).op 7 = some o ∧ ∀ l ∈ c.lines, l ∈ o.note) := by
  decide +kernel

/-- A line on which one lane lands and another's page is not mapped. -/
theorem witness_CopiesPerform_parks :
    (let lanes := [(0x9000, 1, 256), (2 ^ 31, 1, 272)]
     let s := demoCopying (.acp lanes 16) loadedContext demoBlock
     let o := demoOp (.acp lanes 16)
     let here (l : Nat × Nat × Nat) : Bool := scratchLine s l.2.1 l.2.2 = 2
     let lands (l : Nat × Nat × Nat) : Bool := here l && !o.lineWaits l.1 && (firstFault s loadedContext o.denied true false [(l.1, 16)]).isNone
     s.op 7 = some o ∧ inOrder s o = true ∧ s.block 1 = some demoBlock ∧ scratchLine s 1 256 = 2 ∧
       lanes.filter (fun l => here l && !lands l) = [(2 ^ 31, 1, 272)] ∧ lanes.filter lands = [(0x9000, 1, 256)] ∧
       readFail s loadedContext o.denied 0x9000 16 = none ∧ demoBlock.freed = false ∧ 0x9000 % 16 = 0 ∧
       decide (walk s loadedContext 0x9000 true false = .ok demoLeaf) = true ∧ ∀ i < 16, demoLeaf.phys (0x9000 + i) = demoLeaf.phys 0x9000 + i) := by
  decide +kernel

/-- Copies out of scratch whose lines are full, one of whose words was read before, and of which one line is empty. -/
theorem witness_CopiesPerform_sources :
    ∀ ok ∈ [true, false], ∀ got ∈ [[], [(5, (7#32, false))]], ∀ full ∈ [true, false],
      let b := demoDirect.setFE 0x20 ⟨full, 1⟩
      let o := { demoOp (.acps [(0x9000, 1, 0x1010), (0x9010, 1, 0x1100)] 16 1 0x1000 0x1000 ok none) with got := got }
      let s : State := { (demoCopying o.kind loadedContext b) with ops := [o] }
      s.op 7 = some o ∧ inOrder s o = true ∧ o.kind.sources.length = 8 ∧
        ((o.kind.sources.zip (List.range 8)).all fun kn => (o.got.find kn.2).isSome || kn.1.full s) = full ∧
        ((o.kind.sources.zip (List.range 8)).any fun kn => (o.got.find kn.2).isNone && !kn.1.full s) = !full := by
  decide +kernel

theorem witness_CopiesPerform_box :
    ∀ mx ∈ [false, true], ∀ full ∈ [true, false],
      let c := demoBox mx (if mx then 256 else 32)
      let b := demoDirect.setFE 0 ⟨full, 1⟩
      let k : OpKind := .tcpys c (some (1, 0x1000, 0x1000)) (some (1, 0x1010, 5)) [] none
      let s := demoCopying k loadedContext b
      s.op 7 = some (demoOp k) ∧ inOrder s (demoOp k) = true ∧ s.block c.block = some b ∧
        (k.sources.all fun x => x.full s) = full ∧ c.footprint = 128 ∧
        (k.sources[0]?.map fun x => (x.block, x.off, x.side)) = some (1, 0, false) := by
  decide +kernel

/-- TCPYS whose writes are done, just before, at and after its horizon; one whose single request of 128 bytes is written; and
TCPYV's delivery. -/
theorem witness_CopiesPerform_ends :
    (∀ t ∈ [99, 100, 101],
      let o := { demoOp (.tcpys (demoBox false 32) none (some (1, 0x1010, 5)) [] (some ([], [], []))) with horizon := some t }
      let s : State := { (demoCopying o.kind loadedContext demoDirect) with ops := [o] }
      s.op 7 = some o ∧ o.parked = none ∧ s.ctx o.ctx = some loadedContext ∧ o.horizon = some t ∧ s.pt = 100) ∧
    (let c := demoBox false 32
     let k : OpKind := .tcpys c none (some (1, 0x1010, 5)) [] (some (List.replicate 128 7, [], []))
     let s := demoCopying k loadedContext demoDirect
     s.op 7 = some (demoOp k) ∧ (demoOp k).horizon = none ∧ c.mx = false ∧ c.requests = [(0, 0x9000, 128)] ∧
       c.nin 0 * c.esize = 8 * 128 ∧ 128 ≤ c.rowBytes ∧ 0x9000 % 4096 + 128 ≤ 4096 ∧
       (∀ r ∈ c.requests, r.1 ∉ (demoOp k).note ∧ (demoOp k).lineWaits r.1 = false ∧
         firstFault s loadedContext [] false true [r.2] = none) ∧
       decide (walk s loadedContext 0x9000 false true = .ok demoLeaf) = true ∧ demoLeaf.phys 0x9000 + 128 ≤ 2 ^ 52) ∧
    (∀ wait ∈ [false, true],
     let c := demoBox false 32
     let o := { demoOp (.tcpyv c (1, 0x1000, 0x1000) 64 32) with note := [2], waits := if wait then [(0, 5)] else [] }
     let s : State := { (demoCopying o.kind loadedContext demoDirect) with ops := [o] }
     let todo := (List.range demoWave.lanes.length).filter fun q => !o.note.contains q
     let reads (q : Nat) : Bool := (c.rowRequests q).all fun r =>
       !o.lineWaits r.1 && (firstFault s loadedContext o.denied true false [r.2]).isNone
     s.op 7 = some o ∧ inOrder s o = true ∧ s.ctx 0 = some loadedContext ∧ s.findOwner 2 = some demoWave ∧
       demoWave.lanes.length ≤ 64 ∧ todo.all reads = !wait ∧
       rangesFail s loadedContext [] (((todo.filter reads).flatMap c.rowRequests).map (·.2)) = none ∧
       (((c.laneBytes s loadedContext [] 0).drop 4).take 4).map (Option.map Prod.fst) =
         (List.range 4).map fun k => some ((0#32 >>> (8 * k)).setWidth 8)) := by
  decide +kernel


/-! ### The matrix engine -/

def demoMatrix (m : Matrix) (w : Wave) (c : Context) : State :=
  { (demoState w demoBlock c) with cores := [(0, { CoreSt.empty with mat := m })] }
def demoEngine : Matrix := { Matrix.reset with owner := some 2, lastCtx := some 0 }
def demoZero (id owner : Nat) : MatEntry := ⟨id, owner, 1, 1, 8, 0x20000, 0, 0, .mzero 3⟩

/-- A free engine whose tiles another context wrote, one of the wave, one of another wave, one still at work and one that another
wave awaits, in each mode; a compacted wave; a grant to the oldest of two waiters. -/
theorem witness_MatrixOwnership :
    (∀ c ∈ [loadedContext, demoCompulsory],
      ∀ m ∈ [{ Matrix.reset with lastCtx := some 5, tiles := [(0, 9)] }, demoEngine, { demoEngine with owner := some 9 },
        { Matrix.reset with queue := [demoZero 3 9] }, { Matrix.reset with waiters := [9] }, { demoEngine with queue := [demoZero 3 9] }],
      let s := demoMatrix m demoWave c
      s.cur = some 0 ∧ s.wave 0 = some demoWave ∧ s.block 1 = some demoBlock ∧ readyOperands demoWave demoBlock true [] = true ∧
        readyOperands demoWave demoBlock true [.sd 8 1] = true ∧ demoWave.fore = false ∧ demoWave.cpt = false ∧
        s.mat (0 / 64) = m ∧ ∀ e ∈ m.queue, e.owner ≠ demoWave.uid) ∧
    (let w := { demoWave with cpt := true }
     Ready (demoMatrix demoEngine w loadedContext) 0 w demoBlock true [] ∧ (w.fore = false ∧ w.cpt = true)) ∧
    (let m := { Matrix.reset with waiters := [2, 9] }
     let s : State := { (demoMatrix m { demoWave with wait := .macq } loadedContext) with
       waves := [(0, { demoWave with wait := .macq }), (1, { demoBeside with wait := .macq })] }
     s.runs 0 = true ∧ (s.mat 0).owner = none ∧ (s.mat 0).queue = [] ∧ (s.mat 0).waiters = 2 :: [9] ∧
       s.findWave 2 = some { demoWave with wait := .macq } ∧ s.block demoWave.block = some demoBlock ∧ s.cmp demoBlock = false) :=
  ⟨by decide +kernel, ⟨ready_of rfl rfl rfl (by decide +kernel), by decide +kernel⟩, by decide +kernel⟩

/-- An operand block of a product over `k` with `n` columns. -/
def demoProduct (k astep n : Nat) : Wave :=
  demoRegs [(16, 0x1000), (17, 0x800), (18, BitVec.ofNat 32 k), (19, BitVec.ofNat 32 (astep + 256 * n)), (20, 0x8000), (21, 0x9000), (9, 0)]
    [] 0xB5
/-- Mode words of MX, grouped, single-precision, double-precision, integer and one-bit products. -/
def demoModes : List Nat := [0, 0x99, 0x77, 0x40088, 0xBB, 0x804CC]

def demoOperand : AOperand := ⟨8, 32, [(2048, 0x3F800000)], [], [], []⟩

/-- Mode words that are legal and words that are not; products of one and of two steps in each kind of mode; with and without a
latched operand. -/
theorem witness_MatrixWork_issue :
    (∀ n ∈ demoModes ++ [13, 0x100000, 0xFFFFFFFF],
      let w := demoRegs [(9, BitVec.ofNat 32 n)] [] 0xB5
      let s := demoMatrix demoEngine w loadedContext
      s.cur = some 0 ∧ s.wave 0 = some w ∧ s.block 1 = some demoBlock ∧ readyOperands w demoBlock false [.ss 9 1] = true ∧
        (s.mat (0 / 64)).owner = some w.uid ∧ w.fore = false ∧ w.cpt = false ∧
        MatMode.ok ⟨w.rdS 9, w.csr.cza, w.csr.czb⟩ = (n ∈ demoModes)) := by
  decide +kernel

theorem witness_MatrixWork_products :
    (∀ n ∈ demoModes, ∀ c ∈ [loadedContext, demoCompulsory], ∀ two ∈ [false, true], ∀ cols ∈ [1, 32],
      let md : MatMode := ⟨BitVec.ofNat 32 n, 0, 0⟩
      let w := demoProduct (if two then md.stepK + 1 else md.stepK) (if two then md.regsA else 0) cols
      let s := demoMatrix { demoEngine with mode := some md, latch := if two then none else some demoOperand } w c
      let o := readOpnds w 16
      s.cur = some 0 ∧ s.wave 0 = some w ∧ s.block 1 = some demoBlock ∧ readyOperands w demoBlock false [.ss 16 6] = true ∧
        (s.mat (0 / 64)).mode = some md ∧ checkMma s w demoBlock md o two 32 = none ∧ o.k ≠ 0 ∧
        (s.mat (0 / 64)).latch = (if two then none else some demoOperand) ∧ demoOperand.width = w.width ∧ foreignTile (s.mat (0 / 64)) w demoBlock 3 = false ∧ (s.mat (0 / 64)).queue.length < 8 ∧
        busyA w md 32 (if two then 2 else 1) o.astep = false ∧
        (scratchConflict s 0 demoBlock (if s.cmp demoBlock then matAccesses s demoBlock md o w.width (if two then 2 else 1) else [])
          true false none).isSome = true) := by
  decide +kernel

/-- Drains and writes by rows and by each half of the columns, and a queue with seven entries. -/
theorem witness_MatrixWork_tiles :
    ∀ n ∈ [0, 1, 2, 3], ∀ c ∈ [loadedContext, demoCompulsory], ∀ l ∈ [0, 7],
      let w := demoRegs [(9, BitVec.ofNat 32 n)] [] 0xB5
      let s := demoMatrix { demoEngine with queue := List.replicate l (demoZero 3 2) } w c
      s.cur = some 0 ∧ s.wave 0 = some w ∧ s.block 1 = some demoBlock ∧
        readyOperands w demoBlock false [.vd 32 32, .ss 9 1] = true ∧ readyOperands w demoBlock false [.vall 32 32, .ss 9 1] = true ∧
        (s.mat (0 / 64)).owner = some w.uid ∧ (s.mat (0 / 64)).queue.length < 8 ∧ w.lacksRoom (128 * w.width) = false ∧
        (n % 2 < 2 ∧ n / 2 < 2 ∧ (w.rdS 9).toNat = n % 2 + 2 * (n / 2) ∧ w.width ≠ 64) ∧
        foreignTile (s.mat (0 / 64)) w demoBlock 3 = false := by
  decide +kernel

/-- The head entry of the engine's queue. -/
def demoStep (op : MatOp) : State :=
  demoMatrix { demoEngine with queue := [⟨5, 2, 1, 1, 8, 0x20000, 0, 0, op⟩] } demoWave loadedContext

/-- A step of each kind that the engine may take. -/
theorem witness_MatrixWork_steps :
    (∀ op ∈ [MatOp.mzero 7, .maccw 0 false 0 0 [(5, 9)] [], .macc 3 true 1 0 64 3] ++
        [0, 0x77, 0xBB, 0x804CC].map fun n => .mma ⟨BitVec.ofNat 32 n, 0, 0⟩ true 3 demoOperand 0 64 16 0x1000 0 0 0 0,
      let s := demoStep op
      s.runs 0 = true ∧ (s.mat 0).queue = ⟨5, 2, 1, 1, 8, 0x20000, 0, 0, op⟩ :: [] ∧ s.block 1 = some demoBlock ∧ s.wave 0 = some demoWave ∧
        demoWave.block = 1 ∧ (s.mat 0).poison = [] ∧ demoWave.uid = 2) ∧
    (∀ n ∈ demoModes, ∀ step ∈ [0, 1],
      let md : MatMode := ⟨BitVec.ofNat 32 n, 0, 0⟩
      let op : MatOp := .mma md true 3 demoOperand 4 64 (md.stepK + 1) 0x1000 0x800 0x6000 0x5000 step
      let s := demoStep op
      s.runs 0 = true ∧ md.ok = true ∧
        (scratchRange s demoBlock ((0x1000 + step * 0x800) % 2 ^ 32) (md.panelBytes 64)).any (fun pan =>
          (scratchRange s demoBlock ((0x5000 + 256 * step) % 2 ^ 32) 32).any fun ga =>
            (scratchRange s demoBlock ((0x6000 + 256 * step) % 2 ^ 32) 256).any fun gb =>
              matReady s ⟨5, 2, 1, 1, 8, 0x20000, 0, 0, op⟩ (pan :: if isGi md.afmt then [ga, gb] else [])) = true) := by
  decide +kernel


/-! ### Gates, counters and messages -/

/-- A descriptor on counter 5, threshold 10, whose action writes 77 to 0x9000; one that sends an interrupt, one an event. -/
def demoFlagDesc : Desc := BitVec.ofNat 512 (9 + 5 * 2 ^ 16 + 10 * 2 ^ 32 + 0x9000 * 2 ^ 160 + 77 * 2 ^ 224)
def demoIrqDesc : Desc := BitVec.ofNat 512 (8 + 5 * 2 ^ 16 + 10 * 2 ^ 32 + 3 * 2 ^ 160)
def demoEventDesc : Desc := BitVec.ofNat 512 (7 + 5 * 2 ^ 16 + 10 * 2 ^ 32 + 3 * 2 ^ 160 + 4 * 2 ^ 192)
/-- A context of four dies whose gate 16383 of die 3 is as given. -/
def demoGated (g : GateState) (c : Context) : Context :=
  { c with nv := 4, table := [0, 1, 2, 3], gates := if g = .free then [] else [(3 * 16384 + 16383, ⟨g, demoIrqDesc, 10, 0, 1, []⟩)] }
/-- A reference in register 9, a descriptor's address in 16 and the value 6 in 10. -/
def demoRef (r : Nat) : Wave := demoRegs [(16, 0x9040), (9, BitVec.ofNat 32 r), (10, 6)] [] 0xB5
def demoPost (w : Wave) (x : Context) : State :=
  { (demoState w demoBlock x) with mem := Memory.write demo.mem 0x9040 (leBytes 64 demoFlagDesc.toNat) }

/-- The first and last gate and counter of the first and last die, free, armed and draining, in each mode; references of a die that
is absent and of bits beyond the field. -/
theorem witness_GatesAndCounters :
    (∀ c ∈ [loadedContext, demoCompulsory], ∀ g ∈ [GateState.free, .armed, .draining], ∀ vd ∈ [0, 3], ∀ n ∈ [0, 16383],
      let x := demoGated g c
      let w := demoRef (65536 * vd + n)
      let s := demoPost w x
      s.cur = some 0 ∧ s.wave 0 = some w ∧ s.block w.block = some demoBlock ∧ demoBlock.rsafe = false ∧
        readyOperands w demoBlock false [.ss 16 2, .ss 9 1] = true ∧ readyOperands w demoBlock false [.sd 8 1, .ss 9 1] = true ∧
        readyOperands w demoBlock false [.ss 9 1, .ss 10 1] = true ∧ (w.rdS 9).toNat = 65536 * vd + n ∧ n < 2 ^ 14 ∧ vd < 4 ∧
        vd < (s.ctxD demoBlock).nv ∧ s.ctx demoBlock.ctx = some x ∧ s.globalStores w = false ∧ s.acquiring w false = false ∧
        (w.rdS64 16).toNat % 64 = 0 ∧
        homeReadIs (homeRead s 0 w demoBlock (w.rdS64 16).toNat 64) (leBytes 64 demoFlagDesc.toNat) = true ∧
        (x.gate 3 16383).state = g ∧ x.live = true ∧ 2 ^ 31 ≤ (x.counters.get 0 (65536 * vd + 5) - 10).toNat ∧
        s.ops = [] ∧ s.released w .device = true ∧ s.counterBusy w 0 5 = false) ∧
    (BitVec.ofNat 512 (leNat (leBytes 64 demoFlagDesc.toNat)) = demoFlagDesc ∧ demoFlagDesc.ok 4 = true ∧ demoFlagDesc.act = 9 ∧
      demoFlagDesc.ctr = 5 ∧ demoFlagDesc.thr = 10 ∧ flagPlaceOk demo demoBlock demoFlagDesc = true) ∧
    (demoGated .free loadedContext).gates.all (fun g => g.1 / 16384 ≠ 3) = true ∧
    (∀ r ∈ [2 ^ 18, 65536],
      let w := demoRef r
      readyOperands w demoBlock false [.ss 9 1, .ss 10 1] = true ∧
        (2 ^ 18 ≤ (w.rdS 9).toNat ∨ ((demoPost w loadedContext).ctxD demoBlock).nv ≤ (w.rdS 9).toNat / 65536 % 4)) := by
  decide +kernel

/-- No gate of a context without gates is satisfied, whatever its counter. -/
theorem witness_GatesAndCounters_unsatisfied (h : Nat) (v : Word) (c : Nat) :
    ((demoGated .free loadedContext).gate 3 h).satisfied v c = false := by
  simp [demoGated, Context.gate, SMap.get, Gate.empty, Gate.satisfied]

/-- An add through the window to the first and last counter; each action, its writes to be performed, performed but not yet
reached, and reached. -/
theorem witness_GateActions :
    ∀ a ∈ [0x00F0000000000000, 0x00F0000000000000 + 0x40000 * 3 + 4 * 65535],
      let k : OpKind := .atomic ⟨true, 0, a, 4, false⟩ .add32 5 0 [] none .commutative .device
      let x := demoGated .free loadedContext
      let s : State := { (demoDoing k) with ctxs := [(0, x)] }
      s.op 7 = some (demoOp k) ∧ inOrder s (demoOp k) = true ∧ s.ctx 0 = some x ∧ inWindow a = true ∧ x.compulsory = false ∧
        x.live = true ∧ x.gates.all (fun g => g.1 / 16384 ≠ windowVd a) = true := by
  decide +kernel

def demoAction (d : Desc) (hz : Option Nat) : Op := { demoOp (.gate 0 4 d 1 (some []) []) with horizon := hz }
def demoActing (o : Op) : State := { demo with ops := [o], cur := none, pt := 100 }

theorem witness_GateActions_ends :
    ∀ k ∈ [7, 8, 9], ∀ hz ∈ [none, some 99, some 100, some 101],
      let d := if k = 7 then demoEventDesc else if k = 8 then demoIrqDesc else demoFlagDesc
      let s := demoActing (demoAction d hz)
      s.op 7 = some (demoAction d hz) ∧ s.ctx 0 = some loadedContext ∧ (demoAction d hz).parked = none ∧
        (demoAction d hz).denied = [] ∧ (demoAction d hz).note = [] ∧ (demoAction d hz).horizon = hz := by
  decide +kernel

theorem witness_GateActions_flag :
    demoIrqDesc.act = 8 ∧ demoEventDesc.act = 7 ∧ demoFlagDesc.act = 9 ∧ demoFlagDesc.getLsbD 256 = false ∧
      demoFlagDesc.chen = false ∧ loadedContext.compulsory = false ∧ demoFlagDesc.fld 160 64 = 0x9000 ∧
      walk (demoActing (demoAction demoFlagDesc none)) loadedContext 0x9000 false true = .ok demoLeaf ∧
      (∀ i < 4, demoLeaf.phys (0x9000 + i) = demoLeaf.phys 0x9000 + i) ∧ demoLeaf.phys 0x9000 % 4 = 0 := by
  decide +kernel

/-- A message's registers from 16 on: 64 bytes at 0x9000, to 0xA000 of accelerator 2, with a local completion counter or none. -/
def demoMessage (counter : Bool) (comm : Bool) : Wave :=
  let w := demoRegs [(16, 0x9000), (18, 0xA000), (20, 64), (21, 2 + 9 * 65536), (23, if counter then 0x80000004 else 0)] [] 0xB5
  { w with csr := { w.csr with comm := comm } }
def demoGet : Wave := { demoMessage true true with regs := { (demoMessage true true).regs with s := (demoMessage true true).regs.s.put 0 21 2 } }
/-- A context that reaches accelerator 2. -/
def demoLinked (c : Context) : Context := { c with linktag := 3 }

/-- Messages of a communication wave and of a forerunner, with and without a completion counter; one of another wave; RFLAG to a
peer and to the device itself. -/
theorem witness_MessagesAndPublication :
    (∀ counter ∈ [false, true], ∀ c ∈ [loadedContext, demoCompulsory],
      let w := demoMessage counter true
      let s := demoState w demoBlock (demoLinked c)
      s.cur = some 0 ∧ s.wave 0 = some w ∧ s.block w.block = some demoBlock ∧ demoBlock.rsafe = false ∧ w.csr.comm = true ∧
        w.cpt = false ∧ readyOperands w demoBlock false [.ss 16 8] = true ∧ s.globalStores w = false ∧
        checkMessage s (s.ctxD demoBlock) w 16 false = none ∧ checkMessage s (s.ctxD demoBlock) w 16 true = none) ∧
    (let w := { demoMessage false false with fore := true }
     Ready { (demoState w demoBlock (demoLinked loadedContext)) with cur := some 32, waves := [(32, w)] } 32 w demoBlock false
       [.ss 16 8] ∧ w.fore = true) ∧
    (Ready (demoState (demoMessage false false) demoBlock loadedContext) 0 (demoMessage false false) demoBlock false [.ss 16 8] ∧
      ¬((demoMessage false false).fore = true ∨ ((demoMessage false false).cpt = false ∧ (demoMessage false false).csr.comm = true))) ∧
    (∀ r ∈ [2 + 3 * 1024 + 9 * 65536, 0],
      let w := demoRegs [(9, BitVec.ofNat 32 r)] [] 0xB5
      let s := demoState w demoBlock (demoLinked loadedContext)
      readyOperands w demoBlock false [.ss 9 1, .ss 10 1] = true ∧ (w.rdS 9).toNat / 2 ^ 12 % 16 = 0 ∧
        (w.rdS 9).toNat % 2 ^ 10 ≠ 1023 ∧ s.globalStores w = false ∧
        ((w.rdS 9).toNat % 2 ^ 10 = s.boot.accel.toNat → (w.rdS 9).toNat / 2 ^ 10 % 4 < (s.ctxD demoBlock).nv)) :=
  ⟨by decide +kernel, ⟨ready_of rfl rfl rfl (by decide +kernel), rfl⟩, ⟨ready_of rfl rfl rfl (by decide +kernel), by decide +kernel⟩,
    by decide +kernel⟩

/-- The first and last region, valid, its publication reached, just reached and to come, in each mode; a region beyond them. -/
theorem witness_MessagesAndPublication_regions :
    ∀ c ∈ [loadedContext, demoCompulsory], ∀ n ∈ [0, 4095, 4096], ∀ t ∈ [99, 100, 101],
      let rg : Region := { Region.empty with valid := true, pct := BitVec.ofNat 64 t }
      let w := demoRegs [(9, BitVec.ofNat 32 n)] [] 0xB5
      let s : State := { (demoState w demoBlock { c with regions := [(n, rg)] }) with pt := 100 }
      s.cur = some 0 ∧ s.wave 0 = some w ∧ s.block w.block = some demoBlock ∧ demoBlock.rsafe = false ∧
        readyOperands w demoBlock false [.sd 64 2, .ss 9 1] = true ∧ readyOperands w demoBlock false [.sd 64 1, .ss 9 1] = true ∧
        ((w.rdS 9).toNat ≤ 4095 ↔ n ≠ 4096) ∧ s.released w .device = true ∧ s.acquiring w false = false ∧
        (s.ctxD demoBlock).regions.get Region.empty (w.rdS 9).toNat = rg ∧ (s.ctxD demoBlock).compulsory = c.compulsory ∧
        (rg.pct.toNat ≤ s.pt ↔ t ≠ 101) := by
  decide +kernel

/-- The context that LINKTAG 3 names, alone. -/
def demoNet (c : Context) : State := { demo with ctxs := [(0, demoLinked c)], cur := none, pt := 100 }
def demoNetOp (n : NetOp) (sent : Bool) (hz : Option Nat) : Op := { demoOp (.net n sent [] none) with horizon := hz }
def demoNetting (o : Op) : State := { demoNet loadedContext with ops := [o] }

/-- Arrivals under a LINKTAG that no context has, 0 among them, and under one that a context has, to the last bytes of a page and
of the space that is mapped. -/
theorem witness_MessagesTravel_arrivals :
    (∀ link ∈ [0, 4], ∀ c ∈ (demoNet loadedContext).ctxs, c.2.linktag ≠ BitVec.ofNat 16 link ∨ BitVec.ofNat 16 link = 0) ∧
    (let x := demoLinked loadedContext
     (demoNet loadedContext).ctxs = [(0, x)] ∧ (3 : Half) ≠ 0 ∧ x.linktag = 3 ∧ (0 : BitVec 2).toNat < x.nv ∧ x.compulsory = false ∧
       x.gates = [] ∧ x.live = true ∧ x.arrDenied = []) ∧
    (∀ e ∈ [(0x9FFC, 4), (2 ^ 30 - 4096, 4096)],
      let s := demoNet loadedContext
      e.1 % 4096 + e.2 ≤ 4096 ∧ decide (walk s (demoLinked loadedContext) e.1 false true = .ok demoLeaf) = true ∧
        decide (walk s (demoLinked loadedContext) e.1 true false = .ok demoLeaf) = true ∧ s.wct (demoLeaf.phys e.1) e.2 ≤ s.pt ∧
        demoLeaf.phys e.1 + e.2 ≤ 2 ^ 52) ∧
    demoLeaf.shadow = none ∧ (∀ i < 4, demoLeaf.phys (0x9FFC + i) = demoLeaf.phys 0x9FFC + i) := by
  decide +kernel

/-- A message that may leave; a request whose bytes have not come, whose writes are not complete, and complete; a sent message. -/
theorem witness_MessagesTravel :
    (let o := demoNetOp (.flag 2 3 9 5) false none
     let s := demoNetting o
     s.op 7 = some o ∧ inOrder s o = true ∧ s.ctx 0 = some (demoLinked loadedContext) ∧ 2 ≠ s.boot.accel.toNat ∧
       reachable s (demoLinked loadedContext) 2 = true) ∧
    (∀ hz ∈ [none, some 99, some 100, some 101],
      let o := demoNetOp (.get 0x9FFC 0xA000 4 2) true hz
      let s := demoNetting o
      s.op 7 = some o ∧ s.ctx 0 = some (demoLinked loadedContext) ∧ o.parked = none ∧ o.horizon = hz ∧ 0x9FFC / 4096 ∉ o.denied ∧
        decide (walk s (demoLinked loadedContext) 0x9FFC false true = .ok demoLeaf) = true) ∧
    (∀ n ∈ [NetOp.put false 0x9000 0xA000 4 2 0 9 1, .flag 2 3 9 5],
      let o := demoNetOp n true none
      (demoNetting o).op 7 = some o ∧ (demoNetting o).ctx 0 = some (demoLinked loadedContext) ∧ o.horizon = none) := by
  decide +kernel


/-! ### The Teasel engines, records, errors -/

/-- A descriptor of each Teasel command, of one row, of `n` elements of a stash, or between shape records 5 and 6. -/
def demoTeasel (op n : Nat) : Nat :=
  op + match op with
    | 1 => 0x9000 * 2 ^ 192 + 0x9100 * 2 ^ 256 + 0x9200 * 2 ^ 320 + 2 ^ 384 + 2 ^ 416 + 16 * 2 ^ 448
    | 2 => 0x9000 * 2 ^ 192 + 0x9100 * 2 ^ 256 + 0x9200 * 2 ^ 320 + 2 ^ 384 + 2 ^ 416 + 2 ^ 448
    | 3 => (9 * 4096 + 5) * 2 ^ 192 + (9 * 4096 + 6) * 2 ^ 224
    | _ => 0x9000 * 2 ^ 192 + 0x9200 * 2 ^ 256 + n * 2 ^ 320
/-- Slot 5 names 32 single-precision numbers at 0x9000, slot 6 their MX counterpart at 0xA000. -/
def demoPairShapes (c : Context) : Context :=
  { c with shapes := [(5, ⟨true, 9, demoImage false⟩),
      (6, ⟨true, 9, BitVec.ofNat 512 (0xA000 + 32 * 2 ^ 64 + 4 * 2 ^ 320 + 2 ^ 324 + 2 ^ 328 + 2 ^ 352)⟩)] }
def demoCommand (op n : Nat) (c : Context) : State :=
  { (demoState (demoRef 0) demoBlock (demoPairShapes c)) with mem := Memory.write demo.mem 0x9040 (leBytes 64 (demoTeasel op n)) }
def isCvt (r : Except Trap (Desc × Desc)) (h : Desc × Desc) : Bool := match r with
  | .ok x => decide (x = h)
  | .error _ => false

/-- Each command in each mode, a stash of no block and of one. -/
theorem witness_TeaselCommands :
    (∀ op ∈ [1, 2, 3, 4, 5], ∀ n ∈ [0, 64], ∀ c ∈ [loadedContext, demoCompulsory],
      let w := demoRef 0
      let s := demoCommand op n c
      let d : Desc := BitVec.ofNat 512 (demoTeasel op n)
      s.cur = some 0 ∧ s.wave 0 = some w ∧ s.block w.block = some demoBlock ∧ readyOperands w demoBlock false [.ss 16 2] = true ∧
        s.globalStores w = false ∧ s.acquiring w false = false ∧ (w.rdS64 16).toNat % 64 = 0 ∧
        homeReadIs (homeRead s 0 w demoBlock (w.rdS64 16).toNat 64) (leBytes 64 (demoTeasel op n)) = true ∧
        leNat (leBytes 64 (demoTeasel op n)) = demoTeasel op n ∧
        (d.teaselOk (s.ctxD demoBlock).nv op && d.ownOk op) = true ∧ d.tScratchFlag = false ∧
        (op = 3 → isCvt (cvtHandles s (s.ctxD demoBlock) d) (demoImage false, BitVec.ofNat 512
          (0xA000 + 32 * 2 ^ 64 + 4 * 2 ^ 320 + 2 ^ 324 + 2 ^ 328 + 2 ^ 352)) = true) ∧
        (∀ k < 12, stackQueue s k < 64)) := by
  decide +kernel

def demoTarget : Desc := BitVec.ofNat 512 (0xA000 + 32 * 2 ^ 64 + 4 * 2 ^ 320 + 2 ^ 324 + 2 ^ 328 + 2 ^ 352)
def demoTeaselOp (op n : Nat) (hz : Option Nat) (note : List Nat) : Op :=
  { demoOp (.teasel 0x9040 (BitVec.ofNat 512 (demoTeasel op n)) (demoImage false) demoTarget []) with horizon := hz, note := note }

/-- Each command ready to run, an empty stash among them; a gather of one row whose index is 0. -/
theorem witness_TeaselCommands_runs :
    (∀ op ∈ [1, 2, 3, 4, 5], ∀ n ∈ [0, 64],
      let o := demoTeaselOp op n none [0]
      let d : Desc := BitVec.ofNat 512 (demoTeasel op n)
      let s := demoActing o
      s.op 7 = some o ∧ s.ctx o.ctx = some loadedContext ∧ o.parked = none ∧ o.horizon = none ∧ d.fld 0 4 = op ∧
        (firstFault s loadedContext o.denied true false [(d.fld 256 64, 4 * d.fld 384 32)] = none ∨ 2 < op) ∧
        optFault s loadedContext o.denied (teaselReads ⟨o, d, loadedContext, []⟩ s (demoImage false)) (teaselDests d demoTarget) = none) ∧
    (let o := demoTeaselOp 1 0 none [0]
     let d : Desc := BitVec.ofNat 512 (demoTeasel 1 0)
     let s := demoActing o
     o.denied = [] ∧ loadedContext.compulsory = false ∧ s.poison = [] ∧ d.fld 0 4 = 1 ∧ d.fld 384 32 = 1 ∧ d.fld 416 32 = 1 ∧
       d.fld 448 32 = 16 ∧ d.fld 192 64 = 0x9000 ∧ d.fld 256 64 = 0x9100 ∧ d.fld 320 64 = 0x9200 ∧
       (∀ i < 4, s.byteAt (demoLeaf.phys 0x9100 + i) = 0) ∧ demoLeaf.shadow = none ∧
       (∀ a ∈ [0x9000, 0x9100], decide (walk s loadedContext a true false = .ok demoLeaf) = true ∧
         ∀ i < 16, demoLeaf.phys (a + i) = demoLeaf.phys a + i) ∧
       decide (walk s loadedContext 0x9200 false true = .ok demoLeaf) = true ∧ demoLeaf.phys 0x9200 + 16 ≤ 2 ^ 52) := by
  decide +kernel

/-- A command of each kind whose data writes are to come, have just been reached and were reached before. -/
theorem witness_TeaselCommands_ends :
    ∀ op ∈ [1, 2, 3, 4, 5], ∀ t ∈ [99, 100, 101],
      let o := demoTeaselOp op 64 (some t) [0, 1, 2 ^ 32 - 1, 0]
      let d : Desc := BitVec.ofNat 512 (demoTeasel op 64)
      let s := demoActing o
      s.op 7 = some o ∧ s.ctx o.ctx = some loadedContext ∧ (s.pt < t ↔ t = 101) ∧ (d.fld 0 4 < 4 ↔ op < 4) ∧ d.tAdds = false ∧
        d.tFlags = false ∧ o.denied = [] ∧ decide (walk s loadedContext (0x9040 + 48) false true = .ok demoLeaf) = true ∧
        decide (walk (if d.fld 0 4 < 4 then s
          else s.writeBytes (homeDie (demoLeaf.phys (0x9040 + 48))) (demoLeaf.phys (0x9040 + 48)) (leBytes 8 (2 ^ 32 - 1)) false)
            loadedContext (0x9040 + 60) false true = .ok demoLeaf) = true ∧
        (∀ i < 16, demoLeaf.phys (0x9040 + 48 + i) = demoLeaf.phys (0x9040 + 48) + i) ∧
        demoLeaf.phys (0x9040 + 48) + 16 ≤ 2 ^ 52 := by
  decide +kernel

/-- A record image: its state, its mode, JOINC and NX. -/
def demoRecord (st cmp joinc nx : Nat) : Nat :=
  0x20000 + 0x7777 * 2 ^ 64 + joinc * 2 ^ 128 + nx * 2 ^ 160 + 2 ^ 192 + 2 ^ 208 + 8 * 2 ^ 224 + 2 ^ 232 + 2 ^ 240 + 2 ^ 248 +
    2 ^ 256 + cmp * 2 ^ 275 + st * 2 ^ 296
/-- It stands at 0x9040 and is submitted; graph 0 may be a live one of phase 1. -/
def demoSubmitted (a img : Nat) (live : Bool) : State :=
  { demo with
    mem := Memory.write demo.mem 0x9040 (leBytes 64 img)
    ctxs := [(0, { loadedContext with
      subs := [⟨[a], none, [], 0, 0, none⟩], graphs := if live then [(0, { Node.idle with live := true, parent := 1 })] else [] })] }

/-- A record that each check refuses, one that is queued and one that waits. -/
theorem witness_RecordsAccepted :
    ((demoSubmitted 0x9041 0 false).ctx 0).map (·.subs) = some [⟨[0x9041], none, [], 0, 0, none⟩] ∧ 0x9041 % 64 ≠ 0 ∧
    (∀ e ∈ [(demoRecord 1 0 0 1, false, 2), (demoRecord 0 0 0 0, false, 3), (demoRecord 0 1 0 1, false, 4), (demoRecord 0 0 0 1, true, 5),
        (demoRecord 0 0 0 1, false, 0), (demoRecord 0 0 1 1, false, 0)],
      let s := demoSubmitted 0x9040 e.1 e.2.1
      let d : Desc := BitVec.ofNat 512 (s.readNat 0x9040 64)
      ∀ x ∈ s.ctx 0, s.block 0 = none ∧ walk s x 0x9040 true true = .ok demoLeaf ∧ demoLeaf.phys 0x9040 = 0x9040 ∧ demoLeaf.phys 0x9040 + 64 ≤ 2 ^ 52 ∧
        (if d.rState ≠ 0 then 2 else if d.recordOk = false then 3 else if d.rCmp ≠ x.compulsory then 4
          else if x.treeOk d = false then 5 else 0) = e.2.2 ∧ ((x.enter d).entered d).1 = 0) := by
  decide +kernel

def demoEvent (n : Nat) : Event := mkEvent demo 7 0 0 0 0 0 7 false (BitVec.ofNat 64 n) 0
/-- A context under pre-emption with nothing under way; a die with two records and room for them. -/
theorem witness_SaveAndDrain :
    (let x := { loadedContext with residency := .preempting }
     let s : State := { demo with ctxs := [(0, x)] }
     s.ctx 0 = some x ∧ x.residency = .preempting ∧ s.drained 0 = true ∧
       x.save.toNat * 4096 + min Config.saveBytes 3670016 * 32 * x.nv ≤ 2 ^ 52) ∧
    (let s : State := { demo with dieEv := [(0, ⟨[demoEvent 1, demoEvent 2], [], []⟩)], eventQ := [demoEvent 0] }
     s.dieEv.find 0 = some ⟨[demoEvent 1, demoEvent 2], [], []⟩ ∧
       (∀ e ∈ [demoEvent 1, demoEvent 2], ¬(e.cls = 5 ∧ e.sub = 0)) ∧ s.eventQ.length + 2 < 4096) := by
  refine ⟨⟨rfl, rfl, by decide +kernel, ?_⟩, by decide +kernel⟩
  have h := Nat.min_le_right Config.saveBytes 3670016
  show 0 * 4096 + min Config.saveBytes 3670016 * 32 * 1 ≤ 2 ^ 52
  omega


/-! ### The host, bring-up -/

def demoFrame : HostFrame := .response 1 1 0 0x83 0 .none
/-- A session whose fourth command was the last, with room for one more frame; the header of its fifth. -/
def demoSession : Session := ⟨4, [], [], [(4, demoFrame)], 63, (List.range 63).map fun k => (k + 1, 5, demoFrame)⟩
def demoHeader : AqpenHeader := ⟨1, 0, 1, 0, 5, 0, true⟩
/-- The demonstration with that session and contexts. -/
def demoHost (l : List (Nat × Context)) : State := { demo with sessions := [(1, demoSession)], ctxs := l, cur := none, pt := 100000 }
def demoOwned (x : Context) : Context := { x with sess := 1 }

theorem demoCommands {s : State} (hb : s.boot = demo.boot) (hs : s.sessions = [(1, demoSession)])
    (hc : ∀ kx ∈ s.ctxs, kx.2.preemptFor = none ∧ kx.2.destroying = none) : Commands s demoHeader demoSession :=
  { ready := by rw [hb]; exact ⟨rfl, rfl⟩
    session := by rw [hs]; rfl
    turn := rfl
    header := ⟨rfl, rfl⟩
    idle := ⟨rfl, rfl, hc⟩
    room := by decide +kernel }

/-- A page of translations, one with a lease. -/
def demoTlb : List TlbEntry := [demoLeaf, { demoLeaf with va := 2 ^ 30, pa := 2 ^ 30, expiry := some 9 }]
def demoFault : FaultRecord := ⟨11, 0, 0, 9, false, false, false, 0⟩

/-- A command whose turn has come, with the queue's record of the count the head of a pair and not, translations to drop, faults to
answer and a context of the session. -/
theorem witness_HostReportsAndSettings :
    (∀ pair ∈ [false, true],
      let e : Event := if pair then mkEvent demo 5 0 0 0 0 0 0 false 0 0 else demoEvent 1
      let s : State := { (demoHost [(0, demoOwned loadedContext)]) with
        eventQ := [demoEvent 0, e], cores := [(0, { CoreSt.empty with tlb := demoTlb })], faults := [demoFault] }
      s.boot = demo.boot ∧ s.sessions = [(1, demoSession)] ∧ (∀ kx ∈ s.ctxs, kx.2.preemptFor = none ∧ kx.2.destroying = none) ∧
        s.eventQ[2 - 1]? = some e ∧ (e.cls = 5 ∧ e.sub = 0 ↔ pair = true) ∧ s.faults = [demoFault] ∧
        s.ctx 0 = some (demoOwned loadedContext) ∧ (demoOwned loadedContext).sess = demoHeader.sess.toNat) ∧
    (∀ i < 32, demo.boot.lct.find (32 * 3 + i) = some i) :=
  by decide +kernel

/-- Headers that are sound at the largest length, too long, of another version and with a reserved bit set. -/
theorem witness_HostReportsAndSettings_headers :
    (headerOk { demoHeader with len := 8192 } = true ∧ ∀ h ∈ [{ demoHeader with len := 8193 }, { demoHeader with ver := 2 },
      { demoHeader with rsv := 1 }], ¬(h.ver = 1 ∧ h.rsv = 0 ∧ h.len.toNat ≤ 8192)) ∧
    ({ demoHeader with fits := false } : AqpenHeader).fits = false ∧ { ({ demoHeader with fits := false } : AqpenHeader) with fits := true } = demoHeader := by
  decide +kernel

/-- Operations that wait as a whole, for a line and not at all, and waves that wait for their fetch and for a home read, on one
token. -/
theorem witness_HostReportsAndSettings_faults :
    let w (k : Wait) : Wave := { demoWave with wait := k }
    let o (p : Option Nat) (l : List (Nat × Nat)) : Op := { demoOp (.acp [(0x9000, 1, 256)] 16) with parked := p, waits := l }
    let s : State := { (demoHost [(0, demoOwned loadedContext)]) with
      faults := [demoFault], ops := [o (some 11) [], o none [(2, 11), (3, 12)], o none [(3, 12)]]
      waves := [(0, w (.fetch 11)), (1, w (.home 11)), (2, w .none)] }
    s.faults = [demoFault] ∧ demoFault.token = 11 ∧ s.ops[0]? = some (o (some 11) []) ∧ s.ops[1]? = some (o none [(2, 11), (3, 12)]) ∧
      s.ops[2]? = some (o none [(3, 12)]) ∧ (∀ k ∈ (o none [(3, 12)]).waits, k.2 ≠ 11) ∧
      s.wave 0 = some (w (.fetch 11)) ∧ s.wave 1 = some (w (.home 11)) ∧ s.wave 2 = some (w .none) ∧
      (0 : BitVec 32).toNat ≤ 1 ∧ 1 < (2 : BitVec 32).toNat := by
  decide +kernel

/-- The turn, once for all states of this kind. -/
theorem witness_HostReportsAndSettings_turn :
    Commands (demoHost [(0, demoOwned loadedContext)]) demoHeader demoSession :=
  demoCommands rfl rfl (by decide +kernel)

theorem witness_HostContexts :
    (∀ r ∈ [Residency.resident, .preempting, .saved, .broken],
      let x := demoOwned { loadedContext with residency := r, recs := [], jobs := [(15, { Node.idle with live := true })] }
      let s := demoHost [(0, x)]
      s.boot = demo.boot ∧ s.sessions = [(1, demoSession)] ∧ (∀ kx ∈ s.ctxs, kx.2.preemptFor = none ∧ kx.2.destroying = none) ∧
        s.ctx 0 = some x ∧ x.sess = demoHeader.sess.toNat ∧ x.residency = r ∧ x.recs = [] ∧ imageOk s x = false ∧
        dieTable x.nv [7, 0, 0, 0] = some [3] ∧ s.ctx 255 = none ∧
        (∀ e ∈ [(0x9000, 64), (192 * 2 ^ 30 - 64, 64), (5, 0)], areaOk s (BitVec.ofNat 64 e.1) e.2 = true) ∧
        areaOk s (BitVec.ofNat 64 (192 * 2 ^ 30 - 64)) 128 = false) ∧
    (∀ e ∈ [(1, [6, 0, 0, 0], [2]), (2, [4, 5, 0, 0], [0, 1]), (4, [7, 6, 5, 4], [3, 2, 1, 0])],
      dieTable e.1 (e.2.1.map (BitVec.ofNat 8)) = some e.2.2) ∧
    (ctlOk 0x0000000F = false ∧ ctlOk 0x000000F7 = true ∧ ctlLevel 0x000000F7 = 3) := by
  decide +kernel

/-- No context of the number, and one of another session, is the session's. -/
theorem witness_HostContexts_others (x : Context) :
    ¬(demoHost []).owned demoHeader 0 x ∧ ¬(demoHost [(0, loadedContext)]).owned demoHeader 0 x := by
  refine ⟨fun h => ?_, fun h => ?_⟩
  · exact absurd h.1 (by simp [demoHost, State.ctx, SMap.find])
  · have hx : loadedContext = x := Option.some.inj h.1
    exact absurd (hx ▸ h.2) (by decide +kernel)

/-- The bytes of a context record that CTXWRITE takes, and of one whose handler address is misaligned. -/
theorem witness_HostContexts_record :
    ∀ n ∈ [0x1000 + 0x10 * 2 ^ 64 + 5 * 2 ^ 104 + 0x20 * 2 ^ 128 + 3 * 2 ^ 256, 2],
      let i : BitVec 288 := BitVec.ofNat 288 (leNat (leBytes 36 n))
      (leBytes 36 n).length = 36 ∧ ((i.extractLsb' 112 16 = 0#16 ∧ i.extractLsb' 168 88 = 0#88 ∧ i.extractLsb' 272 16 = 0#16 ∧
        (i.extractLsb' 0 64).toNat % 4 = 0 ∧ canonical (i.extractLsb' 0 64).toNat = true) ↔ n ≠ 2) := by
  decide +kernel

/-- A context that is saved, with a block, and whose image stands. -/
def demoSavedCtx : Context := demoOwned { loadedContext with residency := .saved, save := 0x20, image := some 5 }
def demoAway : State :=
  { (demoHost [(0, demoSavedCtx)]) with
    blocks := [(1, { demoBlock with core := 128 })], waves := [(64 * 128, demoWave)]
    mem := Memory.write demo.mem 0x20000 (imageBytes demoSavedCtx 5) }
theorem witness_HostContexts_restore :
    imageOk demoAway demoSavedCtx = true ∧
    (let y := { demoSavedCtx with table := [3] }
     demoSavedCtx.residency = .saved ∧ demoSavedCtx.cancels = [] ∧ demoSavedCtx.marks = [] ∧
      (rinkCores demoSavedCtx).all (fun l => restoreFits demoAway (savedCore 0 l) (physCore y l)) = true ∧
      groupsFit demoAway 0 y = true) := by
  refine ⟨?_, by decide +kernel⟩
  have hl : (imageBytes demoSavedCtx 5).length ≤ 3670016 * 32 := by
    have h := Nat.min_le_right Config.saveBytes 3670016
    simp only [imageBytes, List.length_map, List.length_range, saveSize]
    show min Config.saveBytes 3670016 * 32 * 1 ≤ _
    omega
  have hn : saveSize * 32 * demoSavedCtx.nv = (imageBytes demoSavedCtx 5).length := by simp [imageBytes]
  have hr : demoAway.read (saveAddr demoSavedCtx) (saveSize * 32 * demoSavedCtx.nv) = imageBytes demoSavedCtx 5 := by
    rw [hn]
    refine List.ext_getElem (by simp [State.read, Memory.read]) fun i _ h2 => ?_
    simp only [State.read, Memory.read, List.getElem_map, List.getElem_range]
    exact Memory.byte_write _ _ 0x20000 i h2 (by omega)
  have hi : demoSavedCtx.image = some 5 := rfl
  simp only [imageOk, hi, hr, beq_self_eq_true]

/-- OPEN with sessions free and with none; a command that came before, and one that is ahead of its turn; a frame just before, at and
after its time to be sent again; a verified image of the same and of a later version. -/
theorem witness_HostContexts_sessions :
    (∀ n ∈ [0, 3, 4], ∀ v ∈ [0, 1],
      let s : State := { (demoHost []) with
        sessions := (List.range n).map fun k => (k + 1, demoSession), boot := { demo.boot with step := 6, image := some (BitVec.ofNat 32 v, 0) } }
      ({ demoHeader with sess := 0 } : AqpenHeader).sess = 0 ∧ headerOk { demoHeader with sess := 0 } = true ∧
        s.boot.halted = none ∧ 6 ≤ s.boot.step ∧
        [1, 2, 3, 4].find? (fun n => !s.sessions.has n) = (if n = 4 then none else some (n + 1)) ∧
        (s.boot.svn.toNat < v ↔ v = 1)) ∧
    (let s := demoHost []
     s.boot.halted = none ∧ 6 ≤ s.boot.step ∧ s.sessions.find 1 = some demoSession ∧ demoSession.held = [] ∧ demoSession.early = [] ∧ demoHeader.ack = 0 ∧ headerOk demoHeader = true ∧
       (∀ e ∈ demoSession.unacked, 0 < e.1) ∧ demoSession.stored.find? (fun e => e.1 = 4) = some (4, demoFrame) ∧
       4 ≤ demoSession.done ∧ demoSession.done + 1 < 6 ∧ 68 ≤ demoSession.done + 64 ∧ demoSession.done + 64 < 69 ∧
       ∀ kx ∈ s.ctxs, kx.2.sess ≠ 1) ∧
    (∀ t ∈ [100004, 100005, 100006],
      let s : State := { (demoHost []) with pt := t }
      s.sessions.find 1 = some demoSession ∧ demoSession.unacked.find? (fun e => e.1 = 63) = some (63, 5, demoFrame) ∧
        (s.pt < 5 + 100000 ↔ t = 100004)) := by
  decide +kernel

/-- A running, a halted and a stopped wave, as DBGCTL names them. -/
theorem witness_DebugAndHostMemory :
    (∀ r ∈ [Run.running, .halted, .stopped],
      let w := { demoWave with run := r }
      let x := demoOwned loadedContext
      let s : State := { (demoHost [(0, x)]) with waves := [(0, w)] }
      s.boot = demo.boot ∧ s.sessions = [(1, demoSession)] ∧ (∀ kx ∈ s.ctxs, kx.2.preemptFor = none ∧ kx.2.destroying = none) ∧
        s.ctx 0 = some x ∧ x.sess = demoHeader.sess.toNat ∧ x.residency = .resident ∧ x.compulsory = false ∧ 0 / 64 < 32 * x.nv ∧
        64 * (32 * x.table.getD (0 / 64 / 32) 0 + 0 / 64 % 32) + 0 % 64 = 0 ∧ s.wave 0 = some w ∧ s.block w.block = some demoBlock ∧
        demoBlock.ctx = 0 ∧ w.run = r ∧ w.fore = false ∧ w.cpt = false ∧ (s.mat (0 / 64)).queue = [] ∧ demoBlock.stack = [] ∧
        (w.run = .running ↔ r = .running) ∧ 127 < demoBlock.sregs ∧ (∀ vw ∈ s.waves, vw.2.block = w.block → vw.1 = 0) ∧
        127 < demoBlock.vregs ∧ 7 < w.lanes.length) := by
  decide +kernel

/-- The only wave of its block. -/
theorem witness_DebugAndHostMemory_alone : ∀ vw ∈ demo.waves, vw.2.block = demoWave.block → vw.1 = 0 := by
  decide +kernel

/-- The region's first and last bytes and bytes outside it, with each right; connections and priorities at their bounds. -/
theorem witness_DebugAndHostMemory_regions :
    ∀ n ∈ [0, 1, 2, 3], ∀ e ∈ [(0x9000, 16, true), (0x9FF0, 16, true), (0x8FFF, 16, false), (0x9FF1, 15, true), (0xA000, 16, false)],
      let r : MemReg := ⟨0, 0x9000, 0x1000, BitVec.ofNat 32 n⟩
      let s : State := { (demoHost [(0, loadedContext)]) with regs := [(9, r)] }
      s.boot.step = 8 ∧ 1023 < 1024 ∧ e.1 / 4096 ∉ loadedContext.arrDenied ∧ s.regs.find 9 = some r ∧ s.ctx 0 = some loadedContext ∧ loadedContext.compulsory = false ∧ 0 < e.2.1 ∧
        e.1 % 4096 + e.2.1 ≤ 4096 + (if e.2.2 then 0 else 4096) ∧ (r.access.getLsbD 1 = true ↔ 2 ≤ n) ∧
        (r.access.getLsbD 0 = true ↔ n % 2 = 1) ∧ ((r.va ≤ e.1 ∧ e.1 + e.2.1 ≤ r.va + r.len) ↔ e.2.2 = true) ∧
        walk s loadedContext e.1 false true = .ok demoLeaf ∧ walk s loadedContext e.1 true false = .ok demoLeaf ∧
        demoLeaf.phys e.1 + e.2.1 ≤ 2 ^ 52 := by
  decide +kernel

/-- Each step of bring-up, its fuses read before and not, its parts' one retry unused and used, its partner there and not; a
machine that has halted; thresholds; priorities that the host has enabled and not. -/
theorem witness_BringUpAndPower :
    (∀ n ∈ [1, 2, 3, 4, 5, 6, 7], ∀ b ∈ [false, true],
      let s : State := { State.reset with boot := { Boot.reset with
        step := n, retried := if b then [0] else [], partner := b, fused := b, pfc := if b then 8 else 0 } }
      s.boot.halted = none ∧ s.boot.step = n ∧ (0 ∈ s.boot.retried ↔ b = true) ∧ s.boot.partner = b ∧ s.boot.fused = b ∧
        s.boot.svn = 0 ∧ s.boot.thermal < 110 ∧ s.boot.pfc.getLsbD 3 = b ∧ (s.boot.harvest.get 0 3).getLsbD 31 = true) ∧
    ({ Boot.reset with halted := some 2 } : Boot).halted = some 2 ∧ ({ Boot.reset with thermal := 110 } : Boot).thermal = 110 ∧
    [0xFFFFFFFFF#36, 0, 1, 0x800000000].length = 4 := by
  decide +kernel

/-- The state after reset is canonical, and its first step goes on. -/
theorem witness_StepKeepsCanonical : State.reset.Canonical ∧ ∃ t, step State.reset = .next t := by
  refine ⟨rfl, ?_⟩
  cases h : step State.reset with
  | next t => exact ⟨t, rfl⟩
  | fault f => exact absurd h (by intro h; cases h)
  | refused r => exact absurd h (by intro h; cases h)

/-- An instruction that has a word. -/
theorem witness_DecodeEncode : encode (.sadd64 false 10 10 12) = some 0x0450A185#32 := rfl

/-! ### Further hypotheses of the statements -/

theorem witness_StepRunsEvent_others :
    ∀ h ∈ [Happening.firmware (.read 0 0x9000 4), .firmware (.fence 3), .sourceRead 7 0, .tick 5],
      ({ demo with agenda := [h] } : State).agenda = h :: [] := by
  decide +kernel

/-- A count above each limit; a wave that has joined the phase; a count that is not the phase's; no phase joined. -/
theorem witness_Barriers_misuse :
    (∀ e ∈ [(2049, 0, none), (2, 1, some false), (1, 1, none)],
      let w : Wave := { demoRegs [(9, BitVec.ofNat 32 e.1)] [] 0xFF with tags := [none, none, none, none, none, e.2.2, none, none] }
      let b := demoArrived e.2.1 2 false
      let s := demoState w b loadedContext
      let r := b.barriers.get Barrier.launch 5
      readyOperands w b false [.ss 9 1] = true ∧ (w.fore || w.cpt) = false ∧ arriveHolds s 0 w b = false ∧
        (2048 < (w.rdS 9).toNat ∨ w.tags.getD 5 none = some r.phase ∨ (0 < r.arrivals ∧ (w.rdS 9).toNat ≠ r.expected))) ∧
    (∀ e ∈ [(129, none), (2, some false), (1, none)],
      let w : Wave := { demoRegs [(9, BitVec.ofNat 32 e.1)] [] 0xFF with ctag := e.2 }
      let s := demoCluster w loadedContext
      readyOperands w demoBlock false [.ss 9 1] = true ∧ (w.fore || w.cpt) = false ∧ s.released w .cluster = true ∧
        s.groups.find 1 = some demoGroup ∧
        (128 < (w.rdS 9).toNat ∨ w.ctag = some false ∨ (0 < demoGroup.bar.arrivals ∧ (w.rdS 9).toNat ≠ demoGroup.bar.expected))) ∧
    (demoWave.tags.getD 5 none = none ∧ demoWave.ctag = none ∧ readyOperands demoWave demoBlock false [.sd 8 1, .ss 9 1] = true) := by
  decide +kernel

/-- The arrival that completes a cluster group's phase, with the count in the register and with every wave of the group expected,
beside a wave that waits. -/
theorem witness_Barriers_completes :
    ∀ c ∈ [0, 2],
      let w := demoRegs [(9, BitVec.ofNat 32 c)] [] 0xFF
      let b := { demoBlock with groupSize := 2 }
      let gr : Group := ⟨0, 0, ⟨c, 1, false⟩⟩
      let m : Wave := { demoBeside with wait := .cbarw 7 (some 100) }
      let s : State := { (demoCluster w loadedContext) with waves := [(0, w), (1, m)], groups := [(1, gr)] }
      readyOperands w b false [.ss 9 1] = true ∧ s.cur = some 0 ∧ s.wave 0 = some w ∧ s.block w.block = some b ∧
        (w.fore || w.cpt) = false ∧ 2 ≤ b.groupSize ∧ s.groups.find b.group = some gr ∧ s.released w .cluster = true ∧
        w.ctag ≠ some gr.bar.phase ∧ (w.rdS 9).toNat = c ∧ c = gr.bar.expected ∧ w.wait = .none ∧
        (if c = 0 then ((s.setWave 0 w).groupWaves b.group).length else c) ≤ gr.bar.arrivals + 1 ∧ s.pt ≤ 100 := by
  decide +kernel

/-- A timed-out BOWAIT whose object's phase has moved on. -/
theorem witness_WaitsTimeOut_phase :
    ∀ g ∈ [false, true],
      let w : Wave := { demoWave with wait := .bowait 1 0x1000 8 g (some 6) }
      let b := demoBlock.write 0x1000 (BarObj.toBytes ⟨1, 1, 0, !g, true, 0⟩) false
      let s : State := { (demoState w b loadedContext) with pt := 7 }
      s.wave 0 = some w ∧ s.block 1 = some b ∧ (b.object 0x1000).phase ≠ g ∧ 6 < s.pt ∧ s.runs (0 / 64) = true := by
  decide +kernel

/-- Two, and four, waves of one width that make up a block, the last of which reaches WFUSE first or last in its slots. -/
def demoPart (w n k T : Nat) : Wave :=
  { launchWave (2 + k) 1 w (w * k) 0x20010 0 (k = 0) with wait := if k = n then .none else .wfuse T }
theorem witness_Fusion_widths :
    ∀ e ∈ [(8, 2), (8, 4), (16, 2), (16, 4), (32, 2)], ∀ n ∈ [0, e.2 - 1],
      let T := e.1 * e.2
      let parts := (List.range e.2).map fun k => (k, demoPart e.1 n k T)
      let b := { demoBlock with lanes := T }
      let s : State := { demo with cur := some n, waves := parts, blocks := [(1, b)] }
      let w := demoPart e.1 n n T
      s.cur = some n ∧ s.wave n = some w ∧ s.block w.block = some b ∧ readyOperands w b true [] = true ∧
        (w.fore || w.cpt || w.csr.hnd) = false ∧ w.regs.vBusy = [] ∧ w.width ∈ [8, 16, 32] ∧ (parts.length = 2 ∨ parts.length = 4) ∧
        parts.length * w.width = (BitVec.ofNat 7 T).toNat ∧ T ≤ 64 ∧ b.uid = w.block ∧
        (s.waves.zip (s.waves.drop 1)).all (fun kl => decide (kl.1.1 < kl.2.1)) = true ∧
        ((List.range e.2).all fun k => match parts[k]? with
          | some (v, m) => decide (m.block = w.block) && !m.fore && !m.cpt && decide (m.width = w.width) && decide (m.first = k * w.width) &&
              decide (m.lanes = (List.range w.width).map (k * w.width + ·)) && SMap.sorted 0 m.regs.v &&
              decide (v = n ∨ m.wait = .wfuse T)
          | none => false) = true := by
  decide +kernel

/-- Each level of CANCEL, soft and hard, and one behind a submission. -/
theorem witness_RecordInstructions_cancels :
    ∀ n ∈ [0, 1, 2, 3, 4, 5, 6, 7], ∀ busy ∈ [false, true],
      let w := demoRegs [(18, BitVec.ofNat 32 n), (20, 0x4000)] [] 0xFF
      let x := { loadedContext with subs := if busy then [⟨[0x9040], none, [], 0, 0, none⟩] else [] }
      let s := demoState w demoBlock x
      s.cur = some 0 ∧ s.wave 0 = some w ∧ s.block w.block = some demoBlock ∧ readyOperands w demoBlock false [.ss 18 1, .ss 20 2] = true ∧
        w.fore = false ∧ demoBlock.rsafe = false ∧ (w.rdS 18).toNat < 2 ^ 16 ∧ (w.rdS 18).getLsbD 3 = false ∧
        (w.rdS 18).toNat / 16 = 0 ∧ ((w.rdS 18).getLsbD 2 = decide (4 ≤ n)) ∧ (w.rdS64 20).toNat % 64 = 0 ∧ s.released w .device = true ∧
        s.ctx demoBlock.ctx = some x ∧ x.live = true ∧ (x.recs.map (·.key)).Nodup ∧ (x.subs = [] ↔ busy = false) ∧
        (∀ kw ∈ s.waves, kw.2.run ≠ .stopped) ∧ ∀ kb ∈ s.blocks, kb.2.stack = [] := by
  decide +kernel

theorem witness_RecordInstructions_misaligned :
    let w := demoRegs [(18, 0), (20, 0x4001)] [] 0xFF
    ctlOk (w.rdS 18) = true ∧ (w.rdS 18).toNat % 4 = 0 ∧ (w.rdS64 20).toNat % 64 ≠ 0 := by
  decide +kernel

/-- A forerunner, and a wave of a replay-safe record, before the checks of their operands. -/
theorem witness_IllegalAtFour :
    (Ready (demoState demoFore demoBlock loadedContext) 0 demoFore demoBlock false [] ∧ demoFore.fore = true) ∧
    (let b := { demoBlock with rsafe := true }
     let s := demoState (demoAddr 0x9000) b loadedContext
     Ready s 0 (demoAddr 0x9000) b false [] ∧ (demoAddr 0x9000).fore = false ∧ s.block (demoAddr 0x9000).block = some b) :=
  ⟨⟨ready_of rfl rfl rfl (by decide +kernel), rfl⟩, ready_of rfl rfl rfl (by decide +kernel), rfl, rfl⟩

/-- A page of region 5, and one leased for 1, as a core's TLB holds them. -/
def demoShadowed : TlbEntry := { demoLeaf with shadow := some 5, expiry := some 200 }
def demoLeased : TlbEntry := { demoLeaf with lease := 1 }
def demoCopied (poison : List Nat) : CoreSt :=
  { CoreSt.empty with tlb := [demoLeased], l1 := [(0x9000 / 128, ⟨List.replicate 128 7, List.replicate 8 9, poison, 150⟩)] }

/-- Loads of a leased line with a live copy, one whose lease has just ended, and a poisoned one; of poisoned memory and scratch; of
a malformed address, a page answered FAIL, and one not mapped, for which a record is there already or not. -/
theorem witness_LoadsPerform_copies :
    (∀ t ∈ [149, 150], ∀ p ∈ [[], [0]],
      let k : OpKind := .load ⟨true, 0, 0x9000, 4, false⟩ [.v 512] false 3
      let s : State := { demoDoing k with cores := [(0, demoCopied p)], pt := t }
      s.op 7 = some (demoOp k) ∧ inOrder s (demoOp k) = true ∧ xlateIs (translate s 0 loadedContext 0x9000 true false true) demoLeased = true ∧
        ((s.core 0).l1.find (demoLeased.phys 0x9000 / 128)).isSome = true ∧ (s.pt < 150 ↔ t = 149)) ∧
    (let k : OpKind := .load ⟨true, 0, 0x9000, 4, false⟩ [.v 512] false 3
     let s : State := { demoDoing k with poison := [(0x9000 / 32, true)] }
     s.op 7 = some (demoOp k) ∧ inOrder s (demoOp k) = true ∧ s.poisoned 0x9000 4 = true) ∧
    (let b := { demoBlock with scrPoison := [0] }
     let k : OpKind := .load ⟨false, 1, 0, 4, false⟩ [.v 512] false 3
     let s : State := { demoDoing k with blocks := [(1, b)] }
     s.op 7 = some (demoOp k) ∧ inOrder s (demoOp k) = true ∧ s.block 1 = some b ∧ (b.lineFE 0).full = true ∧ b.poisoned 0 4 = true) := by
  decide +kernel

theorem witness_LoadsPerform_faults :
    (∀ a ∈ [2 ^ 60, 2 ^ 31],
      let k : OpKind := .load ⟨true, 0, a, 4, false⟩ [.v 512] false 3
      let s := demoDoing k
      s.op 7 = some (demoOp k) ∧ inOrder s (demoOp k) = true ∧ inWindow a = false ∧ a / 4096 ∉ (demoOp k).denied ∧
        decide ((translate s 0 loadedContext a true false false).2 = if a = 2 ^ 60 then .malformed else .notPresent) = true ∧
        s.parkedIn ((demoOp k).core / 32) + 1 < 512 ∧ s.eventRoom 0 1 = true ∧
        (∀ k ∈ s.waves, k.2.owns 2 = true → k = (0, demoWave))) ∧
    (let k : OpKind := .load ⟨true, 0, 0x9000, 4, false⟩ [.v 512] false 3
     let o := { demoOp k with denied := [9] }
     let s : State := { demoDoing k with ops := [o] }
     s.op 7 = some o ∧ inOrder s o = true ∧ 0x9000 / 4096 ∈ o.denied) ∧
    (let f : FaultRecord := ⟨40, 0, loadedContext.asid.toNat, 2 ^ 31 / 4096, false, false, false, 1⟩
     let s : State := { demoDoing (.load ⟨true, 0, 2 ^ 31, 4, false⟩ [.v 512] false 3) with faults := [f] }
     s.faults.find? (fun f => f.asid = loadedContext.asid.toNat && f.page = 2 ^ 31 / 4096 && !f.write && !f.fetch && !f.engine) = some f) := by
  decide +kernel

/-- Atomics in scratch, with and without a result, on full lines; one without a result on poison. -/
theorem witness_AtomicsPerform_scratch :
    ∀ e ∈ [(AtomOp.add32, 4), (.cas64, 8), (.fadd64, 8), (.incw, 4)], ∀ n ∈ [none, some 3],
      let k : OpKind := .atomic ⟨false, 1, 0x1000, e.2, false⟩ e.1 5 6 [] n .unpaired .block
      let b := if n = none then { demoBlock with scrPoison := [0x100] } else demoBlock
      let s : State := { demoDoing k with blocks := [(1, b)] }
      s.op 7 = some (demoOp k) ∧ inOrder s (demoOp k) = true ∧ s.ctx 0 = some loadedContext ∧ s.block 1 = some b ∧ b.uid = 1 ∧
        (∀ others ∈ [[], [7]], (others.eraseDups.filterMap s.op).filter (combines s (demoOp k)) = []) ∧
        (∀ i < e.2, (b.lineFE ((0x1000 + i) / 128)).full = true) ∧ (n = none ∨ b.poisoned 0x1000 e.2 = false) := by
  decide +kernel

/-- FADDO's page may be one of region 5, at most one of whose translations a core has. -/
def demoFaddo (edge : Bool) : State :=
  let x := { loadedContext with regions := [(5, { Region.empty with valid := true, edge := edge, foff := 1 })] }
  { (demoState (demoAddr 0x9000) demoBlock x) with
    mem := Memory.write demo.mem 0x12000 (leBytes 8 (0x20D + 5 * 2 ^ 52)), cores := [(0, { CoreSt.empty with tlb := [demoShadowed, demoLeaf] })] }
theorem witness_AtomicAndScalarMemory_shadowed :
    ∀ edge ∈ [false, true],
      let s := demoFaddo edge
      let w := demoAddr 0x9000
      Ready s 0 w demoBlock false [.vs 8 1, .vs 16 2] ∧
        ((∀ q ∈ w.active, checkAddr s (s.ctxD demoBlock) demoBlock true false false false 4 (laneAddr .pair w 16 0 q) q = none) ∧
          (∀ q ∈ w.active, (match walk s (s.ctxD demoBlock) (laneAddr .pair w 16 0 q) true true with
            | .ok e => e.shadow.isSome
            | _ => false) = true) ∧ faddoRoom s demoBlock w.active.length = true) := by
  intro e he
  refine ⟨ready_of rfl rfl rfl (by decide +kernel), ?_⟩
  rcases e with _ | _ <;> decide +kernel

/-! ### Page tables that a write leaves alone -/

/-- Every table that a walk from `table` on may read lies in [lo, hi). -/
def tablesIn (s : State) (lo hi : Nat) : Nat → Nat → Bool
  | 0, t => decide (lo ≤ t) && decide (t + 4096 ≤ hi)
  | n + 1, t => decide (lo ≤ t) && decide (t + 4096 ≤ hi) && (List.range 512).all fun i =>
      let p : Pte := ⟨s.readNat (t + 8 * i) 8⟩
      !p.bit 0 || !p.bit 1 || tablesIn s lo hi n p.pa

theorem readNat_of_agree {s : State} {m : List Host.Cell} {lo hi a n : Nat}
    (h : ∀ y, lo ≤ y → y < hi → Memory.byte m y = Memory.byte s.mem y) (ha : lo ≤ a) (hn : a + n ≤ hi) :
    ({ s with mem := m } : State).readNat a n = s.readNat a n := by
  simp only [State.readNat, State.read, Memory.read]
  congr 1
  refine List.map_congr_left fun i hi' => h _ (by omega) ?_
  have := List.mem_range.1 hi'
  omega

theorem leafEntry_of_agree {s : State} {m : List Host.Cell} {lo hi : Nat} (x : Context) (va table idx level : Nat) (p : Pte)
    (h : ∀ y, lo ≤ y → y < hi → Memory.byte m y = Memory.byte s.mem y) (ha : lo ≤ table) (hn : table + 4096 ≤ hi) (hi' : idx < 512) :
    leafEntry { s with mem := m } x va table idx level p = leafEntry s x va table idx level p := by
  have he (k : Nat) (hk : k < 16) : (⟨({ s with mem := m } : State).readNat (table + 8 * (idx / 16 * 16 + k)) 8⟩ : Pte) =
      ⟨s.readNat (table + 8 * (idx / 16 * 16 + k)) 8⟩ := congrArg Pte.mk (readNat_of_agree h (by omega) (by omega))
  have hg : groupOk { s with mem := m } table idx level = groupOk s table idx level := by
    have hb : ∀ (f : Pte → Nat) (e e' : Nat → Pte), (∀ k < 16, e k = e' k) →
        (decide ((e 0).pa % (16 * leafSize level) = 0) && (List.range 16).all fun k =>
          (e k).bit 4 && decide ((e k).pa = (e 0).pa + k * leafSize level) && decide (f (e k) = f (e 0))) =
        (decide ((e' 0).pa % (16 * leafSize level) = 0) && (List.range 16).all fun k =>
          (e' k).bit 4 && decide ((e' k).pa = (e' 0).pa + k * leafSize level) && decide (f (e' k) = f (e' 0))) := by
      intro f e e' h
      rw [h 0 (Nat.zero_lt_succ 15)]
      congr 1
      rw [Bool.eq_iff_iff, List.all_eq_true, List.all_eq_true]
      exact forall_congr' fun k => forall_congr' fun hk => by rw [h k (List.mem_range.1 hk)]
    unfold groupOk
    exact hb (fun p => p.raw % 2 ^ 12 + p.field 52 12 * 2 ^ 12) (fun k => ⟨({ s with mem := m } : State).readNat (table + 8 * (idx / 16 * 16 + k)) 8⟩)
      (fun k => ⟨s.readNat (table + 8 * (idx / 16 * 16 + k)) 8⟩) he
  have hp : ∀ pa n, populated { s with mem := m } x pa n = populated s x pa n := fun _ _ => rfl
  simp only [leafEntry, hg, hp]

theorem walkFrom_of_agree {s : State} {m : List Host.Cell} {lo hi : Nat} (x : Context) (va : Nat)
    (h : ∀ y, lo ≤ y → y < hi → Memory.byte m y = Memory.byte s.mem y) :
    ∀ level table, tablesIn s lo hi level table = true →
      walkFrom { s with mem := m } x va level table = walkFrom s x va level table
  | 0, t, ht => by
    simp only [tablesIn, Bool.and_eq_true, decide_eq_true_eq] at ht
    have hi' : va / 2 ^ 12 % 512 < 512 := Nat.mod_lt _ (by decide)
    simp only [walkFrom, readNat_of_agree h (Nat.le_trans ht.1 (Nat.le_add_right _ _)) (show t + 8 * (va / 2 ^ 12 % 512) + 8 ≤ hi by omega),
      leafEntry_of_agree x va t _ 0 _ h ht.1 ht.2 hi']
  | n + 1, t, ht => by
    simp only [tablesIn, Bool.and_eq_true, decide_eq_true_eq, List.all_eq_true, Bool.or_eq_true, Bool.not_eq_true'] at ht
    have hi' : va / 2 ^ (12 + 9 * (n + 1)) % 512 < 512 := Nat.mod_lt _ (by decide)
    have hc := ht.2 _ (List.mem_range.2 hi')
    have hr : ({ s with mem := m } : State).readNat (t + 8 * (va / 2 ^ (12 + 9 * (n + 1)) % 512)) 8 =
        s.readNat (t + 8 * (va / 2 ^ (12 + 9 * (n + 1)) % 512)) 8 := readNat_of_agree h (by omega) (by omega)
    have hp : ∀ pa n, populated { s with mem := m } x pa n = populated s x pa n := fun _ _ => rfl
    simp only [walkFrom, hr, hp, leafEntry_of_agree x va t _ (n + 1) _ h ht.1.1 ht.1.2 hi']
    cases h0 : (⟨s.readNat (t + 8 * (va / 2 ^ (12 + 9 * (n + 1)) % 512)) 8⟩ : Pte).bit 0 with
    | false => rfl
    | true =>
      cases h1 : (⟨s.readNat (t + 8 * (va / 2 ^ (12 + 9 * (n + 1)) % 512)) 8⟩ : Pte).bit 1 with
      | false => rfl
      | true =>
        rw [h0, h1] at hc
        rw [walkFrom_of_agree x va h n _ (by simpa using hc)]

theorem tablesIn_of_mem {s s' : State} (h : s.mem = s'.mem) (lo hi : Nat) : ∀ n t, tablesIn s lo hi n t = tablesIn s' lo hi n t
  | 0, _ => rfl
  | n + 1, t => by simp only [tablesIn, State.readNat, State.read, h, tablesIn_of_mem h lo hi n]

/-- The cells that may hold the demonstration's tables. -/
def tableCells (m : List Host.Cell) : List Host.Cell := m.filter fun c => decide (0x10000 ≤ c.1) && decide (c.1 < 0x13000)
theorem byte_tableCells : ∀ (m : List Host.Cell) (y : Nat), 0x10000 ≤ y → y < 0x13000 →
    Memory.byte (tableCells m) y = Memory.byte m y := by
  intro m y h1 h2
  simp only [Memory.byte, Nat.mod_eq_of_lt (show y < 2 ^ 52 by omega)]
  induction m with
  | nil => rfl
  | cons c t ih =>
    obtain ⟨k, v⟩ := c
    by_cases hk : 0x10000 ≤ k ∧ k < 0x13000
    · rw [show tableCells ((k, v) :: t) = (k, v) :: tableCells t by simp [tableCells, hk]]
      simp only [SMap.get, ih]
    · rw [show tableCells ((k, v) :: t) = tableCells t by simp only [tableCells, List.filter_cons]; rw [if_neg]; simpa using hk, ih]
      simp only [SMap.get]
      rw [if_neg (by omega)]

theorem demo_tables : tablesIn demo 0x10000 0x13000 4 (loadedContext.root.toNat * 4096) = true := by decide +kernel

/-- Ranges apart from the tables of the demonstration's context hold none of them. -/
theorem untabled_flat {s : State} {x : Context} {l : List (Nat × Nat)} (hx : x.root = loadedContext.root)
    (hm : tableCells s.mem = tableCells demo.mem) (hl : ∀ r ∈ l, r.1 + r.2 ≤ 0x10000 ∨ 0x13000 ≤ r.1) : Untabled s x l := by
  intro m hw va read write
  have hs : ∀ y, 0x10000 ≤ y → y < 0x13000 → Memory.byte s.mem y = Memory.byte demo.mem y := fun y h1 h2 => by
    rw [← byte_tableCells s.mem y h1 h2, hm, byte_tableCells demo.mem y h1 h2]
  have hr : ∀ y, 0x10000 ≤ y → y < 0x13000 → Memory.byte m y = Memory.byte s.mem y := fun y h1 h2 =>
    hw y (by omega) fun ⟨r, hr, h3, h4⟩ => by have := hl r hr; omega
  have ht : tablesIn { s with mem := demo.mem } 0x10000 0x13000 4 (x.root.toNat * 4096) = true := by
    rw [hx, tablesIn_of_mem (s := { s with mem := demo.mem }) (s' := demo) rfl]; exact demo_tables
  have h1 := walkFrom_of_agree (s := { s with mem := demo.mem }) (m := m) x (va % 2 ^ 57)
    (fun y h1 h2 => (hr y h1 h2).trans (hs y h1 h2)) 4 _ ht
  have h2 := walkFrom_of_agree (s := { s with mem := demo.mem }) (m := s.mem) x (va % 2 ^ 57) hs 4 _ ht
  simp only [walk]
  rw [show walkFrom { s with mem := m } x (va % 2 ^ 57) 4 (x.root.toNat * 4096) = walkFrom s x (va % 2 ^ 57) 4 (x.root.toNat * 4096) from
    h1.trans h2.symm]


/-! ### Actions of gates, messages, commands -/

theorem demoLeaf_phys {a : Nat} (h : a < 2 ^ 52) : demoLeaf.phys a = a := by
  simp only [TlbEntry.phys, demoLeaf]
  omega
theorem mapped_flat {s : State} {x : Context} {va n : Nat} {read write : Bool} (hw : walk s x va read write = .ok demoLeaf)
    (h : 0 < n ∧ va % 4096 + n ≤ 4096 ∧ va + n ≤ 2 ^ 30) : Mapped s x va n va read write := by
  refine ⟨h.1, h.2.1, ?_, demoLeaf, hw, rfl, fun i hi => demoLeaf_phys ?_⟩ <;> omega

/-- Whether the tables of the demonstration's context translate an address so. -/
def flatWalk (s : State) (x : Context) (va : Nat) (read write : Bool) : Bool := decide (walk s x va read write = .ok demoLeaf)
theorem mapped_of_flatWalk {s : State} {x : Context} {va n : Nat} {read write : Bool} (hw : flatWalk s x va read write = true)
    (h : 0 < n ∧ va % 4096 + n ≤ 4096 ∧ va + n ≤ 2 ^ 30) : Mapped s x va n va read write :=
  mapped_flat (of_decide_eq_true hw) h

/-- The cells of bytes at the addresses given, in rising order. -/
def demoCells (l : List (Nat × List Byte)) : List Host.Cell :=
  l.flatMap fun a => (a.2.zip (List.range a.2.length)).filterMap fun b => if b.1 = 0 then none else some (a.1 + b.2, b.1)
/-- Single-precision numbers at 0x9000 on, and an optimizer's descriptor at 0x8000. -/
def demoNumbers (l : List (Nat × Nat)) : State :=
  { demo with
    cur := none, pt := 100, ctxs := [(0, demoLinked loadedContext)]
    mem := demoCells (l.map fun a => (a.1, leBytes 4 a.2)) ++ demo.mem }
def demoActNumbers (d : Desc) (l : List (Nat × Nat)) : State := { demoNumbers l with ops := [demoAction d none] }
/-- An action of kind k: 64 bytes, or 16 numbers, from 0x9000 to 0xA000, or to accelerator 2. -/
def demoMoves (k : Nat) : Desc :=
  BitVec.ofNat 512 (k + 5 * 2 ^ 16 + 10 * 2 ^ 32 + 0x9000 * 2 ^ 160 + 0xA000 * 2 ^ 224 + (if k = 4 then 16 else 64) * 2 ^ 288 +
    (if k ≤ 2 then 2 * 2 ^ 320 + 9 * 2 ^ 336 else 0))

theorem witness_GateActions_moves :
    (∀ k ∈ [1, 2, 3, 4],
      let d := demoMoves k
      let s := demoActNumbers d [(0x9000, 0x3F800000), (0xA000, 0x40000000)]
      s.op 7 = some (demoAction d none) ∧ s.ctx 0 = some (demoLinked loadedContext) ∧ d.act = k ∧
        (reachable s (demoLinked loadedContext) (d.fld 320 10) = true ∨ 2 < k) ∧ (demoAction d none).denied = [] ∧ d.chen = false ∧
        (demoLinked loadedContext).compulsory = false ∧ d.fld 160 64 = 0x9000 ∧ d.fld 224 64 = 0xA000 ∧
        (d.fld 288 24 = if k = 4 then 16 else 64) ∧ flatWalk s (demoLinked loadedContext) 0x9000 true false = true ∧
        flatWalk s (demoLinked loadedContext) 0xA000 false true = true) ∧
    (let d := demoMoves 2
     let x := { demoLinked loadedContext with linktag := 0 }
     let s : State := { demoActNumbers d [] with ctxs := [(0, x)] }
     reachable s x (d.fld 320 10) = false) := by
  decide +kernel

theorem witness_GateActions_sum :
    Untabled (demoActNumbers (demoMoves 4) []) (demoLinked loadedContext) [(0xA000, 64)] :=
  untabled_flat rfl (by decide +kernel) (by decide)

/-- An optimizer's descriptor of two elements, of AdamW or of SGD, that publishes no region or region 6. -/
def demoOptimizer (sgd : Bool) (regs : Nat) : BitVec 1024 :=
  BitVec.ofNat 1024 ((if sgd then 1 else 0) + regs * 2 ^ 8 + 2 * 2 ^ 32 + 0x9000 * 2 ^ 64 + 0x9100 * 2 ^ 128 + 0x9200 * 2 ^ 192 +
    (if sgd then 0 else 0x9300 * 2 ^ 256) + 0x9500 * 2 ^ 384 + 0x9600 * 2 ^ 448 + 0x3C000000 * 2 ^ 512 + 0x3D000000 * 2 ^ 544 +
    0x3F600000 * 2 ^ 576 + (if sgd then 0 else 0x3E000000 * 2 ^ 608 + 0x3F700000 * 2 ^ 640 + 0x3D800000 * 2 ^ 672 + 0x32000000 * 2 ^ 704) +
    0x3F000000 * 2 ^ 736 + 0x3F600000 * 2 ^ 768 + 0x3F700000 * 2 ^ 800 + 3 * 2 ^ 832 + 6 * 2 ^ 864)
def demoOptDesc (tile : Nat) : Desc := BitVec.ofNat 512 (5 + 5 * 2 ^ 16 + 10 * 2 ^ 32 + 0x8000 * 2 ^ 160 + tile * 2 ^ 224)
def demoOptCtx : Context := { demoLinked loadedContext with regions := [(6, { Region.empty with valid := true })] }
def demoOptState (sgd : Bool) (regs tile flag : Nat) : State :=
  let s := demoActNumbers (demoOptDesc tile) [(0x9008, 0x3F800000), (0x900C, 0xC0000000), (0x9108, 0x40400000), (0x910C, 0x3F000000), (0x9208, 0x3E800000),
    (0x9308, 0x3DCCCCCD), (0x930C, 0x3F000000), (0x9600, flag)]
  { s with mem := demoCells [(0x8000, leBytes 128 (demoOptimizer sgd regs).toNat)] ++ s.mem, ctxs := [(0, demoOptCtx)] }

/-- A tile step of each kind, and the commit of each: with the flag down and up, with no region and with one. -/
theorem witness_GateActions_optimizer :
    ∀ k ∈ [(false, 0, 1, 0), (true, 0, 1, 0), (false, 1, 2 ^ 32 - 1, 0), (true, 0, 2 ^ 32 - 1, 0), (true, 1, 2 ^ 32 - 1, 1)],
      let sgd := k.1
      let regs := k.2.1
      let tile := k.2.2.1
      let flag := k.2.2.2
      let s := demoOptState sgd regs tile flag
      let d := demoOptDesc tile
      let D := demoOptimizer sgd regs
      s.op 7 = some (demoAction d none) ∧ s.ctx 0 = some demoOptCtx ∧ d.act = 5 ∧ d.chen = false ∧ s.poison = [] ∧
        cleanNat (engineRead s demoOptCtx [] (d.fld 160 64) 128) = some D.toNat ∧ optOk (d.fld 160 64) D = true ∧
        d.fld 224 32 = tile ∧ (D.extractLsb' 320 64).toNat = 0 ∧ (D.extractLsb' 32 32).toNat = 2 ∧
        ([0x9008, 0x9108, 0x9208, 0x9308, 0x9600].all fun a => flatWalk s demoOptCtx a true false) = true ∧
        ([0x9108, 0x9208, 0x9308, 0x9500, 0x8060].all fun a => flatWalk s demoOptCtx a false true) = true ∧
        (D.extractLsb' 8 2).toNat = regs ∧ (demoOptCtx.regions.get Region.empty (D.extractLsb' 864 12).toNat).valid = true := by
  decide +kernel

def demoOptOuts (sgd : Bool) : List (Nat × Nat) := [(0x9108, 8), (0x9208, 8)] ++ (if sgd then [] else [(0x9308, 8)]) ++ [(0x9500, 4)]
theorem witness_GateActions_optimizer_tables :
    (∀ sgd, Untabled (demoOptState sgd 0 1 0) demoOptCtx (demoOptOuts sgd)) ∧
      ∀ sgd, Untabled (demoOptState sgd 1 (2 ^ 32 - 1) 0) demoOptCtx [(0x8060, 12), (0x9500, 4)] :=
  ⟨fun sgd => untabled_flat rfl (by cases sgd <;> decide +kernel) (by cases sgd <;> decide +kernel),
    fun sgd => untabled_flat rfl (by cases sgd <;> decide +kernel) (by decide +kernel)⟩


/-! ### Placing blocks and completing records -/

/-- A record of 16 blocks in groups of g, each of two waves of eight lanes, its state st. -/
def demoGrid (g st : Nat) : Desc := BitVec.ofNat 512 (demoRecord st 0 0 16 + 2 ^ 232 + (g - 1) * 2 ^ 253)
/-- It stands at 0x9040; its header names wave 1 for communication and, where asked, an offset for forerunner contexts. It is
queued, or runs on from its fifth block, or has a block of its second group to launch again on core 8. -/
def demoPlacing (g : Nat) (fore : Bool) (k : Nat) : Rec :=
  { newRec 1 0x9040 0x9040 (demoGrid g (if k = 0 then 2 else 3)) (if k = 0 then .queued else .running) 0 with
    header := some (BitVec.ofNat 128 ((1 + 32) * 2 ^ 48 + if fore then 0x100 * 2 ^ 64 else 0))
    next := if k = 0 then 0 else 4
    replays := if k = 2 then [(g, 8)] else [] }
/-- Beside the demonstration's block and wave, on a machine whose cores 5 and 13 are not set; the pointer stands at 5. -/
def demoDispatch (cmp : Bool) (r : Rec) : State :=
  { demo with
    cur := none, pt := 100, boot := { demo.boot with lct := demo.boot.lct.filter fun q => q.1 ≠ 5 ∧ q.1 ≠ 13 }
    mem := Memory.write demo.mem 0x9040 (leBytes 64 r.img.toNat), fresh := 10
    ctxs := [(0, { loadedContext with compulsory := cmp, ptr := 5, recs := [r] })] }
/-- The first block, its core and the pointer afterwards, in default mode for no block placed, in compulsory mode and for a block lost. -/
def demoGoal (cmp : Bool) (g k : Nat) : Nat × Nat × Nat :=
  if k = 2 then (g, 8, 5)
  else let first := if k = 0 then 0 else 4
    if cmp then (first, if g = 1 then first else 4 * (first / g), 5)
    else (first, if g = 1 then (6, 7).1 else if g = 2 then 6 else 8, if g = 1 then 7 else if g = 2 then 8 else 12)

/-- A queued record that wants more scratch than a core has. -/
def demoUnplaceable : Rec := newRec 1 0x9040 0x9040 (BitVec.ofNat 512 (demoRecord 2 0 0 1 + 9000 * 2 ^ 256)) .queued 0

/-- A record whose blocks have retired, of n successors at 0x9800 of which k − 1 are done. -/
def demoSpent (n k st cancel : Nat) (faulted : Bool) : Rec :=
  { newRec 1 0x9040 0x9040 (BitVec.ofNat 512 (demoRecord 3 0 0 1 + 3 * 2 ^ 278 + n * 2 ^ 304 + 0x9800 * 2 ^ 320)) (if st = 0 then .running else .completing) 0 with
    header := some 0, next := 1, cancel := cancel, faulted := faulted, succ := k, rhz := 100 }
/-- It completes beside a waiting record at 0x9240, whose JOINC is j; the successor's address is a. -/
def demoCompletes (r : Rec) (a j : Nat) : State :=
  { demo with
    cur := none, pt := 100
    mem := Memory.write (Memory.write (Memory.write demo.mem 0x9040 (leBytes 64 r.img.toNat)) 0x9240 (leBytes 64 (demoRecord 1 0 j 1)))
      0x9800 (leBytes 8 a)
    ctxs := [(0, { loadedContext with
      graphs := [(0, { Node.idle with live := true, out := 3 })]
      recs := [r, newRec 2 0x9240 0x9240 (BitVec.ofNat 512 (demoRecord 1 0 j 1)) .waiting 0] })] }
/-- Contributions to two locations, of single and of double precision. -/
def demoContribs : List Contribution :=
  [⟨0x9A00, false, 0x3F800000, 2, 0, 0, 1⟩, ⟨0x9A08, true, 0x3FF0000000000000, 0, 1, 0, 1⟩, ⟨0x9A00, false, 0x4B800000, 0, 3, 1, 1⟩,
   ⟨0x9A00, false, 0x3FC00000, 0, 3, 0, 1⟩, ⟨0x9A08, true, 0x4340000000000001, 0, 0, 5, 1⟩]

/-- Core 5, or a core that has no spare beside it, with no block. -/
def demoSpares (sp : Bool) (s : State) : State :=
  { s with boot := { s.boot with spare := if sp then [(0, 0xC00000000)] else [] } }
/-- A running record of whose blocks one stands on core 0, replay-safe or not, with contributions, a held SPAWN and an access. -/
def demoLosing (safe sp : Bool) : State :=
  let b := { demoBlock with rsafe := safe, index := 3 }
  let r : Rec := { demoSpent 0 0 0 0 false with
    next := 4, live := 2, contribs := [⟨0x9A00, false, 1, 0, 0, 0, 1⟩, ⟨0x9A00, false, 2, 0, 0, 0, 9⟩]
    held := [⟨3, 0, 5, 0x100, 1⟩, ⟨0, 8, 5, 0x140, 9⟩] }
  demoSpares sp { demo with
    cur := none, blocks := [(1, b)], ops := [demoOp (.store ⟨true, 0, 0x9000, 4, false⟩ [1, 2, 3, 4])]
    ctxs := [(0, { loadedContext with
      recs := [r, newRec 2 0x9240 0x9240 0 .waiting 0], subs := [⟨[0x100], none, [], 1, 1, none⟩, ⟨[0x100], none, [], 1, 9, none⟩] })] }

/-- Room on a core for a block, or from a core on for a group. -/
def demoRoom (s : State) (x : Context) (d : Desc) (l : Nat) : Bool :=
  (decide (d.cluster = 1) || decide ((s.groups.filter fun q => q.2.base = physCore x (l / 4 * 4)).length < 4)) &&
    (List.range d.cluster).all fun k => (fitsOn s (physCore x (l + k)) d).isSome
theorem demoRoom_iff (s : State) (x : Context) (d : Desc) (l : Nat) : demoRoom s x d l = true ↔
    (d.cluster = 1 ∨ (s.groups.filter fun q => q.2.base = physCore x (l / 4 * 4)).length < 4) ∧
      ∀ k < d.cluster, ∃ slots, fitsOn s (physCore x (l + k)) d = some slots := by
  simp only [demoRoom, Bool.and_eq_true, Bool.or_eq_true, decide_eq_true_eq, List.all_eq_true, List.mem_range, Option.isSome_iff_exists]

/-- Whether the next block goes there, as a search of the places in turn finds it. -/
def demoGoes (r : Rec) (x : Context) (room : Nat → Bool) (first l ptr : Nat) : Bool :=
  let g := r.img.cluster
  match r.replays with
  | (i, k) :: _ => decide (first = i) && decide (l = k) && decide (ptr = x.ptr) && room l
  | [] => decide (first = r.next) && room l &&
    if x.compulsory then decide (l = if g = 1 then r.next % (32 * x.nv) else 4 * (r.next / g % (8 * x.nv))) && decide (ptr = x.ptr)
    else if g = 1 then decide (ptr = (l + 1) % (32 * x.nv)) && (List.range (32 * x.nv)).any fun i =>
      decide (l = (x.ptr + i) % (32 * x.nv)) && (List.range i).all fun j => !room ((x.ptr + j) % (32 * x.nv))
    else (List.range (8 * x.nv)).any fun i => (List.range (4 - g + 1)).any fun o =>
      let cl (j : Nat) : Nat := (x.ptr / 4 + j) % (8 * x.nv)
      decide (l = 4 * cl i + o) && decide (ptr = 4 * (cl i + 1) % (32 * x.nv)) &&
        ((List.range i).all fun j => (List.range (4 - g + 1)).all fun q => !room (4 * cl j + q)) &&
        (List.range o).all fun q => !room (4 * cl i + q)
theorem goesTo_of_demoGoes {r : Rec} {x : Context} {f : Nat → Bool} {room : Nat → Prop} {first l ptr : Nat}
    (hr : ∀ l, f l = true ↔ room l) (h : demoGoes r x f first l ptr = true) : r.goesTo x room first l ptr := by
  obtain rfl : (fun l => f l = true) = room := funext fun l => propext (hr l)
  unfold demoGoes at h
  unfold Rec.goesTo
  cases hq : r.replays with
  | cons q t =>
    simp only [hq, Bool.and_eq_true, decide_eq_true_eq] at h
    exact ⟨h.1.1.1, h.1.1.2, h.1.2, h.2⟩
  | nil =>
    simp only [hq, Bool.and_eq_true, decide_eq_true_eq] at h
    refine ⟨h.1.1, h.1.2, ?_⟩
    have h2 := h.2
    by_cases hc : x.compulsory = true
    · simp only [hc, if_true, Bool.and_eq_true, decide_eq_true_eq] at h2 ⊢
      exact h2
    · simp only [hc, Bool.false_eq_true, if_false] at h2 ⊢
      by_cases hg : r.img.cluster = 1
      · simp only [hg, if_true, Bool.and_eq_true, decide_eq_true_eq, List.any_eq_true, List.mem_range, List.all_eq_true,
          Bool.not_eq_true'] at h2 ⊢
        obtain ⟨h3, i, h4, h5, h6⟩ := h2
        exact ⟨h3, i, h4, h5, fun j hj => by simp [h6 j hj]⟩
      · simp only [hg, if_false, Bool.and_eq_true, decide_eq_true_eq, List.any_eq_true, List.mem_range, List.all_eq_true,
          Bool.not_eq_true'] at h2 ⊢
        obtain ⟨i, h3, o, h4, ⟨⟨h5, h6⟩, h7⟩, h8⟩ := h2
        exact ⟨i, h3, o, by omega, h5, h6, fun j hj q hq => by simp [h7 j hj q (by omega)], fun q hq => by simp [h8 q hq]⟩

/-- Blocks and groups of two and four, with forerunner contexts and without, queued, running and to be launched again, in either
mode, around a core that is not set. -/
theorem witness_BlocksPlaced :
    ∀ cmp ∈ [false, true], ∀ g ∈ [1, 2, 4], ∀ fore ∈ [false, true], ∀ k ∈ [0, 1, 2], ¬(cmp = true ∧ g = 4 ∧ k = 1) →
      let r := demoPlacing g fore k
      let s := demoDispatch cmp r
      let x := { loadedContext with compulsory := cmp, ptr := 5, recs := [r] }
      let p := demoGoal cmp g k
      s.ctxs = [(0, x)] ∧ x.residency = .resident ∧ 0 ∈ x.table ∧ x.recs = [r] ∧ (r.state = .queued ∨ r.placing = true) ∧ r.parked = none ∧
        r.header.isSome = true ∧ (∀ kb ∈ s.blocks, kb.1 < s.fresh) ∧ r.img.cluster = g ∧
        demoGoes r x (demoRoom s x r.img) p.1 p.2.1 p.2.2 = true ∧ p.2.1 % 4 + g ≤ 4 ∧ 0 < r.img.width ∧ r.pa + 64 ≤ 2 ^ 52 := by
  decide +kernel

theorem witness_BlocksPlaced_fails :
    ∀ cmp ∈ [false, true],
      let r := demoUnplaceable
      let s := demoDispatch cmp r
      let x := { loadedContext with compulsory := cmp, ptr := 5, recs := [r] }
      s.ctxs = [(0, x)] ∧ x.residency = .resident ∧ x.recs = [r] ∧ r.state = .queued ∧ r.parked = none ∧ r.header = none ∧
        2 ^ 20 < r.img.scratch ∧ r.pa + 64 ≤ 2 ^ 52 ∧ s.dieEv.find (seqDie x) = none ∧ s.eventQ = [] ∧ s.poison = [] := by
  decide +kernel

def demoHeld : List HeldSpawn := [⟨0, 0, 5, 0x1C0, 1⟩, ⟨0, 0, 7, 0x180, 1⟩, ⟨0, 8, 5, 0x140, 1⟩, ⟨3, 0, 5, 0x100, 1⟩]
/-- A running record that has placed all its blocks or been cancelled, with held SPAWNs. -/
theorem witness_RecordsComplete_held :
    (∀ e ∈ [(0, false), (1, false), (2, false), (2, true)],
      let r := { demoSpent 0 0 0 e.1 e.2 with held := demoHeld.reverse }
      let s := demoCompletes r 0 0
      ∀ x ∈ s.ctx 0, x.rec? r.key = some r ∧ r.spent = true ∧ r.parked = none ∧ x.live = true ∧ r.pa + 64 ≤ 2 ^ 52 ∧ r.held ≠ []) ∧
    demoHeld.Perm demoHeld.reverse ∧
    demoHeld.Pairwise fun a b => a.index < b.index ∨ a.index = b.index ∧ (a.first < b.first ∨ a.first = b.first ∧ a.retired < b.retired) := by
  decide +kernel

/-- A record that awaits package time, just before and at its horizon; one with a store outstanding; one with a submission of its own;
one in compulsory mode whose conflict interval waits for another record's store. -/
theorem witness_RecordsComplete_waits :
    ∀ hz ∈ [100, 101], ∀ busy ∈ [0, 1, 2, 3], ∀ cmp ∈ [false, true],
      let r : Rec := { demoSpent 0 0 0 0 false with rhz := hz }
      let o := demoOp (.store ⟨true, 0, 0x9000, 4, false⟩ [1, 2, 3, 4])
      let s : State := { (demoCompletes r 0 0) with ops := if busy = 1 then [o] else if busy = 3 then [{ o with key := 5 }] else [] }
      let x := { loadedContext with
        compulsory := cmp, recs := [r], subs := if busy = 2 then [⟨[], none, [], 1, 0, none⟩] else [] }
      let s : State := { s with ctxs := [(0, x)] }
      s.ctx 0 = some x ∧ x.rec? r.key = some r ∧ r.spent = true ∧ r.parked = none ∧ x.live = true ∧ r.held = [] ∧
        (((∃ b ∈ x.subs, b.key = r.key) ∨ (∃ o ∈ s.ops, o.ctx = 0 ∧ o.key = r.key ∧ o.kind.completes = true) ∨ s.pt < r.rhz ∨
          s.quiet 0 = false) ↔ busy = 1 ∨ busy = 2 ∨ (busy = 3 ∧ cmp = true) ∨ hz = 101) := by
  decide +kernel

/-- A record with contributions to two locations, three to one of them. -/
theorem witness_RecordsComplete_contributions :
    let r := { demoSpent 0 0 0 0 false with contribs := demoContribs }
    let s := demoCompletes r 0 0
    (∀ x ∈ s.ctx 0, x.rec? r.key = some r ∧ r.spent = true ∧ r.parked = none ∧ x.live = true ∧ r.held = [] ∧ x.subs = [] ∧ s.ops = [] ∧
      r.rhz ≤ s.pt ∧ s.quiet 0 = true ∧ r.contribs ≠ [] ∧ (∀ k ∈ r.contribs, k.pa + (if k.wide then 8 else 4) ≤ 2 ^ 52) ∧
      ∀ k ∈ r.contribs, ∀ q ∈ r.contribs, (k.pa = q.pa ∧ k.wide = q.wide) ∨ k.pa + (if k.wide then 8 else 4) ≤ q.pa ∨
        q.pa + (if q.wide then 8 else 4) ≤ k.pa) ∧
    (let l : List Contribution := [⟨0x9A00, false, 0x3FC00000, 0, 3, 0, 1⟩, ⟨0x9A00, false, 0x4B800000, 0, 3, 1, 1⟩, ⟨0x9A00, false, 0x3F800000, 2, 0, 0, 1⟩]
     l.Perm (r.contribs.filter fun q => q.pa = 0x9A00 && q.wide = false) ∧
       l.Pairwise fun a b => a.index < b.index ∨ a.index = b.index ∧ (a.lane < b.lane ∨ a.lane = b.lane ∧ a.n < b.n)) := by
  decide +kernel

/-- A completing record, cancelled or faulted or neither, its header accepted or not, before its STATE is written, at a successor
and at its end; successors that are misaligned, wait for one and for two joins, and have none left. -/
theorem witness_RecordsComplete_steps :
    ∀ e ∈ [(0, false), (1, false), (2, false), (2, true)], ∀ a ∈ [0x9240, 0x9241], ∀ j ∈ [0, 1, 2], ∀ k ∈ [0, 1],
      let r := demoSpent 1 k 1 e.1 e.2
      let s := demoCompletes r a j
      ∀ x ∈ s.ctx 0, x.rec? r.key = some r ∧ r.spent = true ∧ r.parked = none ∧ x.live = true ∧ r.held = [] ∧ x.subs = [] ∧ s.ops = [] ∧
        r.rhz ≤ s.pt ∧ s.quiet 0 = true ∧ r.contribs = [] ∧ r.state = .completing ∧ r.denied = [] ∧ r.succ = k ∧ r.img.nsucc = 1 ∧
        r.img.succ + 8 * (1 - 1) = 0x9800 ∧ flatWalk s x 0x9800 true false = true ∧ s.readNat 0x9800 8 = a ∧
        flatWalk s x 0x9240 true true = true ∧ s.joinc 0x9240 = j ∧
        (match s.joinAt 0x9240 1 with
         | .ok _ => decide (0 < j)
         | .error _ => decide (j = 0)) = true ∧
        (x.recs.filter fun q => q.pa = 0x9240).map (fun q => decide (q.state = .waiting)) = [true] := by
  decide +kernel

theorem witness_RecordsComplete_leaves :
    ∀ e ∈ [(0, false), (1, false), (2, false), (2, true)], ∀ n ∈ [(0, 0), (2, 3)], ∀ h ∈ [0, 1],
      let r := { demoSpent n.1 n.2 1 e.1 e.2 with header := if h = 0 then none else some 0 }
      let s := demoCompletes r 0x9240 2
      ∀ x ∈ s.ctx 0, x.rec? r.key = some r ∧ r.spent = true ∧ r.parked = none ∧ x.live = true ∧ r.held = [] ∧ x.subs = [] ∧ s.ops = [] ∧
        r.rhz ≤ s.pt ∧ s.quiet 0 = true ∧ r.contribs = [] ∧ ((r.succ = 0 ∧ r.img.nsucc = 0) ∨ r.succ = r.img.nsucc + 1) ∧
        (let m := (x.graph r.img.graph).leave (r.cancel ≠ 0 && !r.faulted) r.faulted
         ¬(m.out = 0 ∧ m.sealed = true)) ∧ s.dieEv.find (seqDie x) = none ∧ s.eventQ = [] ∧ s.poison = [] := by
  decide +kernel

/-- A die and a structure with a threshold; memory, scratch and registers; a core with spares and one without. -/
theorem witness_ErrorsAndRetirement :
    demo.isMemory 0x9000 = true ∧ demo.block 1 = some demoBlock ∧ 65535 < demoBlock.scratch ∧ demo.wave 0 = some demoWave ∧
    (∀ sp ∈ [false, true],
      let s := demoSpares sp { demo with blocks := [], waves := [] }
      s.boot.lct.find 5 = some 5 ∧ s.blocks = [] ∧ (s.boot.spare.get 0 (5 / 32)).getLsbD 34 = sp ∧
        (∀ j < 34, (s.boot.spare.get 0 (5 / 32)).getLsbD j = false) ∧ (s.boot.spare.get 0 (5 / 32) = 0 ↔ sp = false)) := by
  decide +kernel

theorem witness_ErrorsAndRetirement_blocks :
    ∀ safe ∈ [false, true], ∀ sp ∈ [false, true],
      let s := demoLosing safe sp
      let b := { demoBlock with rsafe := safe, index := 3 }
      s.boot.lct.find 0 = some 0 ∧ b.uid = 1 ∧ (s.blocks.filter fun kb => kb.2.core = 0) = [(b.uid, b)] ∧
        (s.blocks.filter fun kb => kb.1 = b.uid) = [(b.uid, b)] ∧ (s.blocks.filter fun kb => kb.2.group = b.group) = [(b.uid, b)] ∧
        b.rank = 0 ∧ b.ended = false ∧ s.groups.find b.group = none ∧ (∀ kw ∈ s.waves, kw.2.run ≠ .stopped) ∧ s.eventQ = [] ∧
        s.dieEv.find (0 / 32) = none ∧
        ∀ x ∈ s.ctx b.ctx, (x.recs.map (·.key)).Nodup ∧ (x.rec? b.record).any (fun r => decide (r.state = .running)) = true := by
  decide +kernel


/-! ### Messages that leave and arrive; what the commands write -/

/-- An RPUT of 64 bytes across a granule's edge, plain or tagged, and an RGET, that may leave; to a peer beyond reach as well. -/
theorem witness_MessagesTravel_leaves :
    ∀ n ∈ [NetOp.put false 0x9010 0xA000 64 2 0 9 1, .put true 0x9010 0x500070003 64 2 0 9 1, .get 0x9010 0xA000 64 2], ∀ r ∈ [false, true],
      let x := if r then demoLinked loadedContext else loadedContext
      let o := demoNetOp n false none
      let s : State := { demoNet loadedContext with ctxs := [(0, x)], ops := [o], poison := [(0x9020 / 32, true)] }
      s.op 7 = some o ∧ inOrder s o = true ∧ s.ctx o.ctx = some x ∧ o.denied = [] ∧ flatWalk s x 0x9010 true false = true ∧
        reachable s x 2 = r := by
  decide +kernel

/-- A receive gate on counter 9 for tag 5, tile 7 from accelerator 2 or from any, its buffer of 64 bytes at 0xA000; and a tagged arrival
of n bytes for offset b of it. -/
def demoReceive (src : Nat) (rearm : Bool) : Desc :=
  BitVec.ofNat 512 (10 + 9 * 2 ^ 16 + (if rearm then 2 ^ 4 else 0) + 0xA000 * 2 ^ 160 + 64 * 2 ^ 224 + 5 * 2 ^ 256 + 7 * 2 ^ 272 + src * 2 ^ 288)
def demoParcel (n b : Nat) : RputMessage :=
  ⟨2, 3, true, BitVec.ofNat 64 (5 + 7 * 2 ^ 16 + b * 2 ^ 32), 0, 9, 6, List.replicate n 0xAB, []⟩
def demoReceiver (src : Nat) (rearm : Bool) (got : Nat) : Context :=
  { demoLinked loadedContext with gates := [(11, ⟨.armed, demoReceive src rearm, 0, got, 1, []⟩)], unexpArea := (0x40000, 4096) }
def demoReceiving (src : Nat) (rearm : Bool) (got : Nat) : State := { demoNet loadedContext with ctxs := [(0, demoReceiver src rearm got)] }

/-- Memory with bytes as given, below the tables and in the order of their addresses, for a command on MX pages or plain ones. -/
def demoBytes (mx : Bool) (l : List (Nat × List Byte)) : State :=
  { demo with
    cur := none, pt := 100
    mem := demoCells l ++
      if mx then Memory.write demo.mem 0x12000 (leBytes 8 0x2D) else demo.mem }
def demoWords (l : List Nat) : List Byte := l.flatMap (leBytes 4)
def demoRan (d src dst : Desc) : Op := { demoOp (.teasel 0x9040 d src dst []) with note := [0] }

/-- A gather of the rows 2, 0, 5 and 1 of three, each of 16 bytes. -/
def demoGather : Desc :=
  BitVec.ofNat 512 (1 + 0x9000 * 2 ^ 192 + 0x9100 * 2 ^ 256 + 0x9400 * 2 ^ 320 + 4 * 2 ^ 384 + 3 * 2 ^ 416 + 16 * 2 ^ 448)
def demoGathers : State :=
  { demoBytes false [(0x9000, demoWords ((List.range 12).map (17 * · + 3))), (0x9100, demoWords [2, 0, 5, 1])] with
    ops := [demoRan demoGather 0 0] }
/-- A reduction of four rows of two numbers into two segments, a sum or a greatest value, of what stands there or of nothing. -/
def demoReduce (max old : Bool) : Desc :=
  BitVec.ofNat 512 (2 + 0x9000 * 2 ^ 192 + 0x9100 * 2 ^ 256 + 0x9400 * 2 ^ 320 + 4 * 2 ^ 384 + 2 * 2 ^ 416 + 2 * 2 ^ 448 +
    (if max then 2 ^ 464 else 0) + if old then 2 ^ 465 else 0)
def demoReduces (max old : Bool) : State :=
  { demoBytes false [(0x9000, demoWords [0x3F800000, 0x40490FDB, 0xC0000000, 0x7F800000, 0x3E800000, 0xFF800000, 0x33800000, 0x42280000]),
      (0x9100, demoWords [1, 0, 1, 9]), (0x9400, demoWords [0x3F000000, 0x7FC12345, 0x3FC00000, 0x80000000])] with
    ops := [demoRan (demoReduce max old) 0 0] }
/-- A stash, or a restore, of 70 numbers of a type, of which one is not finite, in a form; a restored block that is corrupt. -/
def demoStash (op ty : Nat) (small : Bool) : Desc :=
  BitVec.ofNat 512 (op + 0x9000 * 2 ^ 192 + 0xA000 * 2 ^ 256 + 70 * 2 ^ 320 + ty * 2 ^ 352 + if small then 2 ^ 354 else 0)
def demoElements (ty : Nat) : List Byte :=
  (List.range 70).flatMap fun i =>
    if ty = 0 then leBytes 2 (if i = 66 then 0x7F80 else 0x3F80 + 3 * i) else if ty = 1 then leBytes 2 (if i = 66 then 0x7C00 else 0x3C00 + 37 * i)
    else leBytes 4 (if i = 66 then 0x7F800000 else 0x3F800000 + 0x12345 * i)
def demoStashed (ty : Nat) (small : Bool) : List Byte :=
  let f := stashFmt ty
  (List.range 2).flatMap fun b => (stashEncode (if small then stash32 else stash64) ty ((List.range 64).map fun j =>
    f.decode (if 64 * b + j < 70 then leNat (((demoElements ty).drop (f.bits / 8 * (64 * b + j))).take (f.bits / 8)) else 0))).1
def demoStashes (op ty : Nat) (small : Bool) : State :=
  { demoBytes false [(0x9000, if op = 4 then demoElements ty else (demoStashed ty small).set 9 0xEE)] with
    ops := [demoRan (demoStash op ty small) 0 0] }
/-- A conversion between a row of 40 plain numbers at 0x9000 and a line of blocks of an MX format at 0xA000. -/
def demoConvert (rsr : Bool) (h : Nat) : Desc :=
  BitVec.ofNat 512 (3 + (if rsr then 2 ^ 256 else 0) + h * 2 ^ 257 + (if rsr then 2 ^ 259 + 130 * 2 ^ 264 else 0) + 0x1234567 * 2 ^ 288)
def demoPlain (f : Nat) : Desc := BitVec.ofNat 512 (0x9000 + 40 * 2 ^ 64 + f * 2 ^ 320 + 2 ^ 328)
def demoBlocks (f : Nat) : Desc := BitVec.ofNat 512 (0xA000 + 40 * 2 ^ 64 + f * 2 ^ 320 + 2 ^ 324 + 2 ^ 328 + 2 * 2 ^ 352)
def demoConverts (back : Bool) (f p : Nat) (d : Desc) : State :=
  { demoBytes true [(0x9000, (List.range 40).flatMap fun i => leBytes (if p = 5 then 2 else 4) (if p = 5 then 0x3F80 + 3 * i else 0x3F800000 + 0x112345 * i)),
      (0xA000, (List.range 128).map fun i => BitVec.ofNat 8 (7 * i + 1))] with
    side := [(8 * (0xA000 / 128), 127), (8 * (0xA000 / 128) + 1, 130), (8 * (0xA000 / 128) + 2, 0xFF)]
    ops := [if back then demoRan d (demoPlain p) (demoBlocks f) else demoRan d (demoBlocks f) (demoPlain p)] }

/-- Tagged arrivals that no gate matches: of no bytes, of one, and as many as the area holds beside another. -/
theorem witness_MessagesTravel_listed :
    ∀ n ∈ [0, 1, 225, 481],
      let x := { demoLinked loadedContext with unexpArea := (0x40000, 768), unexp := [⟨0, 1, 2, 3, 4, 5, [1, 2, 3], []⟩] }
      let s : State := { demoNet loadedContext with ctxs := [(0, x)] }
      let m := demoParcel n 3
      s.ctxs = [(0, x)] ∧ m.link ≠ 0 ∧ x.linktag = m.link ∧ m.tagged = true ∧ m.rvd.toNat < x.nv ∧ x.compulsory = false ∧ x.live = true ∧
        x.arrDenied = [] ∧ x.gates = [] ∧
        ((x.unexp.map fun k => (k.bytes.length + 287) / 256).sum + (m.bytes.length + 287) / 256 ≤ x.unexpArea.2 / 256 ↔ n ≠ 481) := by
  decide +kernel

/-- Tagged arrivals for a gate: within its buffer, at its last byte, to complete it or not, rearmed or not, and one byte too long. -/
theorem witness_MessagesTravel_delivered :
    ∀ k ∈ [(2, false, 0), (1023, true, 43), (2, true, 44)], ∀ e ∈ [(20, 44), (20, 45), (64, 0), (65, 0)],
      let src := k.1
      let rearm := k.2.1
      let got := k.2.2
      let x := demoReceiver src rearm got
      let s := demoReceiving src rearm got
      let m := demoParcel e.1 e.2
      let d := demoReceive src rearm
      s.ctxs = [(0, x)] ∧ m.link ≠ 0 ∧ x.linktag = m.link ∧ m.tagged = true ∧ m.rvd.toNat < x.nv ∧ x.compulsory = false ∧ x.live = true ∧
        x.arrDenied = [] ∧ x.gates = [(16384 * 0 + 11, ⟨.armed, d, 0, got, 1, []⟩)] ∧ d.act = 10 ∧
        d.fld 256 16 = m.raddr.toNat % 2 ^ 16 ∧ d.fld 272 16 = m.raddr.toNat / 2 ^ 16 % 2 ^ 16 ∧ d.fld 288 10 ∈ [m.source.toNat, 1023] ∧
        d.chen = false ∧ d.fld 160 64 = 0xA000 ∧ m.raddr.toNat / 2 ^ 32 = e.2 ∧ m.bytes.length = e.1 ∧
        (d.fld 224 32 < e.2 + e.1 ↔ 64 < e.2 + e.1) ∧ flatWalk s x (0xA000 + e.2) false true = true ∧ s.wct (0xA000 + e.2) e.1 ≤ s.pt := by
  decide +kernel

/-- A gather with an index beyond the rows. -/
theorem witness_TeaselCommands_gather :
    let s := demoGathers
    let d := demoGather
    s.op 7 = some (demoRan d 0 0) ∧ s.ctx 0 = some loadedContext ∧ d.fld 0 4 = 1 ∧ d.fld 256 64 = 0x9100 ∧ d.fld 384 32 = 4 ∧
      d.fld 416 32 = 3 ∧ d.fld 448 32 = 16 ∧ d.fld 192 64 = 0x9000 ∧ d.fld 320 64 = 0x9400 ∧ flatWalk s loadedContext 0x9100 true false = true ∧
      flatWalk s loadedContext 0x9000 true false = true ∧ flatWalk s loadedContext 0x9400 false true = true ∧
      s.wordAt 0x9100 < 3 ∧ 3 ≤ s.wordAt 0x9108 := by
  decide +kernel

/-- Each reduction, over what stands there and afresh. -/
theorem witness_TeaselCommands_reduce :
    ∀ m ∈ [false, true], ∀ o ∈ [false, true],
      let s := demoReduces m o
      let d := demoReduce m o
      s.op 7 = some (demoRan d 0 0) ∧ s.ctx 0 = some loadedContext ∧ d.fld 0 4 = 2 ∧ d.fld 256 64 = 0x9100 ∧ d.fld 384 32 = 4 ∧
        d.fld 416 32 = 2 ∧ d.fld 448 16 = 2 ∧ d.fld 192 64 = 0x9000 ∧ d.fld 320 64 = 0x9400 ∧ d.getLsbD 465 = o ∧
        ([0x9000, 0x9100, 0x9400].all fun a => flatWalk s loadedContext a true false) = true ∧
        flatWalk s loadedContext 0x9400 false true = true := by
  decide +kernel

/-- A stash and a restore of two blocks, the second of which is not whole, of every type and both forms. -/
theorem witness_TeaselCommands_stash :
    ∀ k ∈ [(4, 0, false), (4, 2, true), (5, 1, false), (5, 2, true)],
      let op := k.1
      let ty := k.2.1
      let small := k.2.2
      let s := demoStashes op ty small
      let d := demoStash op ty small
      s.op 7 = some (demoRan d 0 0) ∧ s.ctx 0 = some loadedContext ∧ d.fld 0 4 = op ∧ d.fld 320 32 = 70 ∧ d.fld 352 2 = ty ∧
        d.getLsbD 354 = small ∧ d.getLsbD 355 = false ∧ d.fld 192 64 = 0x9000 ∧ d.fld 256 64 = 0xA000 ∧
        flatWalk s loadedContext 0x9000 true false = true ∧ flatWalk s loadedContext 0xA000 false true = true := by
  decide +kernel

/-- A conversion each way, of every MX format and both plain ones. -/
theorem witness_TeaselCommands_convert :
    ∀ k ∈ [(true, 0, 5), (true, 2, 7), (true, 4, 7), (false, 1, 5), (false, 3, 5), (false, 0, 7)],
      let back := k.1
      let f := k.2.1
      let p := k.2.2
      let d := demoConvert back (if back then 1 else 0)
      let s := demoConverts back f p d
      let src := if back then demoPlain p else demoBlocks f
      let dst := if back then demoBlocks f else demoPlain p
      let e : TlbEntry := { demoLeaf with mx := true }
      s.op 7 = some (demoRan d src dst) ∧ s.ctx 0 = some loadedContext ∧ d.fld 0 4 = 3 ∧ src.shMx = !back ∧ dst.shMx = back ∧
        src.dim 0 = 40 ∧ dst.dim 0 = 40 ∧ 40 ≤ 32 * mxPerLine f ∧ src.whole.rows = 1 ∧ dst.whole.rows = 1 ∧
        (demoBlocks f).whole.line 0 0 = 0xA000 ∧ (demoPlain p).whole.start 0 = 0x9000 ∧ (demoBlocks f).shFmt = f ∧ (demoPlain p).shFmt = p ∧
        ([0x9000, 0xA000].all fun a => decide (walk s loadedContext a true false = .ok e) && decide (walk s loadedContext a false true = .ok e)) = true ∧
        e.phys 0xA000 = 0xA000 := by
  decide +kernel

/-- None of those writes reaches a page table. -/
theorem witness_TeaselCommands_tables :
    Untabled demoGathers loadedContext [(0x9400, 64)] ∧ (∀ m o, Untabled (demoReduces m o) loadedContext [(0x9400, 16)]) ∧
      Untabled (demoStashes 4 2 false) loadedContext [(0xA000, 128)] ∧ Untabled (demoStashes 5 2 true) loadedContext [(0xA000, 280)] :=
  ⟨untabled_flat rfl (by decide +kernel) (by decide), fun m o => untabled_flat rfl (by cases m <;> cases o <;> decide +kernel) (by decide),
    untabled_flat rfl (by decide +kernel) (by decide), untabled_flat rfl (by decide +kernel) (by decide)⟩

/-- A region without VALID, the first and the last. -/
theorem witness_MessagesAndPublication_invalid :
    ∀ n ∈ [0, 4095],
      let w := demoRegs [(9, BitVec.ofNat 32 n)] [] 0xB5
      let s := demoState w demoBlock loadedContext
      s.cur = some 0 ∧ s.wave 0 = some w ∧ s.block w.block = some demoBlock ∧ demoBlock.rsafe = false ∧
        readyOperands w demoBlock false [.sd 64 2, .ss 9 1] = true ∧ readyOperands w demoBlock false [.sd 64 1, .ss 9 1] = true ∧
        (w.rdS 9).toNat ≤ 4095 ∧ s.released w .device = true ∧ s.acquiring w false = false ∧
        ((s.ctxD demoBlock).regions.get Region.empty (w.rdS 9).toNat).valid = false := by
  decide +kernel

/-- The demonstration's tables, and those after reset, have their form; the demonstration has a step. -/
theorem witness_StepKeepsTables : State.reset.Tables ∧ demo.Tables :=
  ⟨⟨rfl, rfl, rfl, rfl, rfl, by decide +kernel, by decide +kernel, by decide +kernel⟩,
    ⟨rfl, rfl, rfl, rfl, rfl, by decide +kernel, by decide +kernel, by decide +kernel⟩⟩

/-- A submitted record whose page's translation is malformed. -/
theorem witness_RecordsAccepted_malformed :
    let s := demoSubmitted (2 ^ 60) 0 false
    (∀ x ∈ s.ctx 0, x.subs.map (·.addrs) = [[2 ^ 60]] ∧ walk s x (2 ^ 60) true true = .malformed) ∧ s.block 0 = none := by
  decide +kernel

end Sys2Proof.Tests
end

section
/-!
Writes of an instruction's lanes: distinct register elements, lane generators and exception flags, and what they show.
-/
namespace Sys2Proof.Machine

/-! ## Active lanes -/

theorem Wave.mem_active {w : Wave} {q : Nat} : q ∈ w.active ↔ q < w.lanes.length ∧ w.m0.getLsbD q = true := by
  simp [Wave.active, Wave.count]

theorem Wave.lt_of_mem_active {w : Wave} {q : Nat} (h : q ∈ w.active) : q < 64 :=
  BitVec.lt_of_getLsbD (Wave.mem_active.mp h).2

theorem Wave.nodup_active (w : Wave) : w.active.Nodup := List.nodup_range.filter _

/-! ## Writes of one lane -/

/-- A one-to-one image of distinct elements. -/
theorem nodup_map_of_injective {α β : Type} {f : α → β} {l : List α} (hf : ∀ a b, f a = f b → a = b) (h : l.Nodup) :
    (l.map f).Nodup :=
  List.Pairwise.map f (fun a b hab e => hab (hf a b e)) h

/-- The position that a vector or scale element belongs to. -/
def Elem.lane : Elem → Option Nat
  | .v k | .e k => some (k % 64)
  | .s _ => none

theorem Elem.lane_laneKey {q : Nat} (hq : q < 64) (reg : Nat) :
    (Elem.v (laneKey reg q)).lane = some q ∧ (Elem.e (laneKey reg q)).lane = some q := by
  have : (64 * reg + q) % 64 = q := by omega
  simp only [Elem.lane, laneKey, this, and_self]

/-- Distinct elements of lane `q`, each with a value that it can hold. -/
structure LaneWrites (q : Nat) (xs : List (Elem × Word)) : Prop where
  lane : ∀ xv ∈ xs, xv.1.lane = some q
  nodup : (xs.map (·.1)).Nodup
  fits : fitting xs

theorem LaneWrites.append {q : Nat} {xs ys : List (Elem × Word)} (hx : LaneWrites q xs) (hy : LaneWrites q ys)
    (hd : ∀ x ∈ xs.map (·.1), ∀ y ∈ ys.map (·.1), x ≠ y) : LaneWrites q (xs ++ ys) where
  lane := List.forall_mem_append.mpr ⟨hx.lane, hy.lane⟩
  nodup := by rw [List.map_append]; exact List.nodup_append.mpr ⟨hx.nodup, hy.nodup, hd⟩
  fits := List.forall_mem_append.mpr ⟨hx.fits, hy.fits⟩

/-- Writes of different lanes are writes of distinct elements. -/
theorem LaneWrites.nodup_flatMap {lanes : List Nat} {f : Nat → List (Elem × Word)} (hn : lanes.Nodup)
    (h : ∀ q ∈ lanes, LaneWrites q (f q)) : ((lanes.flatMap f).map (·.1)).Nodup := by
  rw [List.map_flatMap, List.Nodup, List.pairwise_flatMap]
  refine ⟨fun q hq => (h q hq).nodup, List.Pairwise.imp_of_mem (fun {q r} hq hr hqr x hx y hy hxy => hqr ?_) hn⟩
  obtain ⟨a, ha, rfl⟩ := List.mem_map.mp hx
  obtain ⟨b, hb, rfl⟩ := List.mem_map.mp hy
  exact Option.some.inj (((h q hq).lane a ha).symm.trans ((congrArg Elem.lane hxy).trans ((h r hr).lane b hb)))

theorem LaneWrites.fitting_flatMap {lanes : List Nat} {f : Nat → List (Elem × Word)} (h : ∀ q ∈ lanes, LaneWrites q (f q)) :
    fitting (lanes.flatMap f) := by
  intro xv hx
  obtain ⟨q, hq, hx⟩ := List.mem_flatMap.mp hx
  exact (h q hq).fits xv hx

theorem mem_wordRun {w : Wave} {d : BitVec 7} {q : Nat} {xs : List Word} {xv : Elem × Word} (h : xv ∈ w.wordRun d q xs) :
    ∃ k, xv.1 = .v (laneKey (w.phys d k) q) := by
  obtain ⟨x, -, rfl⟩ := List.mem_map.mp h
  exact ⟨x.2, rfl⟩

theorem mem_scaleRun {w : Wave} {d : BitVec 7} {q n : Nat} {c : Byte} {xv : Elem × Word} (h : xv ∈ w.scaleRun d q n c) :
    ∃ k, xv = (.e (laneKey (w.phys d k) q), c.setWidth 32) := by
  obtain ⟨k, -, rfl⟩ := List.mem_map.mp h
  exact ⟨k, rfl⟩

theorem laneKey_phys_inj (w : Wave) (d : BitVec 7) (q j k : Nat) (h : laneKey (w.phys d j) q = laneKey (w.phys d k) q) : j = k := by
  simp only [laneKey, Wave.phys] at h; omega

theorem LaneWrites.wordRun (w : Wave) (d : BitVec 7) {q : Nat} (hq : q < 64) (xs : List Word) :
    LaneWrites q (w.wordRun d q xs) where
  lane xv hx := by obtain ⟨k, hk⟩ := mem_wordRun hx; rw [hk]; exact (Elem.lane_laneKey hq _).1
  nodup := by
    have he : (w.wordRun d q xs).map (·.1) = (List.range' 0 xs.length).map fun k => Elem.v (laneKey (w.phys d k) q) := by
      rw [← List.zipIdx_map_snd 0 xs, Wave.wordRun, List.map_map, List.map_map]; rfl
    rw [he]
    exact nodup_map_of_injective (fun j k h => laneKey_phys_inj w d q j k (Elem.v.inj h)) List.nodup_range'
  fits xv hx := by obtain ⟨k, hk⟩ := mem_wordRun hx; rw [hk]; exact .inr rfl

theorem LaneWrites.scaleRun (w : Wave) (d : BitVec 7) {q : Nat} (hq : q < 64) (n : Nat) (c : Byte) :
    LaneWrites q (w.scaleRun d q n c) where
  lane xv hx := by obtain ⟨k, rfl⟩ := mem_scaleRun hx; exact (Elem.lane_laneKey hq _).2
  nodup := by
    have he : (w.scaleRun d q n c).map (·.1) = (List.range n).map fun k => Elem.e (laneKey (w.phys d k) q) := by
      simp [Wave.scaleRun, Function.comp_def]
    rw [he]
    exact nodup_map_of_injective (fun j k h => laneKey_phys_inj w d q j k (Elem.e.inj h)) List.nodup_range
  fits xv hx := by
    obtain ⟨k, rfl⟩ := mem_scaleRun hx
    refine .inr (BitVec.eq_of_toNat_eq ?_)
    simp [Elem.fits]

theorem LaneWrites.words_scales (w : Wave) (d : BitVec 7) {q : Nat} (hq : q < 64) (xs : List Word) (n : Nat) (c : Byte) :
    LaneWrites q (w.wordRun d q xs ++ w.scaleRun d q n c) := by
  refine (LaneWrites.wordRun w d hq xs).append (LaneWrites.scaleRun w d hq n c) fun x hx y hy hxy => ?_
  obtain ⟨a, ha, rfl⟩ := List.mem_map.mp hx
  obtain ⟨b, hb, rfl⟩ := List.mem_map.mp hy
  obtain ⟨j, hj⟩ := mem_wordRun ha
  obtain ⟨k, rfl⟩ := mem_scaleRun hb
  exact Elem.noConfusion (hj.symm.trans hxy)

/-! ## The model's register writes as writes of elements -/

theorem Wave.putElems_append (xs ys : List (Elem × Word)) (w : Wave) : w.putElems (xs ++ ys) = (w.putElems xs).putElems ys :=
  List.foldl_append

theorem Wave.putElems_csr (w : Wave) (xs : List (Elem × Word)) : (w.putElems xs).csr = w.csr :=
  (congrArg Wave.csr (w.putElems_rest xs).1 :)

/-- In every wave with the registers' window of `w`, `g` writes the elements `xs`, which are of lane `q`. -/
structure WritesLane (w : Wave) (q : Nat) (g : Wave → Wave) (xs : List (Elem × Word)) : Prop where
  eq : ∀ v : Wave, v.csr = w.csr → g v = v.putElems xs
  lane : LaneWrites q xs

theorem Wave.phys_congr {v w : Wave} (h : v.csr = w.csr) (n : BitVec 7) (k : Nat) : v.phys n k = w.phys n k := by
  simp only [Wave.phys, h]

theorem Wave.wrVk_eq {v w : Wave} (h : v.csr = w.csr) (d : BitVec 7) (k q : Nat) (x : Word) :
    v.wrVk d k q x = v.putElem (.v (laneKey (w.phys d k) q)) x := by
  rw [← Wave.phys_congr h]; rfl

theorem Wave.putE_phys_eq {v w : Wave} (h : v.csr = w.csr) (d : BitVec 7) (k q : Nat) (c : Byte) :
    v.putE (v.phys d k) q c = v.putElem (.e (laneKey (w.phys d k) q)) (c.setWidth 32) := by
  rw [Wave.putE_eq, Wave.phys_congr h]

theorem Wave.putElem_csr (w : Wave) (x : Elem) (v : Word) : (w.putElem x v).csr = w.csr := w.putElems_csr [(x, v)]

theorem WritesLane.wrV (w : Wave) (d : BitVec 7) {q : Nat} (hq : q < 64) (x : Word) :
    WritesLane w q (fun v => v.wrV d q x) (w.wordRun d q [x]) :=
  ⟨fun _ h => Wave.wrVk_eq h d 0 q x, LaneWrites.wordRun w d hq _⟩

theorem extractLsb'_lo_ofNat64 (c : Nat) : (BitVec.ofNat 64 c).extractLsb' 0 32 = BitVec.ofNat 32 c := by
  apply BitVec.eq_of_toNat_eq; simp

theorem extractLsb'_hi_ofNat64 (c : Nat) : (BitVec.ofNat 64 c).extractLsb' 32 32 = BitVec.ofNat 32 (c / 2 ^ 32) := by
  apply BitVec.eq_of_toNat_eq; simp [Nat.shiftRight_eq_div_pow]; omega

theorem WritesLane.wrV64 (w : Wave) (d : BitVec 7) {q : Nat} (hq : q < 64) (c : Nat) :
    WritesLane w q (fun v => v.wrV64 d q (BitVec.ofNat 64 c)) (w.wordRun d q [BitVec.ofNat 32 c, BitVec.ofNat 32 (c / 2 ^ 32)]) where
  eq v h := by
    rw [Wave.wrV64, extractLsb'_lo_ofNat64, extractLsb'_hi_ofNat64, Wave.wrVk_eq h, Wave.wrVk_eq ((Wave.putElem_csr ..).trans h)]
    rfl
  lane := LaneWrites.wordRun w d hq _

theorem Wave.wrRun_eq {w : Wave} (d : BitVec 7) (q : Nat) (xs : List Word) :
    ∀ {v : Wave}, v.csr = w.csr → v.wrRun d q xs = v.putElems (w.wordRun d q xs) := by
  have hz : xs.zip (List.range xs.length) = xs.zipIdx := by rw [List.zipIdx_eq_zip_range', List.range_eq_range']
  unfold Wave.wrRun Wave.wordRun
  rw [hz]
  induction xs.zipIdx with
  | nil => intro v _; rfl
  | cons x t ih =>
    intro v h
    rw [List.foldl_cons, List.map_cons, Wave.putElems_cons, Wave.wrVk_eq h]
    exact ih ((Wave.putElem_csr ..).trans h)

theorem Wave.wrScales_eq {w : Wave} (d : BitVec 7) (n q : Nat) (c : Byte) :
    ∀ {v : Wave}, v.csr = w.csr → v.wrScales d n q c = v.putElems (w.scaleRun d q n c) := by
  unfold Wave.wrScales Wave.scaleRun
  induction List.range n with
  | nil => intro v _; rfl
  | cons k t ih =>
    intro v h
    rw [List.foldl_cons, List.map_cons, Wave.putElems_cons, Wave.putE_phys_eq h]
    exact ih ((Wave.putElem_csr ..).trans h)

theorem WritesLane.wrRun (w : Wave) (d : BitVec 7) {q : Nat} (hq : q < 64) (xs : List Word) :
    WritesLane w q (fun v => v.wrRun d q xs) (w.wordRun d q xs) :=
  ⟨fun _ h => Wave.wrRun_eq d q xs h, LaneWrites.wordRun w d hq _⟩

theorem WritesLane.wrE (w : Wave) (d : BitVec 7) {q : Nat} (hq : q < 64) (c : Byte) :
    WritesLane w q (fun v => v.wrE d q c) (w.scaleRun d q 1 c) :=
  ⟨fun _ h => Wave.putE_phys_eq h d 0 q c, LaneWrites.scaleRun w d hq 1 c⟩

theorem WritesLane.wrRun_wrScales (w : Wave) (d : BitVec 7) {q : Nat} (hq : q < 64) (xs : List Word) (n : Nat) (c : Byte) :
    WritesLane w q (fun v => (v.wrRun d q xs).wrScales d n q c) (w.wordRun d q xs ++ w.scaleRun d q n c) where
  eq v h := by
    rw [Wave.putElems_append, Wave.wrRun_eq d q xs h]
    exact Wave.wrScales_eq d n q c ((Wave.putElems_csr ..).trans h)
  lane := LaneWrites.words_scales w d hq xs n c

theorem WritesLane.wrV_wrE (w : Wave) (d : BitVec 7) {q : Nat} (hq : q < 64) (x : Word) (c : Byte) :
    WritesLane w q (fun v => (v.wrV d q x).wrE d q c) (w.wordRun d q [x] ++ w.scaleRun d q 1 c) :=
  WritesLane.wrRun_wrScales w d hq [x] 1 c

/-- Writes lane by lane are the writes of all their elements. -/
theorem Wave.writeLanes_eq {α : Type} {w : Wave} {wr : Wave → Nat → α → Wave} {els : Nat → List (Elem × Word)} {f : Nat → α} :
    ∀ {lanes : List Nat} {v : Wave}, (∀ q ∈ lanes, WritesLane w q (fun v => wr v q (f q)) (els q)) → v.csr = w.csr →
      Wave.writeLanes wr (lanes.map fun q => (q, f q)) v = v.putElems (lanes.flatMap els)
  | [], _, _, _ => rfl
  | q :: t, v, h, hv => by
    have hq := (h q List.mem_cons_self).eq v hv
    rw [List.flatMap_cons, Wave.putElems_append, ← hq]
    exact Wave.writeLanes_eq (fun r hr => h r (List.mem_cons_of_mem q hr)) (by
      change (wr v q (f q)).csr = w.csr
      rw [show wr v q (f q) = _ from hq, Wave.putElems_csr, hv])

/-- A result in every lane of a list, and on to the next word. -/
theorem shows_writeLanes {α : Type} (w : Wave) {wr : Wave → Nat → α → Wave} {els : Nat → List (Elem × Word)} {f : Nat → α}
    {lanes : List Nat} (hn : lanes.Nodup) (h : ∀ q ∈ lanes, WritesLane w q (fun v => wr v q (f q)) (els q)) :
    Shows w (Wave.writeLanes wr (lanes.map fun q => (q, f q)) w).next (w.sets (lanes.flatMap els)) := by
  rw [Wave.writeLanes_eq h rfl]
  exact shows_next w _ (LaneWrites.nodup_flatMap hn fun q hq => (h q hq).lane) (LaneWrites.fitting_flatMap fun q hq => (h q hq).lane)

/-! ## Lane generators -/

/-- Several lane generators set. -/
def Wave.setGens (w : Wave) (gs : List (Nat × Word)) : Wave := gs.foldl (fun v g => v.setGen g.1 g.2) w

theorem Wave.genOf_setGen (w : Wave) (p q : Nat) (g : Word) : (w.setGen p g).genOf q = if q = p then g else w.genOf q :=
  SMap.get_put ..

/-- Generators set once each have their values. -/
theorem Wave.genOf_setGens (q : Nat) : ∀ (gs : List (Nat × Word)) (w : Wave), (gs.map (·.1)).Nodup →
    (w.setGens gs).genOf q = (gs.lookup q).getD (w.genOf q)
  | [], _, _ => rfl
  | (p, g) :: t, w, h => by
    rw [List.map_cons, List.nodup_cons] at h
    change ((w.setGen p g).setGens t).genOf q = _
    rw [Wave.genOf_setGens q t _ h.2, Wave.genOf_setGen, List.lookup_cons]
    by_cases hq : q = p
    · subst hq
      have : t.lookup q = none := by
        rw [List.lookup_eq_none_iff]
        intro y hy
        rw [bne_iff_ne]
        exact fun e => h.1 (List.mem_map.mpr ⟨y, hy, e.symm⟩)
      simp [this]
    · have : (q == p) = false := by simpa using hq
      simp [hq, this]

/-- Setting generators changes nothing else. -/
theorem Wave.setGens_rest : ∀ (gs : List (Nat × Word)) (w : Wave),
    ∃ g, w.setGens gs = { w with regs := { w.regs with gen := g } }
  | [], w => ⟨w.regs.gen, rfl⟩
  | (p, g) :: t, w => Wave.setGens_rest t (w.setGen p g)

/-- Setting generators is independent of writing elements. -/
theorem Wave.setGen_putElem (w : Wave) (q : Nat) (g : Word) (x : Elem) (v : Word) :
    (w.setGen q g).putElem x v = (w.putElem x v).setGen q g := by
  cases x with
  | v k => rfl
  | e k => rfl
  | s n => simp only [Wave.putElem, Wave.kill, Wave.commitElem, Wave.storeS, Wave.setGen]; split <;> rfl

theorem Wave.setGens_putElem (x : Elem) (v : Word) : ∀ (gs : List (Nat × Word)) (w : Wave),
    (w.setGens gs).putElem x v = (w.putElem x v).setGens gs
  | [], _ => rfl
  | (p, g) :: t, w => by
    change ((w.setGen p g).setGens t).putElem x v = ((w.putElem x v).setGen p g).setGens t
    rw [Wave.setGens_putElem x v t, Wave.setGen_putElem]

theorem Wave.setGens_putElems (gs : List (Nat × Word)) : ∀ (xs : List (Elem × Word)) (w : Wave),
    (w.setGens gs).putElems xs = (w.putElems xs).setGens gs
  | [], _ => rfl
  | (x, v) :: t, w => by
    rw [Wave.putElems_cons, Wave.setGens_putElem, Wave.setGens_putElems gs t, Wave.putElems_cons]

/-- What shows is also a change of generators and of exception flags, where those are set besides. -/
theorem Shows.deliver {w v : Wave} {xs : List (Elem × Word)} (h : Shows w v.next (w.sets xs)) (gs : List (Nat × Word))
    (hg : (gs.map (·.1)).Nodup) (fl : FpFlags) :
    Shows w ((v.setGens gs).raise fl).next ⟨xs, [], gs, fl, w.pc + 4⟩ := by
  have hgen : ∀ q, (v.setGens gs).genOf q = (gs.lookup q).getD (w.genOf q) := fun q => by
    rw [Wave.genOf_setGens q gs v hg]; congr 1; exact h.gens q
  obtain ⟨g, hr⟩ := v.setGens_rest gs
  rw [hr] at hgen ⊢
  have hcsr : { v.csr with retired := v.csr.retired + 1 } = { w.csr with retired := w.csr.retired + 1 } :=
    h.csr.trans (by simp [Wave.sets])
  refine ⟨h.elems, h.masks, hgen, h.pc, ?_, h.pending, h.vPoison, h.ePoison, h.sPoison, h.vBusy, h.rest⟩
  have := congrArg (fun c : Csrs => { c with fsticky := c.fsticky ||| fl }) hcsr
  exact this

end Sys2Proof.Machine
end

section
/-!
Floating-point delivery (01 R30, R31): when an instruction traps, and what it delivers otherwise.
-/
namespace Sys2Proof.Machine

/-! ## Flags -/

theorem getLsbD_flagUnion (k : Nat) (l : List (Nat × FpFlags)) :
    (flagUnion l).getLsbD k = l.any fun x => x.2.getLsbD k := by
  have h : ∀ f : FpFlags, (l.foldl (fun f lf => f ||| lf.2) f).getLsbD k = (f.getLsbD k || l.any fun x => x.2.getLsbD k) := by
    induction l with
    | nil => intro f; simp
    | cons x t ih => intro f; rw [List.foldl_cons, ih, BitVec.getLsbD_or, List.any_cons, Bool.or_assoc]
  rw [flagUnion, h]; simp

theorem firstEnabled_eq_none {raised enabled : FpFlags} (h : ∀ k < 6, (raised.getLsbD k && enabled.getLsbD k) = false) :
    firstEnabled raised enabled = none := by
  rw [firstEnabled, List.find?_eq_none]
  intro k hk
  rw [h k (List.mem_range.mp hk)]; exact Bool.false_ne_true

theorem flagUnion_and_eq_false {raised : List (Nat × FpFlags)} {enabled : FpFlags} {k : Nat}
    (h : ∀ x ∈ raised, (x.2.getLsbD k && enabled.getLsbD k) = false) :
    ((flagUnion raised).getLsbD k && enabled.getLsbD k) = false := by
  rw [getLsbD_flagUnion, Bool.and_eq_false_iff, List.any_eq_false]
  by_cases he : enabled.getLsbD k = true
  · exact .inl fun x hx => by simpa [he] using h x hx
  · exact .inr (by simpa using he)

/-- Where no enabled exception is raised, nothing traps. -/
theorem fpTrap_eq_none {w : Wave} {raised : List (Nat × FpFlags)} (h : ∀ x ∈ raised, x.2 &&& w.csr.ftrapen = 0) :
    fpTrap w raised = none := by
  have hn : firstEnabled (flagUnion raised) w.csr.ftrapen = none :=
    firstEnabled_eq_none fun k _ => flagUnion_and_eq_false fun x hx => by
      rw [← BitVec.getLsbD_and, h x hx]; exact BitVec.getLsbD_zero
  rw [fpTrap, hn]

/-- The first enabled exception that is raised traps, with the lanes that raised it. -/
theorem fpTrap_eq_some {w : Wave} {raised : List (Nat × FpFlags)} {k : Nat} (hk : k < 6) (he : w.csr.ftrapen.getLsbD k = true)
    (hr : ∃ x ∈ raised, x.2.getLsbD k = true)
    (hf : ∀ j < k, w.csr.ftrapen.getLsbD j = true → ∀ x ∈ raised, x.2.getLsbD j = false) :
    fpTrap w raised =
      some ⟨BitVec.ofNat 8 (9 + k), (flagLanes k raised).extractLsb' 0 32, (flagLanes k raised).extractLsb' 32 32⟩ := by
  have hs : firstEnabled (flagUnion raised) w.csr.ftrapen = some k := by
    rw [firstEnabled, List.find?_range_eq_some]
    refine ⟨?_, List.mem_range.mpr hk, fun j hj => ?_⟩
    · rw [he, getLsbD_flagUnion, Bool.and_true, List.any_eq_true]; exact hr
    · rw [flagUnion_and_eq_false fun x hx => ?_]; rfl
      by_cases hej : w.csr.ftrapen.getLsbD j = true
      · rw [hf j hj hej x hx, Bool.false_and]
      · rw [Bool.not_eq_true] at hej; rw [hej, Bool.and_false]
  rw [fpTrap, hs]; rfl

theorem Wave.flagTrap_eq (w : Wave) (flags : Nat → FpFlags) (k : Nat) :
    let m := flagLanes k (w.active.map fun q => (q, flags q))
    w.flagTrap flags k = ⟨BitVec.ofNat 8 (9 + k), m.extractLsb' 0 32, m.extractLsb' 32 32⟩ := by
  simp only [Wave.flagTrap, maskOf, flagLanes, List.foldl_map]; rfl

/-- The lanes' flags trap where one of them is the first enabled exception. -/
theorem fpTrap_of_raisesFirst {w : Wave} {flags : Nat → FpFlags} {k : Nat} (hk : k < 6) (h : w.raisesFirst flags k) :
    fpTrap w (w.active.map fun q => (q, flags q)) = some (w.flagTrap flags k) := by
  obtain ⟨he, ⟨q, hq, hr⟩, hf⟩ := h
  rw [Wave.flagTrap_eq]
  refine fpTrap_eq_some hk he ⟨(q, flags q), List.mem_map_of_mem (f := fun q => (q, flags q)) hq, hr⟩ fun j hj hej x hx => ?_
  obtain ⟨r, hr, rfl⟩ := List.mem_map.mp hx
  exact hf j hj hej r hr

theorem fpTrap_lanes_eq_none {w : Wave} {flags : Nat → FpFlags} (h : ∀ q ∈ w.active, flags q &&& w.csr.ftrapen = 0) :
    fpTrap w (w.active.map fun q => (q, flags q)) = none :=
  fpTrap_eq_none (List.forall_mem_map.mpr h)

/-! ## Lane instructions -/

/-- The same changes, under a condition that is not weaker. -/
theorem Completes.congr {i : Instr} {parks : Wave → Bool} {ops : List Opnd} {may may' : Wave → Prop} {c c' : Wave → Change}
    (h : Completes i parks ops may c) (hm : ∀ w, may' w → may w) (hc : ∀ w, may' w → c w = c' w) : Completes i parks ops may' c' := by
  intro s u w b hr hw
  rw [← hc _ hw]
  exact h s u w b hr (hm _ hw)

/-- An instruction other than the forerunner's may issue in a wave that is not one. -/
theorem notFore_eq_none (s : State) {w : Wave} (h : w.fore = false) : notFore s w = none := by
  simp [notFore, h]

/-- A lane instruction without exceptions: a result in every lane of a list. -/
theorem Completes.of_lanes {α : Type} {i : Instr} {p : Bool} {ops : List Opnd} {lanes : Wave → List Nat} {f : Wave → Nat → α}
    {wr : Wave → Nat → α → Wave} {els : Wave → Nat → List (Elem × Word)}
    (he : ∀ s, exec i s = issue s p ⟨false, noEntry, notFore, ops⟩ fun u w _ =>
      .done (s.setWave u (Wave.writeLanes wr ((lanes w).map fun q => (q, f w q)) w).next))
    (hn : ∀ w, (lanes w).Nodup) (hw : ∀ w, ∀ q ∈ lanes w, WritesLane w q (fun v => wr v q (f w q)) (els w q)) :
    Completes i (fun _ => p) ops (fun w => w.fore = false) fun w => w.sets ((lanes w).flatMap (els w)) :=
  .of_issue (I := fun _ => ⟨false, noEntry, notFore, ops⟩) he (fun _ w => by simp) (fun _ => rfl)
    (fun s _ h => notFore_eq_none s h) fun _ _ w _ _ _ => ⟨_, rfl, shows_writeLanes w (hn w) (hw w)⟩

theorem Wave.inLanes_eq (w : Wave) (d : BitVec 7) (f : Nat → Word) :
    w.inLanes d f = w.active.flatMap fun q => w.wordRun d q [f q] := by
  rw [Wave.inLanes, List.map_eq_flatMap]; rfl

theorem Wave.moved_eq (w : Wave) (d : BitVec 7) (lanes : List Nat) (f : Nat → Word × Byte) :
    w.moved d lanes f = lanes.flatMap fun q => w.wordRun d q [(f q).1] ++ w.scaleRun d q 1 (f q).2 := rfl

/-- A lane instruction with a word result. -/
theorem completes_vlanes {i : Instr} {p : Bool} {ops : List Opnd} {d : BitVec 7} {f : Wave → Nat → Word}
    (he : ∀ s, exec i s = vlanes s p ops d f) :
    Completes i (fun _ => p) ops (fun w => w.fore = false) fun w => w.sets (w.inLanes d (f w)) := by
  simp only [Wave.inLanes_eq]
  exact .of_lanes he Wave.nodup_active fun w q hq => .wrV w d (Wave.lt_of_mem_active hq) _

/-- Results with generators, lane by lane. -/
theorem Wave.writeLanes_setGen_eq {α : Type} {w : Wave} {wr : Wave → Nat → α → Wave} {els : Nat → List (Elem × Word)}
    {f : Nat → LaneOut α} : ∀ {lanes : List Nat} {v : Wave},
      (∀ q ∈ lanes, WritesLane w q (fun v => wr v q (f q).val) (els q)) → v.csr = w.csr →
      Wave.writeLanes (fun v q (o : LaneOut α) => (wr v q o.val).setGen q o.gen) (lanes.map fun q => (q, f q)) v =
        (v.putElems (lanes.flatMap els)).setGens (lanes.map fun q => (q, (f q).gen))
  | [], _, _, _ => rfl
  | q :: t, v, h, hv => by
    have hq := (h q List.mem_cons_self).eq v hv
    have ht := Wave.writeLanes_setGen_eq (lanes := t) (v := (v.putElems (els q)).setGen q (f q).gen)
      (fun r hr => h r (List.mem_cons_of_mem q hr)) ((Wave.putElems_csr ..).trans hv)
    rw [List.flatMap_cons, Wave.putElems_append]
    refine Eq.trans ?_ (ht.trans ?_)
    · exact congrArg (fun v => Wave.writeLanes (fun v q (o : LaneOut α) => (wr v q o.val).setGen q o.gen)
        (t.map fun q => (q, f q)) (v.setGen q (f q).gen)) hq
    · rw [show ∀ v : Wave, v.setGen q (f q).gen = v.setGens [(q, (f q).gen)] from fun _ => rfl, Wave.setGens_putElems]; rfl

/-- A fixed-latency floating-point instruction delivers its lanes' results. -/
theorem Delivers.of_fpLanes {α : Type} {i : Instr} {p : Bool} {ops : List Opnd} {wr : Wave → Nat → α → Wave}
    {f : Wave → Nat → LaneOut α} {els : Wave → Nat → List (Elem × Word)} (he : ∀ s, exec i s = fpLanes s p ops wr f)
    (hw : ∀ w q, q < 64 → WritesLane w q (fun v => wr v q (f w q).val) (els w q)) :
    Delivers i p ops fun w q => ⟨els w q, (f w q).flags, (f w q).gen⟩ where
  done := by
    refine .of_issue (I := fun _ => ⟨false, noEntry, notFore, ops⟩) he (fun _ w => by simp) (fun _ => rfl)
      (fun s _ h => notFore_eq_none s h.1) fun s u w b ⟨_, hz⟩ _ => ?_
    have hl : ∀ q ∈ w.active, WritesLane w q (fun v => wr v q (f w q).val) (els w q) := fun q hq => hw w q (Wave.lt_of_mem_active hq)
    have hs := shows_writeLanes w w.nodup_active hl
    rw [Wave.writeLanes_eq hl rfl] at hs
    refine ⟨_, ?_, hs.deliver (w.active.map fun q => (q, (f w q).gen)) (by simpa [Function.comp_def] using w.nodup_active)
      (flagUnion (w.active.map fun q => (q, (f w q).flags)))⟩
    have ht : fpTrap w ((w.perLane (f w)).map fun o => (o.1, o.2.flags)) = none := by
      rw [Wave.perLane, List.map_map]; exact fpTrap_lanes_eq_none hz
    simp only [fpDeliver, ht]
    rw [Wave.perLane, Wave.writeLanes_setGen_eq hl rfl, List.map_map]
    rfl
  traps k hk := by
    refine .of_issue (I := fun _ => ⟨false, noEntry, notFore, ops⟩) he (fun _ w => by simp) (fun _ => rfl)
      (fun s _ _ _ _ h => notFore_eq_none s h.1) fun s u w b _ ⟨_, hr⟩ => ?_
    have ht : fpTrap w ((w.perLane (f w)).map fun o => (o.1, o.2.flags)) = some (w.flagTrap (fun q => (f w q).flags) k) := by
      rw [Wave.perLane, List.map_map]; exact fpTrap_of_raisesFirst hk hr
    simp only [fpDeliver, ht]
    rfl

/-- The generator after the draw a rounding takes, and the draw. -/
theorem drawFor_eq (r : Rounding) (g : Word) :
    drawFor r g = (if r = .rsr then drawStep g else g, if r = .rsr then (drawStep g).toNat else 0) := by
  unfold drawFor; split <;> rfl

end Sys2Proof.Machine
end

section
/-!
Rounding (01 R21): a value that a format represents rounds to its own code.
-/
namespace Sys2Proof.Machine

/-- A multiple of the gap rounds to itself. -/
theorem roundAt_self (r : Rounding) (neg : Bool) (m D : Nat) (e : Int) : roundAt r neg m e false e D = (m, false) := by
  simp [roundAt]

/-- A format without infinities and NaNs has a number for every magnitude. -/
def Fmt.Proper (f : Fmt) : Prop := f.kind = .finite → f.signW ≤ f.maxCode + 1

/-- The magnitude of a finite code is one of the format's numbers, whose significand and exponent are those of the code. -/
theorem Fmt.decode_eq_fin {f : Fmt} (hf : f.Proper) {c m : Nat} {n : Bool} {e : Int} (h : f.decode c = .fin n m e) :
    let mag := c % f.signW
    mag ≤ f.maxCode ∧ n = decide (c / f.signW % 2 = 1) ∧
      if mag / 2 ^ f.fb = 0 then m = mag % 2 ^ f.fb ∧ e = f.emin - f.fb
      else m = 2 ^ f.fb + mag % 2 ^ f.fb ∧ e = ((mag / 2 ^ f.fb : Nat) : Int) - f.bias - f.fb := by
  intro mag
  have hmag : mag ≤ f.maxCode := by
    refine Nat.le_of_not_lt fun hgt => ?_
    have hlt : mag < f.signW := Nat.mod_lt _ (Nat.two_pow_pos _)
    unfold Fmt.decode at h
    simp only [show ¬ c % f.signW ≤ f.maxCode from Nat.not_le.mpr hgt, if_false] at h
    split at h
    · split at h <;> cases h
    · split at h <;> cases h
    · cases h
    · next hk => have := hf hk; omega
  refine ⟨hmag, ?_⟩
  unfold Fmt.decode at h
  simp only [show c % f.signW ≤ f.maxCode from hmag, if_true] at h
  by_cases hx : mag / 2 ^ f.fb = 0
  · rw [if_pos hx] at h; cases h
    exact ⟨rfl, by rw [if_pos hx]; exact ⟨rfl, rfl⟩⟩
  · rw [if_neg hx] at h; cases h
    exact ⟨rfl, by rw [if_neg hx]; exact ⟨rfl, rfl⟩⟩

/-- The gap at a number of the format is the weight of its last place. -/
theorem Fmt.round_of_gap {f : Fmt} {m mag : Nat} {e : Int} (hm : m ≠ 0) (hq : max ((Nat.log2 m : Int) + e) f.emin - f.fb = e)
    (hc : (e + f.bias + f.fb - 1) * (2 ^ f.fb : Nat) + m = mag) (hmax : mag ≤ f.maxCode) (r : Rounding) (sat n : Bool) (D : Nat) :
    f.round r sat n m e false D = ⟨f.sgn n + mag, 0⟩ := by
  simp only [Fmt.round, if_neg hm, hq, roundAt_self, hc, Int.toNat_natCast, Nat.not_lt.mpr hmax, if_false, Bool.and_false]
  rfl

theorem Fmt.sgn_add_mod {f : Fmt} {c : Nat} (hc : c < 2 ^ f.bits) :
    f.sgn (decide (c / f.signW % 2 = 1)) + c % f.signW = c := by
  have hb : 2 ^ f.bits = f.signW * 2 := by rw [Fmt.bits, Fmt.signW, Nat.add_assoc, Nat.pow_add, Nat.mul_comm]
  have hd : c / f.signW < 2 := Nat.div_lt_of_lt_mul (hb ▸ hc)
  have hdm := Nat.div_add_mod c f.signW
  unfold Fmt.sgn
  generalize c / f.signW = t at hd hdm
  have : t = 0 ∨ t = 1 := by omega
  rcases this with rfl | rfl
  · simpa using hdm
  · simpa using hdm

/-- The place of a normal number among the codes: its exponent field less one, then its significand with the hidden bit. -/
theorem code_of_normal (ex P fr : Nat) : ((ex : Int) - 1) * (P : Nat) + (P + fr : Nat) = ((P * ex + fr : Nat) : Int) := by
  rw [Int.sub_mul, Int.one_mul, Int.mul_comm, Int.natCast_add, Int.natCast_add, Int.natCast_mul]
  omega

/-- A finite value that a format represents rounds to its code in every rounding mode, and raises nothing (01 R21). -/
theorem Fmt.round_decode {f : Fmt} (hf : f.Proper) {c m : Nat} {n : Bool} {e : Int} (hc : c < 2 ^ f.bits)
    (h : f.decode c = .fin n m e) (r : Rounding) (sat : Bool) (D : Nat) : f.round r sat n m e false D = ⟨c, 0⟩ := by
  obtain ⟨hmax, hn, hme⟩ := Fmt.decode_eq_fin hf h
  have hcode : f.sgn n + c % f.signW = c := by rw [hn]; exact Fmt.sgn_add_mod hc
  generalize c % f.signW = mag at hmax hme hcode
  have hdm := Nat.div_add_mod mag (2 ^ f.fb)
  have hlt : mag % 2 ^ f.fb < 2 ^ f.fb := Nat.mod_lt _ (Nat.two_pow_pos _)
  split at hme
  case isTrue hx =>
    obtain ⟨rfl, rfl⟩ := hme
    have hmm : mag % 2 ^ f.fb = mag := by rw [hx] at hdm; omega
    rw [hmm] at hlt ⊢
    by_cases hz : mag = 0
    · subst hz; rw [← hcode]; rfl
    · have hlog : Nat.log2 mag < f.fb := (Nat.log2_lt hz).mpr hlt
      have hval : (f.emin - f.fb + f.bias + f.fb - 1) * (2 ^ f.fb : Nat) + mag = (mag : Int) := by
        rw [show f.emin - f.fb + f.bias + f.fb - 1 = 0 by rw [Fmt.emin]; omega, Int.zero_mul, Int.zero_add]
      rw [Fmt.round_of_gap hz (by omega) hval hmax, hcode]
  case isFalse hx =>
    obtain ⟨rfl, rfl⟩ := hme
    generalize mag / 2 ^ f.fb = ex at hx hdm
    generalize mag % 2 ^ f.fb = fr at hdm hlt
    have hne : 2 ^ f.fb + fr ≠ 0 := by have := Nat.two_pow_pos f.fb; omega
    have hlog : Nat.log2 (2 ^ f.fb + fr) = f.fb :=
      (Nat.log2_eq_iff hne).mpr ⟨by omega, by rw [Nat.pow_succ]; omega⟩
    have hval : ((ex : Int) - f.bias - f.fb + f.bias + f.fb - 1) * (2 ^ f.fb : Nat) + (2 ^ f.fb + fr : Nat) = (mag : Int) := by
      rw [← hdm, show (ex : Int) - f.bias - f.fb + f.bias + f.fb - 1 = ex - 1 by omega]
      exact code_of_normal ex _ fr
    rw [Fmt.round_of_gap hne (by rw [hlog, Fmt.emin]; omega) hval hmax, hcode]

/-- Settles O26: each of the nine formats is proper. -/
theorem roundingIsExact : Obligations.RoundingIsExact := by
  intro f hf c m D n sat e r hc h
  refine Fmt.round_decode ?_ hc h r sat D
  unfold Fmt.Proper
  clear hc h
  revert f
  decide

end Sys2Proof.Machine
end

section
/-!
Writes of control and status registers (02 R65; 04 R119, R128).
-/
namespace Sys2Proof.Machine

/-- A unit that is ready but where the instruction may not run traps (03 R91, check 4). -/
theorem issue_refused {s : State} {u : Nat} {w : Wave} {b : Block} {p : Bool} {i : Issue} {t : Trap}
    {body : Nat → Wave → Block → Eff} (h : Ready s u w b (i.parks p w) i.opnds)
    (ha : i.allowed s (w.parked (i.parks p w)) = some t) :
    issue s p i body = .next (s.trap u (w.parked (i.parks p w)) t) := by
  have hr : (i.parks p w && !w.arrived) = false := by
    cases hk : i.parks p w
    · rfl
    · rw [h.arrived hk]; rfl
  have hd : (if i.parks p w then (w.parked (i.parks p w)).deferred else []) = [] := by
    split
    · next hk => rw [hk, Wave.parked_true, Wave.commit_deferred]; exact h.clean hk
    · rfl
  unfold issue
  simp only [h.current, h.wave, h.block, Option.bind_some, Option.map_some, hr, Bool.false_eq_true, if_false]
  unfold Wave.parked at *
  simp only [hd, ha]

/-- An instruction that may not run where it is raises the trap of check 4. -/
theorem Raises.of_refused {i : Instr} {p : Bool} {I : State → Issue} {body : State → Nat → Wave → Block → Eff} {parks : Wave → Bool}
    {ops : List Opnd} {may : State → Nat → Wave → Block → Prop} {t : State → Wave → Block → Trap}
    (he : ∀ s, exec i s = issue s p (I s) (body s)) (hp : ∀ s w, (I s).parks p w = parks w) (ho : ∀ s, (I s).opnds = ops)
    (ha : ∀ s u w b, may s u w b → (I s).allowed s w = some (t s w b)) : Raises i parks ops may t := by
  intro s u w b h hm
  rw [← hp s w, ← ho s] at h
  rw [← hp s w] at hm ⊢
  rw [he, issue_refused h (ha s u _ b hm)]

/-! ## CSRW, CSRS and CSRC -/

/-- The three instructions that write a control register, with the new value of each from the old one and S[d]. -/
def csrWriters (p : Bool) (d : BitVec 7) (i : BitVec 14) : List (Instr × (Word → Word → Word)) :=
  [(.csrw p d i, fun _ v => v), (.csrs p d i, fun o v => o ||| v), (.csrc p d i, fun o v => o &&& ~~~v)]

theorem exec_of_mem_csrWriters {p : Bool} {d : BitVec 7} {i : BitVec 14} {f : Instr × (Word → Word → Word)}
    (h : f ∈ csrWriters p d i) (s : State) : exec f.1 s = csrChange s p d i f.2 := by
  simp only [csrWriters, List.mem_cons, List.not_mem_nil, or_false] at h
  obtain rfl | rfl | rfl := h <;> rfl

/-- A write of a register that changes registers of control alone. -/
theorem answers_csrChange {p : Bool} {d : BitVec 7} {i : BitVec 14} {f : Instr × (Word → Word → Word)} {old : Wave → Word}
    {wr : Wave → Word → Wave} (h : f ∈ csrWriters p d i) (ho : ∀ w, csrOld w i.toNat = old w)
    (hw : ∀ w x, csrWrite w i.toNat x = some (wr w x))
    (hn : ∀ w x, (wr w x).next = { wr w x with pc := w.pc + 4, csr := { (wr w x).csr with retired := w.csr.retired + 1 } }) :
    Answers f.1 (fun _ => p) [.ss d 1] (fun _ _ _ _ => True) fun s u w _ =>
      s.setWave u { wr w (f.2 (old w) (w.rdS d)) with
        pc := w.pc + 4
        csr := { (wr w (f.2 (old w) (w.rdS d))).csr with retired := w.csr.retired + 1 } } := by
  refine .of_issue (I := fun _ => ⟨false, noEntry, anywhere, [.ss d 1]⟩) (exec_of_mem_csrWriters h) (fun _ w => by simp) (fun _ => rfl)
    (fun _ _ _ _ _ _ => rfl) fun s u w b _ _ => ?_
  simp only [hw, ho]
  exact ⟨_, rfl, congrArg (fun v => { s.setWave u v with blocked := [] }) (hn w _)⟩

/-- The generators after a write of SEED (01 R26). -/
theorem Wave.reseed_eq (w : Wave) (seed : Word) :
    w.reseed seed = Wave.setGens { w with csr := { w.csr with seed := seed } }
      ((List.range w.lanes.length).map fun k => (k, seedLane seed (w.lanes.getD k 0))) := by
  rw [Wave.setGens, List.foldl_map]; rfl

theorem Wave.parked_lanes (w : Wave) (parks : Bool) : (w.parked parks).lanes = w.lanes := by
  cases parks
  · rfl
  · exact w.commit_lanes

theorem Wave.raise_zero (w : Wave) : w.raise 0 = w := by simp [Wave.raise]

theorem shows_reseed (w : Wave) (seed : Word) :
    Shows { w with csr := { w.csr with seed := seed } } (w.reseed seed).next
      { w.sets [] with gens := (List.range w.lanes.length).map fun k => (k, seedLane seed (w.lanes.getD k 0)) } := by
  have h := shows_next { w with csr := { w.csr with seed := seed } } [] List.nodup_nil (by simp [fitting])
  have hd := h.deliver ((List.range w.lanes.length).map fun k => (k, seedLane seed (w.lanes.getD k 0)))
    (by simpa [Function.comp_def] using List.nodup_range) 0
  rw [Wave.raise_zero] at hd
  rw [Wave.reseed_eq]
  exact hd

/-- A write of SEED reseeds every lane's generator. -/
theorem performs_csrChange_seed {p : Bool} {d : BitVec 7} {f : Instr × (Word → Word → Word)} (hf : f ∈ csrWriters p d 0x022)
    {s : State} {u : Nat} {w : Wave} {b : Block} (h : Ready s u w b p [.ss d 1]) :
    let seed := f.2 (w.parked p).csr.seed ((w.parked p).rdS d)
    Performs s (exec f.1 s) u { w.parked p with csr := { (w.parked p).csr with seed := seed } }
      { (w.parked p).sets [] with gens := (List.range w.lanes.length).map fun k => (k, seedLane seed (w.lanes.getD k 0)) } := by
  intro seed
  refine ⟨((w.parked p).reseed seed).next, ?_, ?_⟩
  · rw [exec_of_mem_csrWriters hf, csrChange, issue_at h (by simp) rfl rfl]
    rfl
  · rw [← Wave.parked_lanes w p]; exact shows_reseed _ seed

/-- The indices of the map of 02 R65. -/
theorem csrRead_eq_none {i : Nat} (h : i ∉ (List.range 14).map (· + 0x000) ++ (List.range 6).map (· + 0x010) ++
    (List.range 8).map (· + 0x020) ++ (List.range 5).map (· + 0x030)) (u : Nat) (w : Wave) (b : Block) (x : Context) :
    csrRead u w b x i = none := by
  unfold csrRead
  split <;> simp at h ⊢

theorem csrWrite_eq_none {i : Nat} (h : i ∉ (List.range 6).map (· + 0x020)) (w : Wave) (x : Word) : csrWrite w i x = none := by
  unfold csrWrite
  split <;> simp at h ⊢

theorem exec_csrr (p : Bool) (d : BitVec 7) (i : BitVec 14) (s : State) : exec (.csrr p d i) s = execCsrr p d i s := rfl

theorem raises_csrr_unmapped (p : Bool) (d : BitVec 7) {i : BitVec 14}
    (hi : i.toNat ∉ (List.range 14).map (· + 0x000) ++ (List.range 6).map (· + 0x010) ++
      (List.range 8).map (· + 0x020) ++ (List.range 5).map (· + 0x030)) :
    Raises (.csrr p d i) (fun _ => p) [.sd d 1] (fun s _ _ b => (s.ctx b.ctx).isSome) fun s _ _ => ⟨0x01#8, s.ir, 6⟩ := by
  have hn : ¬(0x010 ≤ i.toNat ∧ i.toNat ≤ 0x013) := fun hr => hi (by
    simp only [List.mem_append, List.mem_map, List.mem_range]
    exact .inl (.inl (.inr ⟨i.toNat - 0x010, by omega, by omega⟩)))
  intro s u w b h hx
  obtain ⟨x, hx⟩ := Option.isSome_iff_exists.mp hx
  rw [exec_csrr, execCsrr, issue_at h (by simp [Issue.parks, hn]) rfl rfl]
  simp only [hx, if_neg hn, csrRead_eq_none hi]
  rfl

theorem raises_csrChange_readOnly {p : Bool} {d : BitVec 7} {i : BitVec 14} (h : i.toNat ∉ (List.range 6).map (· + 0x020))
    {f : Instr × (Word → Word → Word)} (hf : f ∈ csrWriters p d i) :
    Raises f.1 (fun _ => p) [.ss d 1] (fun _ _ _ _ => True) fun s _ _ => ⟨0x01#8, s.ir, 6⟩ := by
  refine .of_issue (I := fun _ => ⟨false, noEntry, anywhere, [.ss d 1]⟩) (exec_of_mem_csrWriters hf) (fun _ w => by simp) (fun _ => rfl)
    (fun _ _ _ _ _ _ => rfl) fun s u w b _ _ => ?_
  simp only [csrWrite_eq_none h]
  rfl

/-! ## WBASE -/

theorem notForeCpt_eq_none (s : State) {w : Wave} (h : (w.fore || w.cpt) = false) : notForeCpt s w = none := by
  simp [notForeCpt, h]

theorem exec_wbase (p : Bool) (n : BitVec 5) (s : State) : exec (.wbase p n) s = execWbase p n s := rfl

theorem answers_wbase (p : Bool) (n : BitVec 5) :
    Answers (.wbase p n) (fun _ => true) [] (fun _ _ w b => (w.fore || w.cpt) = false ∧ 8 * n.toNat < b.vregs)
      fun s u w _ => s.setWave u { w with pc := w.pc + 4, csr := { w.csr with winbase := 8 * n.toNat, retired := w.csr.retired + 1 } } := by
  refine .of_issue (I := fun _ => ⟨true, noEntry, notForeCpt, []⟩) (exec_wbase p n) (fun _ w => by simp) (fun _ => rfl)
    (fun s _ _ _ _ h => notForeCpt_eq_none s h.1) fun s u w b _ ⟨_, hn⟩ => ?_
  simp only [Nat.not_le.mpr hn, if_false]
  exact ⟨_, rfl, rfl⟩

theorem raises_wbase_beyond (p : Bool) (n : BitVec 5) :
    Raises (.wbase p n) (fun _ => true) [] (fun _ _ w b => (w.fore || w.cpt) = false ∧ b.vregs ≤ 8 * n.toNat)
      fun s _ _ => ⟨0x02#8, s.ir, BitVec.ofNat 32 (8 * n.toNat)⟩ := by
  refine .of_issue (I := fun _ => ⟨true, noEntry, notForeCpt, []⟩) (exec_wbase p n) (fun _ w => by simp) (fun _ => rfl)
    (fun s _ _ _ _ h => notForeCpt_eq_none s h.1) fun s u w b _ ⟨_, hn⟩ => ?_
  simp only [hn, if_true]
  rfl

theorem raises_wbase_refused (p : Bool) (n : BitVec 5) :
    Raises (.wbase p n) (fun _ => true) [] (fun _ _ w _ => (w.fore || w.cpt) = true) fun s _ _ => ⟨0x01#8, s.ir, 4⟩ := by
  refine .of_refused (I := fun _ => ⟨true, noEntry, notForeCpt, []⟩) (exec_wbase p n) (fun _ w => by simp) (fun _ => rfl)
    fun s u w b h => ?_
  simp only [notForeCpt, h, if_true]
  rfl

/-- Settles O15: register by register, then the indices that cannot be read or written, then WBASE. -/
theorem controlWrites : Obligations.ControlWrites := by
  refine ⟨fun p d e he f hf => ?_, fun p d f hf s u w b h => performs_csrChange_seed hf h, fun p d i => ⟨?_, ?_⟩,
    fun p n => ⟨answers_wbase p n, raises_wbase_beyond p n, raises_wbase_refused p n⟩⟩
  · simp only [List.mem_cons, List.not_mem_nil, or_false] at he
    obtain rfl | rfl | rfl | rfl | rfl := he <;>
      exact answers_csrChange hf (fun _ => rfl) (fun _ _ => rfl) fun _ _ => rfl
  · exact raises_csrr_unmapped p d
  · intro h e he
    obtain ⟨f, hf, rfl⟩ := List.mem_map.mp (show e ∈ (csrWriters p d i).map (·.1) from he)
    exact raises_csrChange_readOnly h hf

end Sys2Proof.Machine
end

section
/-!
Conversions (05 R143 to R146).
-/
namespace Sys2Proof.Machine

variable {i : Instr} {p : Bool} {d a : BitVec 7} {r : Rounding}

/-- A conversion between single registers delivers its value, its flags, and the generator after its draw. -/
theorem delivers_vcvt32 {f : Wave → Nat → Nat → FpRes} (he : ∀ s, exec i s = vcvt32 s p d a r f) :
    Delivers i p [.vd d 1, .vs a 1] fun w q =>
      let o := f w (w.rdV a q).toNat (if r = .rsr then (drawStep (w.genOf q)).toNat else 0)
      ⟨w.wordRun d q [BitVec.ofNat 32 o.code], o.flags, if r = .rsr then drawStep (w.genOf q) else w.genOf q⟩ := by
  simp only [vcvt32, drawFor_eq] at he
  exact .of_fpLanes he fun w q hq => .wrV w d hq _

/-- From a single register to a pair. -/
theorem delivers_vcvt64of32 {f : Nat → FpRes} (he : ∀ s, exec i s = vcvt64of32 s p d a f) :
    Delivers i p [.vd d 2, .vs a 1] fun w q =>
      let o := f (w.rdV a q).toNat
      ⟨w.wordRun d q [BitVec.ofNat 32 o.code, BitVec.ofNat 32 (o.code / 2 ^ 32)], o.flags, w.genOf q⟩ :=
  .of_fpLanes he fun w _ hq => .wrV64 w d hq _

/-- From a pair to a single register. -/
theorem delivers_vcvt32of64 {f : Nat → Nat → FpRes} (he : ∀ s, exec i s = vcvt32of64 s p d a r f) :
    Delivers i p [.vd d 1, .vs a 2] fun w q =>
      let o := f (w.rdV64 a q).toNat (if r = .rsr then (drawStep (w.genOf q)).toNat else 0)
      ⟨w.wordRun d q [BitVec.ofNat 32 o.code], o.flags, if r = .rsr then drawStep (w.genOf q) else w.genOf q⟩ := by
  simp only [vcvt32of64, drawFor_eq] at he
  exact .of_fpLanes he fun w q hq => .wrV w d hq _

/-- From a pair to a pair. -/
theorem delivers_vcvt64 {f : Nat → Nat → FpRes} (he : ∀ s, exec i s = vcvt64 s p d a r f) :
    Delivers i p [.vd d 2, .vs a 2] fun w q =>
      let o := f (w.rdV64 a q).toNat (if r = .rsr then (drawStep (w.genOf q)).toNat else 0)
      ⟨w.wordRun d q [BitVec.ofNat 32 o.code, BitVec.ofNat 32 (o.code / 2 ^ 32)], o.flags,
        if r = .rsr then drawStep (w.genOf q) else w.genOf q⟩ := by
  simp only [vcvt64, drawFor_eq] at he
  exact .of_fpLanes he fun w q hq => .wrV64 w d hq _

/-- E2M1's code 8 is the value of `CZA` (05 R144; 01 R16, R17). -/
theorem fpOfVal_e2m1Val (cz : Byte) (x : Nat) :
    fpOfVal f32 .rne false (e2m1Val cz (x % 16)) 0 =
      if x % 16 = 8 then fpOfVal f32 .rne false (e4m3.decode cz.toNat) 0 else cvtExact e2m1 f32 (x % 16) := by
  unfold e2m1Val cvtExact; split <;> rfl

theorem exec_vcvtF32E2m1 (p : Bool) (d a : BitVec 7) (s : State) : exec (.vcvtF32E2m1 p d a) s =
    vcvt32 s p d a .rne fun w x _ =>
      if x % 16 = 8 then fpOfVal f32 .rne false (e4m3.decode w.csr.cza.toNat) 0 else cvtExact e2m1 f32 (x % 16) := by
  simp only [← fpOfVal_e2m1Val]; rfl

end Sys2Proof.Machine
end

section
namespace Sys2Proof.Machine

/-- Settles O28: each conversion is one of the four forms by register widths. -/
theorem conversions : Obligations.Conversions := by
  intro p sat d a r drawn D exact int
  refine ⟨fun e he => delivers_vcvt32 (r := e.2.1) (f := e.2.2) ?_, fun e he => delivers_vcvt64of32 (f := e.2) ?_,
    fun e he => delivers_vcvt32of64 (f := e.2) ?_, fun e he => delivers_vcvt64 (f := e.2) ?_⟩
  · revert e
    simp only [List.forall_mem_cons]
    exact ⟨fun _ => rfl, fun _ => rfl, fun _ => rfl, fun _ => rfl, fun _ => rfl, fun _ => rfl, fun _ => rfl, fun _ => rfl,
      fun _ => rfl, fun _ => rfl, fun _ => rfl, fun _ => rfl, fun _ => rfl, fun _ => rfl, exec_vcvtF32E2m1 p d a,
      List.forall_mem_nil _⟩
  · revert e
    simp only [List.forall_mem_cons]
    exact ⟨fun _ => rfl, fun _ => rfl, List.forall_mem_nil _⟩
  · revert e
    simp only [List.forall_mem_cons]
    exact ⟨fun _ => rfl, fun _ => rfl, List.forall_mem_nil _⟩
  · revert e
    simp only [List.forall_mem_cons]
    exact ⟨fun _ => rfl, fun _ => rfl, List.forall_mem_nil _⟩

end Sys2Proof.Machine
end

section
/-!
Instructions whose result waits in the return buffer, and VXC among them (05 R147, R148; 01 R32).
-/
namespace Sys2Proof.Machine

theorem Wave.parked_fore (w : Wave) (parks : Bool) : (w.parked parks).fore = w.fore := by
  cases parks
  · rfl
  · exact (congrArg Wave.fore w.commit_rest :)

/-- A new entry at the end of the return buffer, with lane generators set, and on to the next word. -/
theorem enqueues_pushEntry (s : State) (u : Nat) (w : Wave) (en : Entry) (gs : List (Nat × Word)) (hg : (gs.map (·.1)).Nodup) :
    Enqueues s (.next (s.setWave u ((w.pushEntry en).setGens gs).next).next.changed) u w en gs := by
  have hgen := fun q => (w.pushEntry en).genOf_setGens q gs hg
  obtain ⟨g, hr⟩ := (w.pushEntry en).setGens_rest gs
  refine ⟨((w.pushEntry en).setGens gs).next, rfl, ?_, hgen, ?_⟩
  · rw [hr]; rfl
  · rw [hr]; rfl

/-- The words of a run of registers, by register. -/
theorem Wave.wordRun_map_range (w : Wave) (d : BitVec 7) (q n : Nat) (g : Nat → Word) :
    w.wordRun d q ((List.range n).map g) = (List.range n).map fun k => (.v (laneKey (w.phys d k) q), g k) := by
  have hz : ((List.range n).map g).zipIdx = (List.range n).map fun k => (g k, k) := by
    rw [List.zipIdx_eq_zip_range', List.length_map, List.length_range, ← List.range_eq_range', List.zip_map_left,
      List.zip_eq_zipWith, List.zipWith_self, List.map_map]
    rfl
  rw [Wave.wordRun, hz, List.map_map]; rfl

section
variable {i : Instr} {p : Bool} {d : BitVec 7} {ops : List Opnd} {regs : Nat} {f : Bool → Wave → Nat → LaneOut DWord}
  {s : State} {u : Nat} {w : Wave} {b : Block}

/-- Whether a VXC instruction of `regs` registers a lane parks. -/
def vxcParks (p : Bool) (regs : Nat) (w : Wave) : Bool :=
  p || (!w.active.isEmpty && w.lacksRoom (4 * regs * w.active.length))

/-- VXC takes an entry only where a lane is active, and parks for want of room only then. -/
theorem parks_vxc (p : Bool) (regs : Nat) (ops : List Opnd) (w : Wave) :
    Issue.parks ⟨false, fun v => if v.active.isEmpty then none else some (4 * regs * v.active.length), notFore, ops⟩ p w =
      vxcParks p regs w := by
  simp only [Issue.parks, vxcParks, Bool.or_false]
  cases w.active.isEmpty <;> rfl

/-- Where no lane is active, a VXC instruction only goes on. -/
theorem performs_vxc_idle (he : ∀ s, exec i s = vxc s p d ops regs f) (h : Ready s u w b (vxcParks p regs w) ops)
    (hf : w.fore = false) (ha : (w.parked (vxcParks p regs w)).active = []) :
    Performs s (exec i s) u (w.parked (vxcParks p regs w)) ((w.parked (vxcParks p regs w)).sets []) := by
  rw [he, vxc, issue_at h (parks_vxc ..) rfl (notFore_eq_none s (by rw [Wave.parked_fore, hf]))]
  generalize w.parked (vxcParks p regs w) = v at ha
  have ht : fpTrap v ((v.perLane (f (s.cmp b) v)).map fun o => (o.1, o.2.flags)) = none :=
    fpTrap_eq_none (by simp [Wave.perLane, ha])
  have hp : v.perLane (f (s.cmp b) v) = [] := by rw [Wave.perLane, ha]; rfl
  simp only [ht]
  simp only [hp, List.isEmpty_nil, if_true]
  exact ⟨_, rfl, shows_next v [] List.nodup_nil (by simp [fitting])⟩

/-- Where a lane is active and no enabled exception is raised, one entry holds the lanes' results and flags. -/
theorem enqueues_vxc (he : ∀ s, exec i s = vxc s p d ops regs f) (h : Ready s u w b (vxcParks p regs w) ops)
    (hf : w.fore = false) (ha : (w.parked (vxcParks p regs w)).active ≠ [])
    (hz : ∀ q ∈ (w.parked (vxcParks p regs w)).active, (f (s.cmp b) (w.parked (vxcParks p regs w)) q).flags &&&
      (w.parked (vxcParks p regs w)).csr.ftrapen = 0) :
    let v := w.parked (vxcParks p regs w)
    Enqueues s (exec i s) u v
      (resultEntry s v
        (v.active.flatMap fun q => v.wordRun d q ((List.range regs).map fun k => (f (s.cmp b) v q).val.extractLsb' (32 * k) 32))
        (flagUnion (v.active.map fun q => (q, (f (s.cmp b) v q).flags))))
      (v.active.map fun q => (q, (f (s.cmp b) v q).gen)) := by
  rw [he, vxc, issue_at h (parks_vxc ..) rfl (notFore_eq_none s (by rw [Wave.parked_fore, hf]))]
  generalize w.parked (vxcParks p regs w) = v at ha hz
  have ht : fpTrap v ((v.perLane (f (s.cmp b) v)).map fun o => (o.1, o.2.flags)) = none := by
    rw [Wave.perLane, List.map_map]; exact fpTrap_lanes_eq_none hz
  have hp : (v.perLane (f (s.cmp b) v)).isEmpty = false := by simpa [Wave.perLane] using ha
  simp only [ht, hp, Bool.false_eq_true, if_false]
  simp only [Wave.perLane, List.foldl_map, List.flatMap_map, List.map_map, Wave.wordRun_map_range]
  have hg : ((v.active.map fun q => (q, (f (s.cmp b) v q).gen)).map (·.1)).Nodup := by
    simpa [Function.comp_def] using v.nodup_active
  have hen := enqueues_pushEntry s u v (resultEntry s v
    (v.active.flatMap fun q => (List.range regs).map fun k =>
      (.v (laneKey (v.phys d k) q), (f (s.cmp b) v q).val.extractLsb' (32 * k) 32))
    (flagUnion (v.active.map fun q => (q, (f (s.cmp b) v q).flags)))) _ hg
  rw [Wave.setGens, List.foldl_map] at hen
  exact hen

/-- The first enabled exception is a precise trap. -/
theorem traps_vxc (he : ∀ s, exec i s = vxc s p d ops regs f) (h : Ready s u w b (vxcParks p regs w) ops)
    (hf : w.fore = false) {k : Nat} (hk : k < 6)
    (hr : (w.parked (vxcParks p regs w)).raisesFirst (fun q => (f (s.cmp b) (w.parked (vxcParks p regs w)) q).flags) k) :
    let v := w.parked (vxcParks p regs w)
    exec i s = .next (s.trap u v (v.flagTrap (fun q => (f (s.cmp b) v q).flags) k)) := by
  rw [he, vxc, issue_at h (parks_vxc ..) rfl (notFore_eq_none s (by rw [Wave.parked_fore, hf]))]
  generalize w.parked (vxcParks p regs w) = v at hr
  have ht : fpTrap v ((v.perLane (f (s.cmp b) v)).map fun o => (o.1, o.2.flags)) =
      some (v.flagTrap (fun q => (f (s.cmp b) v q).flags) k) := by
    rw [Wave.perLane, List.map_map]; exact fpTrap_of_raisesFirst hk hr
  simp only [ht]

end

/-- The value of a VXC function in lane `q`: `z` from d's old value, `x` from a, one or two registers each. -/
def xcLane (d a : BitVec 7) (wide : Bool) (r : Rounding) (g : Bool → Nat → Nat → Nat → FpRes) (cmp : Bool) (w : Wave) (q : Nat) : FpRes :=
  let t := if r = .rsr then (drawStep (w.genOf q)).toNat else 0
  if wide then g cmp (w.rdV64 d q).toNat (w.rdV64 a q).toNat t else g cmp (w.rdV d q).toNat (w.rdV a q).toNat t

/-- The same with its flags and the generator after its draw. -/
def xcOut (d a : BitVec 7) (wide : Bool) (r : Rounding) (g : Bool → Nat → Nat → Nat → FpRes) (cmp : Bool) (w : Wave) (q : Nat) :
    LaneOut DWord :=
  ⟨BitVec.ofNat 64 (xcLane d a wide r g cmp w q).code, (xcLane d a wide r g cmp w q).flags,
    if r = .rsr then drawStep (w.genOf q) else w.genOf q⟩

/-- The registers of a doubleword result. -/
theorem words_ofNat64 (wide : Bool) (c : Nat) :
    ((List.range (if wide then 2 else 1)).map fun k => (BitVec.ofNat 64 c).extractLsb' (32 * k) 32) =
      if wide then [BitVec.ofNat 32 c, BitVec.ofNat 32 (c / 2 ^ 32)] else [BitVec.ofNat 32 c] := by
  cases wide
  · exact congrArg (fun x => [x]) (extractLsb'_lo_ofNat64 c)
  · exact congr (congrArg (fun x y => [x, y]) (extractLsb'_lo_ofNat64 c)) (extractLsb'_hi_ofNat64 c)

end Sys2Proof.Machine
end

section
namespace Sys2Proof.Machine

/-- The functions that draw: VSQRT and VDIV. -/
theorem exec_vsqrtF32 (p : Bool) (d a : BitVec 7) (r : Rounding) (s : State) : exec (.vsqrtF32 p d a r) s =
    vxc s p d [.vd d 1, .vs a 1] 1 (xcOut d a false r fun _ _ x t => fpSqrt f32 r x t) := by
  change vsqrt32 s p d a r = _
  simp only [vsqrt32, drawFor_eq]; rfl

theorem exec_vsqrtF64 (p : Bool) (d a : BitVec 7) (r : Rounding) (s : State) : exec (.vsqrtF64 p d a r) s =
    vxc s p d [.vd d 2, .vs a 2] 2 (xcOut d a true r fun _ _ x t => fpSqrt f64 r x t) := by
  change vsqrt64 s p d a r = _
  simp only [vsqrt64, drawFor_eq]; rfl

theorem exec_vdivF32 (p : Bool) (d a : BitVec 7) (r : Rounding) (s : State) : exec (.vdivF32 p d a r) s =
    vxc s p d [.vs d 1, .vs a 1] 1 (xcOut d a false r fun _ z x t => fpDiv f32 r z x t) := by
  change vxcR32 s p d a r _ = _
  simp only [vxcR32, drawFor_eq]; rfl

theorem exec_vdivF64 (p : Bool) (d a : BitVec 7) (r : Rounding) (s : State) : exec (.vdivF64 p d a r) s =
    vxc s p d [.vs d 2, .vs a 2] 2 (xcOut d a true r fun _ z x t => fpDiv f64 r z x t) := by
  change vxcR64 s p d a r _ = _
  simp only [vxcR64, drawFor_eq]; rfl

/-- Settles O30: every instruction of VXC is `vxc` of its function. -/
theorem transcendentals : Obligations.Transcendentals := by
  intro p d a r drawn D fn rounded x32 x64 e he regs parks o s u w b h hf
  have hx : ∀ s, exec e.1 s = vxc s p d e.2.1 (if e.2.2.1 then 2 else 1) (xcOut d a e.2.2.1 e.2.2.2.1 e.2.2.2.2) := by
    clear h o parks regs s
    revert e
    simp only [List.forall_mem_cons]
    exact ⟨fun _ => rfl, fun _ => rfl, fun _ => rfl, fun _ => rfl, fun _ => rfl, fun _ => rfl, fun _ => rfl, fun _ => rfl,
      fun _ => rfl, fun _ => rfl, fun _ => rfl, fun _ => rfl, fun _ => rfl, exec_vsqrtF32 p d a r, exec_vsqrtF64 p d a r,
      exec_vdivF32 p d a r, exec_vdivF64 p d a r, List.forall_mem_nil _⟩
  refine ⟨performs_vxc_idle hx h hf, fun ha hz => ?_, fun k hk hr => traps_vxc hx h hf hk hr⟩
  have hen := enqueues_vxc hx h hf ha hz
  simp only [xcOut, words_ofNat64] at hen
  exact hen

end Sys2Proof.Machine
end

section
/-!
Movements between lanes, reductions and scans (05 R150 to R152; 01 R45, R46).
-/
namespace Sys2Proof.Machine

/-! ## Movements -/

section
variable {i : Instr} {p : Bool} {d a : BitVec 7} {ops : List Opnd} {lanes : Wave → List Nat} {index : Wave → Nat → Int}

/-- A movement none of whose sources is poisoned moves each source's word and scale. -/
theorem completes_vmove (he : ∀ s, exec i s = vmove s p ops d a lanes index) (hn : ∀ w, (lanes w).Nodup)
    (hl : ∀ w, ∀ q ∈ lanes w, q ∈ w.active) :
    Completes i (fun _ => p) ops (fun w => w.fore = false ∧ ∀ q ∈ lanes w, srcPoisoned w a (index w q) = false)
      fun w => w.sets (w.moved d (lanes w) fun q => srcLane w a (index w q)) := by
  refine .of_issue (I := fun _ => ⟨false, noEntry, notFore, ops⟩) he (fun _ w => by simp) (fun _ => rfl)
    (fun s _ h => notFore_eq_none s h.1) fun s u w b ⟨_, hz⟩ _ => ?_
  have hp : ((lanes w).any fun q => srcPoisoned w a (index w q)) = false :=
    List.any_eq_false.mpr fun q hq => by rw [hz q hq]; exact Bool.false_ne_true
  simp only [hp, Bool.false_eq_true, if_false, Wave.moved_eq]
  exact ⟨_, rfl, shows_writeLanes w (hn w) fun q hq => .wrV_wrE w d (Wave.lt_of_mem_active (hl w q hq)) _ _⟩

/-- A movement that reads a poisoned lane traps. -/
theorem raises_vmove (he : ∀ s, exec i s = vmove s p ops d a lanes index) :
    Raises i (fun _ => p) ops (fun _ _ w _ => w.fore = false ∧ ∃ q ∈ lanes w, srcPoisoned w a (index w q) = true)
      fun s _ _ => ⟨0x06#8, s.ir, 0⟩ := by
  refine .of_issue (I := fun _ => ⟨false, noEntry, notFore, ops⟩) he (fun _ w => by simp) (fun _ => rfl)
    (fun s _ _ _ _ h => notFore_eq_none s h.1) fun s u w b _ ⟨_, hz⟩ => ?_
  have hp : ((lanes w).any fun q => srcPoisoned w a (index w q)) = true := List.any_eq_true.mpr hz
  simp only [hp, if_true]
  rfl

end

/-- An active lane as a source. -/
theorem srcLane_of_mem_active {w : Wave} (a : BitVec 7) {q : Nat} (h : q ∈ w.active) : srcLane w a q = (w.rdV a q, w.rdE a q) := by
  have hq : (0 : Int) ≤ q ∧ (q : Int) < w.count := ⟨by omega, by exact_mod_cast (Wave.mem_active.mp h).1⟩
  rw [srcLane, if_pos hq]; rfl

/-- The active lanes that a mask register names. -/
def Wave.chosen (w : Wave) (b : BitVec 7) : List Nat := w.active.filter fun q => (w.getM b.toNat).getLsbD q

theorem exec_vselm (p : Bool) (d a b : BitVec 7) (s : State) : exec (.vselm p d a b) s =
    vmove s p [.vd d 1, .vx a 1, .ex a 1] d a (fun w => w.chosen b) fun _ q => (q : Int) := rfl

theorem completes_vselm (p : Bool) (d a b : BitVec 7) :
    Completes (.vselm p d a b) (fun _ => p) [.vd d 1, .vx a 1, .ex a 1]
      (fun w => w.fore = false ∧ ∀ q ∈ w.chosen b, srcPoisoned w a q = false)
      fun w => w.sets (w.moved d (w.chosen b) fun q => (w.rdV a q, w.rdE a q)) := by
  have h := completes_vmove (exec_vselm p d a b) (fun w => w.nodup_active.filter _) fun w q hq => (List.mem_filter.mp hq).1
  have hm : ∀ w : Wave, w.moved d (w.chosen b) (fun q => srcLane w a q) = w.moved d (w.chosen b) fun q => (w.rdV a q, w.rdE a q) :=
    fun w => by
      rw [Wave.moved, Wave.moved, List.flatMap_def, List.flatMap_def]
      exact congrArg List.flatten (List.map_congr_left fun q hq => by simp only [srcLane_of_mem_active a (List.mem_filter.mp hq).1])
  simp only [hm] at h
  exact h

/-! ## Reductions -/

section
variable {i : Instr} {p : Bool} {d a : BitVec 7} {op : Nat → Nat → FpRes} {out : Nat → Nat} {identity : Word}

/-- The flags of the active lanes under the root of the tree. -/
def rootFlags (op : Nat → Nat → FpRes) (a : BitVec 7) (w : Wave) : List (Nat × FpFlags) :=
  logLanes w (treeNode op (leafOf w a) 6 0).log

variable {s : State} {u : Nat} {w : Wave} {b : Block}

/-- A reduction without an enabled exception leaves the root, or the identity, in an entry. -/
theorem enqueues_vreduce (he : ∀ s, exec i s = vreduce s p d a op out identity)
    (h : Ready s u w b (p || w.lacksRoom 4) [.sd d 1, .vs a 1]) (hf : w.fore = false)
    (hz : ∀ x ∈ rootFlags op a (w.parked (p || w.lacksRoom 4)), x.2 &&& (w.parked (p || w.lacksRoom 4)).csr.ftrapen = 0) :
    let v := w.parked (p || w.lacksRoom 4)
    Enqueues s (exec i s) u v (resultEntry s v
      [(.s d.toNat, ((treeNode op (leafOf v a) 6 0).val.map fun x => BitVec.ofNat 32 (out x)).getD identity)]
      (flagUnion (rootFlags op a v))) [] := by
  rw [he, vreduce, issue_at h (by simp) rfl (notFore_eq_none s (by rw [Wave.parked_fore, hf]))]
  generalize w.parked (p || w.lacksRoom 4) = v at hz
  simp only [show fpTrap v (logLanes v (treeNode op (leafOf v a) 6 0).log) = none from fpTrap_eq_none hz]
  cases (treeNode op (leafOf v a) 6 0).val <;> exact enqueues_pushEntry s u v _ [] List.nodup_nil

/-- The first enabled exception of a reduction traps. -/
theorem traps_vreduce (he : ∀ s, exec i s = vreduce s p d a op out identity)
    (h : Ready s u w b (p || w.lacksRoom 4) [.sd d 1, .vs a 1]) (hf : w.fore = false) {k : Nat} (hk : k < 6) :
    let v := w.parked (p || w.lacksRoom 4)
    let raised := rootFlags op a v
    v.csr.ftrapen.getLsbD k = true → (∃ x ∈ raised, x.2.getLsbD k = true) →
      (∀ j < k, v.csr.ftrapen.getLsbD j = true → ∀ x ∈ raised, x.2.getLsbD j = false) →
      exec i s = .next (s.trap u v
        ⟨BitVec.ofNat 8 (9 + k), (flagLanes k raised).extractLsb' 0 32, (flagLanes k raised).extractLsb' 32 32⟩) := by
  intro v raised hen hr hfirst
  rw [he, vreduce, issue_at h (by simp) rfl (notFore_eq_none s (by rw [Wave.parked_fore, hf]))]
  have ht := fpTrap_eq_some hk hen hr hfirst
  simp only [v, raised, rootFlags] at ht ⊢
  simp only [ht]

end

/-! ## Sums of words over the tree -/

/-- The sum of the leaves that are present, from position `start` on. -/
def leafSum (leaf : Nat → Option Nat) (start n : Nat) : Nat := ((List.range' start n).map fun q => (leaf q).getD 0).sum

theorem leafSum_add (leaf : Nat → Option Nat) (start m n : Nat) :
    leafSum leaf start (m + n) = leafSum leaf start m + leafSum leaf (start + m) n := by
  rw [leafSum, ← List.range'_append_1, List.map_append, List.sum_append]; rfl

/-- Words add as numbers do. -/
theorem ofNat_opAddS32 (x y : Nat) : BitVec.ofNat 32 (opAddS32 x y).code = BitVec.ofNat 32 x + BitVec.ofNat 32 y := by
  apply BitVec.eq_of_toNat_eq; simp [opAddS32]

/-- A node of the tree of words is the sum of its leaves. -/
theorem treeNode_opAddS32_val (leaf : Nat → Option Nat) : ∀ h i : Nat,
    BitVec.ofNat 32 ((treeNode opAddS32 leaf h i).val.getD 0) = BitVec.ofNat 32 (leafSum leaf (2 ^ h * i) (2 ^ h))
  | 0, i => by simp [treeNode, leafSum]
  | h + 1, i => by
    have hl := treeNode_opAddS32_val leaf h (2 * i)
    have hr := treeNode_opAddS32_val leaf h (2 * i + 1)
    have hs : leafSum leaf (2 ^ (h + 1) * i) (2 ^ (h + 1)) =
        leafSum leaf (2 ^ h * (2 * i)) (2 ^ h) + leafSum leaf (2 ^ h * (2 * i + 1)) (2 ^ h) := by
      rw [show 2 ^ (h + 1) * i = 2 ^ h * (2 * i) by rw [Nat.pow_succ, Nat.mul_assoc], show 2 ^ (h + 1) = 2 ^ h + 2 ^ h by rw [Nat.pow_succ, Nat.mul_two], leafSum_add,
        ← Nat.mul_succ]
    rw [hs, BitVec.ofNat_add, ← hl, ← hr, treeNode]
    cases (treeNode opAddS32 leaf h (2 * i)).val <;> cases (treeNode opAddS32 leaf h (2 * i + 1)).val <;>
      simp [ofNat_opAddS32]

/-- Sums of words raise nothing. -/
theorem treeNode_opAddS32_log (leaf : Nat → Option Nat) : ∀ (h i : Nat), ∀ e ∈ (treeNode opAddS32 leaf h i).log, e.2.2 = 0
  | 0, _ => List.forall_mem_nil _
  | h + 1, i => by
    have hlr : ∀ e ∈ (treeNode opAddS32 leaf h (2 * i)).log ++ (treeNode opAddS32 leaf h (2 * i + 1)).log, e.2.2 = 0 :=
      List.forall_mem_append.mpr ⟨treeNode_opAddS32_log leaf h _, treeNode_opAddS32_log leaf h _⟩
    rw [treeNode]
    dsimp only
    split
    · exact List.forall_mem_cons.mpr ⟨rfl, hlr⟩
    · exact hlr
    · exact hlr

theorem logLanes_eq_zero {w : Wave} {log : List (Nat × Nat × FpFlags)} (h : ∀ e ∈ log, e.2.2 = 0) : ∀ x ∈ logLanes w log, x.2 = 0 := by
  intro x hx
  obtain ⟨e, he, hx⟩ := List.mem_flatMap.mp hx
  obtain ⟨q, -, rfl⟩ := List.mem_map.mp hx
  exact h e he

theorem flagUnion_eq_zero {l : List (Nat × FpFlags)} (h : ∀ x ∈ l, x.2 = 0) : flagUnion l = 0 := by
  apply BitVec.eq_of_getLsbD_eq
  intro k _
  have h0 : (0 : FpFlags).getLsbD k = false := BitVec.getLsbD_zero
  rw [getLsbD_flagUnion, h0, List.any_eq_false]
  intro x hx
  rw [h x hx, h0]; exact Bool.false_ne_true

/-- The leaves of a reduction present from `0` on are the active lanes' values. -/
theorem leafSum_leafOf (w : Wave) (a : BitVec 7) (n : Nat) :
    leafSum (leafOf w a) 0 n = (((List.range n).filter fun q => w.m0.getLsbD q).map fun q => (w.rdV a q).toNat).sum := by
  rw [leafSum, ← List.range_eq_range']
  induction List.range n with
  | nil => rfl
  | cons q t ih =>
    rw [List.map_cons, List.sum_cons, ih, List.filter_cons, leafOf]
    split <;> simp

/-! ## Scans -/

/-- A scan under way: its value, the logs of the nodes it took, and the flags of its own steps. -/
abbrev ScanAcc := Option Nat × List (Nat × Nat × FpFlags) × FpFlags

/-- One node more of a scan. -/
def scanStep (op : Nat → Nat → FpRes) (leaf : Nat → Option Nat) (acc : ScanAcc) (hn : Nat × Nat) : ScanAcc :=
  let t := treeNode op leaf hn.1 hn.2
  match acc.1, t.val with
  | some x, some y =>
    let o := op x y
    (some o.code, acc.2.1 ++ t.log, acc.2.2 ||| o.flags)
  | some x, none => (some x, acc.2.1 ++ t.log, acc.2.2)
  | none, y => (y, acc.2.1 ++ t.log, acc.2.2)

theorem scanAt_eq (op : Nat → Nat → FpRes) (leaf : Nat → Option Nat) (q : Nat) :
    scanAt op leaf q = (coverNodes 6 (q + 1) 0).foldl (scanStep op leaf) (none, [], 0) := rfl

theorem scanStep_opAddS32_val (leaf : Nat → Option Nat) (acc : ScanAcc) (h i : Nat) :
    BitVec.ofNat 32 ((scanStep opAddS32 leaf acc (h, i)).1.getD 0) =
      BitVec.ofNat 32 (acc.1.getD 0) + BitVec.ofNat 32 (leafSum leaf (2 ^ h * i) (2 ^ h)) := by
  rw [← treeNode_opAddS32_val]
  obtain ⟨v, log, fl⟩ := acc
  unfold scanStep
  dsimp only
  cases v <;> cases (treeNode opAddS32 leaf h i).val <;> simp [ofNat_opAddS32]

theorem scanStep_opAddS32_flags (leaf : Nat → Option Nat) {acc : ScanAcc} (hn : Nat × Nat)
    (ha : (∀ e ∈ acc.2.1, e.2.2 = 0) ∧ acc.2.2 = 0) :
    (∀ e ∈ (scanStep opAddS32 leaf acc hn).2.1, e.2.2 = 0) ∧ (scanStep opAddS32 leaf acc hn).2.2 = 0 := by
  have hl : ∀ e ∈ acc.2.1 ++ (treeNode opAddS32 leaf hn.1 hn.2).log, e.2.2 = 0 :=
    List.forall_mem_append.mpr ⟨ha.1, treeNode_opAddS32_log leaf _ _⟩
  unfold scanStep
  dsimp only
  split
  · exact ⟨hl, by rw [ha.2]; exact BitVec.or_self⟩
  · exact ⟨hl, ha.2⟩
  · exact ⟨hl, ha.2⟩

/-- A scan of words raises nothing. -/
theorem scanAt_opAddS32_flags (leaf : Nat → Option Nat) (q : Nat) :
    (∀ e ∈ (scanAt opAddS32 leaf q).2.1, e.2.2 = 0) ∧ (scanAt opAddS32 leaf q).2.2 = 0 := by
  rw [scanAt_eq]
  exact List.foldlRecOn (motive := fun acc : ScanAcc => (∀ e ∈ acc.2.1, e.2.2 = 0) ∧ acc.2.2 = 0) _ _
    ⟨List.forall_mem_nil _, rfl⟩
    fun _ ha hn _ => scanStep_opAddS32_flags leaf hn ha

/-- The nodes from bit `h` of `n` down cover that many positions. -/
theorem foldl_coverNodes_opAddS32 (leaf : Nat → Option Nat) (n : Nat) : ∀ (h start : Nat)
    (acc : ScanAcc), 2 ^ h ∣ start →
    BitVec.ofNat 32 (((coverNodes h n start).foldl (scanStep opAddS32 leaf) acc).1.getD 0) =
      BitVec.ofNat 32 (acc.1.getD 0) + BitVec.ofNat 32 (leafSum leaf start (n % 2 ^ (h + 1)))
  | 0, start, acc, _ => by
    unfold coverNodes
    split
    · next hb =>
      rw [List.foldl_cons, List.foldl_nil, scanStep_opAddS32_val]
      simp [hb]
    · next hb =>
      have : n % 2 = 0 := by omega
      simp [this, leafSum]
  | h + 1, start, acc, hd => by
    have hm : n % 2 ^ (h + 2) = 2 ^ (h + 1) * (n / 2 ^ (h + 1) % 2) + n % 2 ^ (h + 1) := by
      rw [Nat.pow_succ 2 (h + 1), Nat.mod_mul, Nat.add_comm]
    rw [hm]
    unfold coverNodes
    split
    · next hb =>
      have hd' : 2 ^ h ∣ start + 2 ^ (h + 1) := Nat.dvd_trans (Nat.pow_dvd_pow 2 h.le_succ) (Nat.dvd_add hd (Nat.dvd_refl _))
      rw [List.foldl_cons, foldl_coverNodes_opAddS32 leaf n h _ _ hd', scanStep_opAddS32_val, hb, Nat.mul_one,
        Nat.mul_div_cancel' hd, leafSum_add, BitVec.ofNat_add, BitVec.add_assoc]
    · next hb =>
      have hb0 : n / 2 ^ (h + 1) % 2 = 0 := by omega
      rw [foldl_coverNodes_opAddS32 leaf n h _ _ (Nat.dvd_trans (Nat.pow_dvd_pow 2 h.le_succ) hd), hb0, Nat.mul_zero, Nat.zero_add]

/-- A scan of words up to lane `q` is the sum of the leaves up to it. -/
theorem scanAt_opAddS32_val (leaf : Nat → Option Nat) {q : Nat} (hq : q < 64) :
    BitVec.ofNat 32 ((scanAt opAddS32 leaf q).1.getD 0) = BitVec.ofNat 32 (leafSum leaf 0 (q + 1)) := by
  rw [scanAt_eq, foldl_coverNodes_opAddS32 leaf (q + 1) 6 0 _ (Nat.dvd_zero _), Nat.mod_eq_of_lt (by omega)]
  simp

section
variable {i : Instr} {p : Bool} {d a : BitVec 7} {op : Nat → Nat → FpRes} {out : Nat → Nat}

/-- The flags of a scan: of each active lane's own steps, and of the nodes they take. -/
def scanFlags (op : Nat → Nat → FpRes) (a : BitVec 7) (w : Wave) : List (Nat × FpFlags) :=
  w.active.flatMap fun q => (q, (scanAt op (leafOf w a) q).2.2) :: logLanes w (scanAt op (leafOf w a) q).2.1

/-- A scan without an enabled exception. -/
theorem completes_vscan (he : ∀ s, exec i s = vscan s p d a op out) :
    Completes i (fun _ => p) [.vd d 1, .vs a 1] (fun w => w.fore = false ∧ ∀ x ∈ scanFlags op a w, x.2 &&& w.csr.ftrapen = 0)
      fun w => { w.sets (w.inLanes d fun q => BitVec.ofNat 32 (out ((scanAt op (leafOf w a) q).1.getD 0))) with
        flags := flagUnion (scanFlags op a w) } := by
  refine .of_issue (I := fun _ => ⟨false, noEntry, notFore, [.vd d 1, .vs a 1]⟩) he (fun _ w => by simp) (fun _ => rfl)
    (fun s _ h => notFore_eq_none s h.1) fun s u w b ⟨_, hz⟩ _ => ?_
  simp only [Wave.perLane, List.flatMap_map, List.map_map]
  simp only [show fpTrap w (w.active.flatMap fun q => (q, (scanAt op (leafOf w a) q).2.2) ::
    logLanes w (scanAt op (leafOf w a) q).2.1) = none from fpTrap_eq_none hz, Wave.inLanes_eq]
  have hs := shows_writeLanes w (wr := fun v q x => v.wrV d q x)
    (f := fun q => BitVec.ofNat 32 (out ((scanAt op (leafOf w a) q).1.getD 0))) w.nodup_active
    fun q hq => .wrV w d (Wave.lt_of_mem_active hq) _
  exact ⟨_, rfl, hs.deliver [] List.nodup_nil (flagUnion (scanFlags op a w))⟩

/-- The first enabled exception of a scan traps. -/
theorem raises_vscan (he : ∀ s, exec i s = vscan s p d a op out) {k : Nat} (hk : k < 6) :
    Raises i (fun _ => p) [.vd d 1, .vs a 1]
      (fun _ _ w _ => w.fore = false ∧ w.csr.ftrapen.getLsbD k = true ∧ (∃ x ∈ scanFlags op a w, x.2.getLsbD k = true) ∧
        ∀ j < k, w.csr.ftrapen.getLsbD j = true → ∀ x ∈ scanFlags op a w, x.2.getLsbD j = false)
      fun _ w _ => ⟨BitVec.ofNat 8 (9 + k), (flagLanes k (scanFlags op a w)).extractLsb' 0 32,
        (flagLanes k (scanFlags op a w)).extractLsb' 32 32⟩ := by
  refine .of_issue (I := fun _ => ⟨false, noEntry, notFore, [.vd d 1, .vs a 1]⟩) he (fun _ w => by simp) (fun _ => rfl)
    (fun s _ _ _ _ h => notFore_eq_none s h.1) fun s u w b _ ⟨_, hen, hr, hfirst⟩ => ?_
  have ht : fpTrap w ((w.perLane (scanAt op (leafOf w a))).flatMap fun o => (o.1, o.2.2.2) :: logLanes w o.2.2.1) =
      some ⟨BitVec.ofNat 8 (9 + k), (flagLanes k (scanFlags op a w)).extractLsb' 0 32,
        (flagLanes k (scanFlags op a w)).extractLsb' 32 32⟩ := by
    rw [Wave.perLane, List.flatMap_map]; exact fpTrap_eq_some hk hen hr hfirst
  simp only [ht]

end

theorem scanFlags_opAddS32 (a : BitVec 7) (w : Wave) : ∀ x ∈ scanFlags opAddS32 a w, x.2 = 0 := by
  intro x hx
  obtain ⟨q, -, hx⟩ := List.mem_flatMap.mp hx
  obtain ⟨hlog, hfl⟩ := scanAt_opAddS32_flags (leafOf w a) q
  exact (List.forall_mem_cons (p := fun y : Nat × FpFlags => y.2 = 0)).mpr ⟨hfl, logLanes_eq_zero hlog⟩ x hx

/-- The positions up to `q` among the first 64. -/
theorem filter_le_range {q : Nat} (hq : q < 64) : ((List.range 64).filter fun i => decide (i ≤ q)) = List.range (q + 1) := by
  obtain ⟨n, hn⟩ : ∃ n, 64 = (q + 1) + n := ⟨64 - (q + 1), by omega⟩
  rw [hn, List.range_add, List.filter_append, List.filter_eq_self.mpr, List.filter_eq_nil_iff.mpr, List.append_nil]
  · intro i hi
    obtain ⟨j, -, rfl⟩ := List.mem_map.mp hi
    simp; omega
  · intro i hi
    simpa [Nat.lt_succ_iff] using hi

theorem filter_filter_le_range {q : Nat} (hq : q < 64) (f : Nat → Bool) :
    (((List.range 64).filter f).filter fun i => decide (i ≤ q)) = (List.range (q + 1)).filter f := by
  rw [← filter_le_range hq, List.filter_filter, List.filter_filter]
  exact List.filter_congr fun _ _ => Bool.and_comm ..

/-- A scan of words is the sum of the active lanes up to each, and raises nothing. -/
theorem completes_vscanS32 (p : Bool) (d a : BitVec 7) :
    Completes (.vscanS32 p d a) (fun _ => p) [.vd d 1, .vs a 1] (fun w => w.fore = false) fun w =>
      w.sets (w.inLanes d fun q => BitVec.ofNat 32
        ((((List.range 64).filter fun q => w.m0.getLsbD q).filter fun i => i ≤ q).map fun i => (w.rdV a i).toNat).sum) := by
  refine (completes_vscan (i := .vscanS32 p d a) fun _ => rfl).congr
    (fun w hf => ⟨hf, fun x hx => by rw [scanFlags_opAddS32 a w x hx]; exact BitVec.zero_and⟩) fun w _ => ?_
  rw [flagUnion_eq_zero (scanFlags_opAddS32 a w)]
  refine congrArg w.sets (List.map_congr_left fun q hq => ?_)
  have hq := Wave.lt_of_mem_active hq
  refine congrArg (Prod.mk _) ((scanAt_opAddS32_val _ hq).trans ?_)
  simp only [leafSum_leafOf, filter_filter_le_range hq]

/-- A reduction answers with `(r v).1` in an entry whose flags are those of `(r v).2`, or traps on the first enabled one. -/
def Reduces (i : Instr) (p : Bool) (d a : BitVec 7) (r : Wave → Word × List (Nat × FpFlags)) : Prop :=
  ∀ (s : State) (u : Nat) (w : Wave) (b : Block), Ready s u w b (p || w.lacksRoom 4) [.sd d 1, .vs a 1] → w.fore = false →
    let v := w.parked (p || w.lacksRoom 4)
    let raised := (r v).2
    ((∀ q ∈ raised, q.2 &&& v.csr.ftrapen = 0) →
      Enqueues s (exec i s) u v (resultEntry s v [(.s d.toNat, (r v).1)] (flagUnion raised)) []) ∧
    ∀ k < 6, v.csr.ftrapen.getLsbD k = true → (∃ q ∈ raised, q.2.getLsbD k = true) →
      (∀ j < k, v.csr.ftrapen.getLsbD j = true → ∀ q ∈ raised, q.2.getLsbD j = false) →
      exec i s = .next (s.trap u v
        ⟨BitVec.ofNat 8 (9 + k), (flagLanes k raised).extractLsb' 0 32, (flagLanes k raised).extractLsb' 32 32⟩)

/-- A NaN becomes the canonical one (01 R28). -/
def canonicalF32 (x : Nat) : Word := if (f32.decode x).isNan then 0x7FC00000 else BitVec.ofNat 32 x

theorem ofNat_deliverF32 (x : Nat) : BitVec.ofNat 32 (deliverF32 x) = canonicalF32 x := by
  unfold deliverF32 canonicalF32; split <;> rfl

/-- Over binary32 a reduction is the tree's root. -/
theorem reduces_vreduceF32 {i : Instr} {p : Bool} {d a : BitVec 7} {op : Nat → Nat → FpRes} {identity : Word}
    (he : ∀ s, exec i s = vreduce s p d a op deliverF32 identity) :
    Reduces i p d a fun w => (((treeNode op (leafOf w a) 6 0).val.map canonicalF32).getD identity, rootFlags op a w) := by
  intro s u w b h hf
  refine ⟨fun hz => ?_, fun k hk => traps_vreduce he h hf hk⟩
  rw [← funext ofNat_deliverF32]
  exact enqueues_vreduce he h hf hz

/-- Over words it is the sum of the active lanes. -/
theorem reduces_vredaddS32 (p : Bool) (d a : BitVec 7) : Reduces (.vredaddS32 p d a) p d a fun w =>
    (BitVec.ofNat 32 (((List.range 64).filter fun q => w.m0.getLsbD q).map fun q => (w.rdV a q).toNat).sum, []) := by
  intro s u w b h hf
  refine ⟨fun _ => ?_, fun k _ _ hr => absurd hr (by simp)⟩
  have hz : ∀ x ∈ rootFlags opAddS32 a (w.parked (p || w.lacksRoom 4)), x.2 = 0 :=
    logLanes_eq_zero (treeNode_opAddS32_log _ 6 0)
  have hen := enqueues_vreduce (i := .vredaddS32 p d a) (fun _ => rfl) h hf fun x hx => by rw [hz x hx]; exact BitVec.zero_and
  generalize w.parked (p || w.lacksRoom 4) = v at hz hen ⊢
  have hval : ((treeNode opAddS32 (leafOf v a) 6 0).val.map fun x => BitVec.ofNat 32 (id x)).getD 0 =
      BitVec.ofNat 32 (((List.range 64).filter fun q => v.m0.getLsbD q).map fun q => (v.rdV a q).toNat).sum := by
    have hs : BitVec.ofNat 32 ((treeNode opAddS32 (leafOf v a) 6 0).val.getD 0) = BitVec.ofNat 32 (leafSum (leafOf v a) 0 64) :=
      treeNode_opAddS32_val (leafOf v a) 6 0
    rw [← leafSum_leafOf, ← hs]
    cases (treeNode opAddS32 (leafOf v a) 6 0).val <;> rfl
  dsimp only at hen ⊢
  rw [hval, flagUnion_eq_zero hz] at hen
  exact hen

/-- Settles O31: the movements, then the reductions and scans over words and over binary32. -/
theorem laneMovesAndReductions : Obligations.LaneMovesAndReductions := by
  refine ⟨fun p d a b k => ⟨fun e he => ?_, completes_vselm p d a b, raises_vmove (exec_vselm p d a b)⟩,
    fun p d a => ⟨?_, completes_vscanS32 p d a, ?_, ?_⟩⟩
  · have hx : ∀ s, exec e.1 s = vmove s p ([.vd d 1, .vx a 1, .ex a 1] ++ e.2.1) d a Wave.active e.2.2 := by
      revert e
      simp only [List.forall_mem_cons]
      exact ⟨fun _ => rfl, fun _ => rfl, fun _ => rfl, fun _ => rfl, fun _ => rfl, List.forall_mem_nil _⟩
    exact ⟨completes_vmove hx Wave.nodup_active fun _ _ h => h, raises_vmove hx⟩
  · refine (?_ : ∀ e ∈ (_ : List (Instr × (Wave → Word × List (Nat × FpFlags)))), Reduces e.1 p d a e.2)
    simp only [List.forall_mem_cons]
    exact ⟨reduces_vredaddS32 p d a, reduces_vreduceF32 fun _ => rfl, reduces_vreduceF32 fun _ => rfl,
      reduces_vreduceF32 fun _ => rfl, List.forall_mem_nil _⟩
  · have h := completes_vscan (i := .vscanF32 p d a) fun _ => rfl
    simp only [ofNat_deliverF32] at h
    exact h
  · exact fun k hk => raises_vscan (fun _ => rfl) hk

end Sys2Proof.Machine
end

section
/-!
Packed arithmetic, moves of scales, and blocks (05 R154 to R162).
-/
namespace Sys2Proof.Machine

variable {i : Instr} {p : Bool} {d a b : BitVec 7} {ops : List Opnd}

/-! ## Integer dot products -/

theorem toNat_setWidth_ushiftRight (x : Word) (width k : Nat) :
    ((x >>> k).setWidth width).toNat = x.toNat / 2 ^ k % 2 ^ width := by
  rw [BitVec.toNat_setWidth, BitVec.toNat_ushiftRight, Nat.shiftRight_eq_div_pow]

/-- A signed element of a packed word, as two's complement. -/
theorem packElem_signed (width : Nat) (hw : 0 < width) (x : Word) (k : Nat) :
    packElem width true x.toNat k = ((x >>> (width * k)).setWidth width).toInt := by
  have h2 : 2 ^ width = 2 * 2 ^ (width - 1) := by rw [← Nat.pow_succ', Nat.succ_eq_add_one, Nat.sub_add_cancel hw]
  rw [BitVec.toInt_eq_toNat_cond, toNat_setWidth_ushiftRight, packElem]
  generalize x.toNat / 2 ^ (width * k) % 2 ^ width = c
  by_cases hc : 2 ^ (width - 1) ≤ c
  · rw [if_pos (by simpa using hc), if_neg (by omega)]; push_cast; rfl
  · rw [if_neg (by simpa using hc), if_pos (by omega)]

theorem packElem_unsigned (width : Nat) (x : Word) (k : Nat) :
    packElem width false x.toNat k = ((x >>> (width * k)).toNat : Int) % ((2 ^ width : Nat) : Int) := by
  rw [BitVec.toNat_ushiftRight, Nat.shiftRight_eq_div_pow]; rfl

/-- An integer dot product with ZPAIR's zero points; `g` reads the lowest element of a word. -/
theorem completes_vdot {width : Nat} {signed : Bool} {g : Word → Int} (he : ∀ s, exec i s = vdot s p d a b width signed)
    (hg : ∀ (x : Word) (k : Nat), packElem width signed x.toNat k = g (x >>> (width * k))) :
    Completes i (fun _ => p) [.vs d 1, .vs a 1, .vs b 1] (fun w => w.fore = false) fun w =>
      w.sets (w.inLanes d fun q =>
        let zA := g (w.csr.zpair.setWidth 32)
        let zB := g ((w.csr.zpair >>> 8).setWidth 32)
        w.rdV d q + BitVec.ofInt 32 ((List.range (32 / width)).map fun k =>
          (g (w.rdV a q >>> (width * k)) - zA) * (g (w.rdV b q >>> (width * k)) - zB)).sum) := by
  have hlow : ∀ x : Word, packElem width signed x.toNat 0 = g x := fun x => by simpa using hg x 0
  have hA : ∀ z : Half, packElem width signed z.toNat 0 = g (z.setWidth 32) := fun z => by
    rw [← hlow, BitVec.toNat_setWidth_of_le (by decide)]
  have hB : ∀ z : Half, packElem width signed (z.toNat / 256) 0 = g ((z >>> 8).setWidth 32) := fun z => by
    rw [← hlow, BitVec.toNat_setWidth_of_le (by decide), BitVec.toNat_ushiftRight, Nat.shiftRight_eq_div_pow]
  have h := completes_vlanes he
  simp only [dotInt, hA, hB, hg] at h
  simp only [List.sum_eq_foldl, List.foldl_map]
  exact h

/-! ## Floating dot products -/

/-- A floating dot product: the exact sum of products, rounded once into the accumulator. -/
theorem delivers_vdotF {width : Nat} {val : Wave → Nat → FVal} (he : ∀ s, exec i s = vdotF s p d a b width val) :
    Delivers i p [.vs d 1, .vs a 1, .vs b 1] fun w q =>
      let elem (t : BitVec 7) (k : Nat) : FVal := val w ((w.rdV t q).toNat / 2 ^ (width * k) % 2 ^ width)
      let o := accumulate f32 (w.rdV d q).toNat (ExSum.sum ((List.range (32 / width)).map fun k => (elem a k, elem b k)))
      ⟨w.wordRun d q [BitVec.ofNat 32 o.code], o.flags, w.genOf q⟩ :=
  .of_fpLanes he fun w _ hq => .wrV w d hq _

/-! ## Unpacks and moves of scales -/

/-- Four bytes packed into a word. -/
theorem packBits_bytes {f : Nat → Nat} (hf : ∀ k, f k < 2 ^ 8) :
    (packBits 8 ((List.range 4).map f) 1).headD 0 = BitVec.ofNat 32 ((List.range 4).map fun k => f k * 2 ^ (8 * k)).sum := by
  have hm : ∀ k, f k % 2 ^ 8 = f k := fun k => Nat.mod_eq_of_lt (hf k)
  have hstream : [f 0, f 1, f 2, f 3].foldr (fun c acc => acc * 2 ^ 8 + c % 2 ^ 8) 0 =
      [f 0 * 2 ^ (8 * 0), f 1 * 2 ^ (8 * 1), f 2 * 2 ^ (8 * 2), f 3 * 2 ^ (8 * 3)].sum := by
    rw [List.foldr_cons, List.foldr_cons, List.foldr_cons, List.foldr_cons, List.foldr_nil, hm, hm, hm, hm,
      List.sum_cons, List.sum_cons, List.sum_cons, List.sum_cons, List.sum_nil]
    omega
  have hr : List.range 4 = [0, 1, 2, 3] := rfl
  rw [packBits, List.range_one, List.map_singleton, List.headD_cons, Nat.mul_zero, Nat.pow_zero, Nat.div_one, hr]
  exact congrArg (BitVec.ofNat 32) hstream

/-- The unpacks: a byte from each element, the scale copied. -/
theorem completes_vunpack {width lo : Nat} (hw : width ≤ 8) (he : ∀ s, exec i s = vunpack s p d a width lo) :
    Completes i (fun _ => p) [.vd d 1, .vs a 1, .es a 1] (fun w => w.fore = false) fun w =>
      w.sets (w.moved d w.active fun q => (BitVec.ofNat 32 ((List.range 4).map fun k =>
        (w.rdV a q).toNat / 2 ^ (lo + width * k) % 2 ^ width * 2 ^ (8 * k)).sum, w.rdE a q)) := by
  have hp : ∀ x : Nat, (packBits 8 ((List.range 4).map fun k => unpackBits width (x / 2 ^ lo) k) 1).headD 0 =
      BitVec.ofNat 32 ((List.range 4).map fun k => x / 2 ^ (lo + width * k) % 2 ^ width * 2 ^ (8 * k)).sum := fun x => by
    have hb : ∀ k, unpackBits width (x / 2 ^ lo) k < 2 ^ 8 := fun k =>
      Nat.lt_of_lt_of_le (Nat.mod_lt _ (Nat.two_pow_pos _)) (Nat.pow_le_pow_right (by decide) hw)
    rw [packBits_bytes hb]
    simp only [unpackBits, Nat.div_div_eq_div_mul, ← Nat.pow_add]
  have h := Completes.of_lanes (lanes := Wave.active) he Wave.nodup_active
    fun w q hq => .wrV_wrE w d (Wave.lt_of_mem_active hq) _ _
  simp only [hp] at h
  exact h

/-- A scale in every active lane. -/
theorem completes_escale {f : Wave → Nat → Byte} (he : ∀ s, exec i s = escale s p ops d f) :
    Completes i (fun _ => p) ops (fun w => w.fore = false) fun w =>
      w.sets (w.active.flatMap fun q => w.scaleRun d q 1 (f w q)) :=
  .of_lanes he Wave.nodup_active fun w _ hq => .wrE w d (Wave.lt_of_mem_active hq) _

theorem exec_veset (p : Bool) (d b : BitVec 7) (s : State) : exec (.veset p d b) s =
    escale s p [.ed d 1, .sl b 1] d fun w _ => (w.rdS b).setWidth 8 := by
  have h8 : ∀ x : Word, x.setWidth 8 = x.extractLsb' 0 8 := fun x => by apply BitVec.eq_of_toNat_eq; simp
  simp only [h8]; rfl

/-! ## Blocks -/

/-- A block requantised to packed elements, with its scale in every scale register of the run. -/
theorem delivers_rqnt {n : Nat} {rq : Wave → List Nat → Word → MxBlock}
    (he : ∀ s, exec i s = fpLanes s p [.vd d n, .vs a 32]
      (fun w q (o : MxBlock) => (w.wrRun d q (packBits n o.codes n)).wrScales d n q (BitVec.ofNat 8 o.scale))
      fun w q => ⟨rq w (runOf w a 32 q) (w.genOf q), (rq w (runOf w a 32 q) (w.genOf q)).flags, (rq w (runOf w a 32 q) (w.genOf q)).gen⟩) :
    Delivers i p [.vd d n, .vs a 32] fun w q =>
      let o := rq w (runOf w a 32 q) (w.genOf q)
      ⟨w.wordRun d q (packBits n o.codes n) ++ w.scaleRun d q n (BitVec.ofNat 8 o.scale), o.flags, o.gen⟩ :=
  .of_fpLanes he fun w _ hq => .wrRun_wrScales w d hq _ n _

/-- A block requantised to grouped integers, with its parameter word after them. -/
theorem delivers_rqntg {width qmax : Nat} {h : HadOpt} {r : RqRound} (he : ∀ s, exec i s = rqntg s p d a width qmax h r) :
    Delivers i p [.vd d (width + 1), .vs a 32] fun w q =>
      let o := requantiseGroup qmax (runOf w a 32 q) r h (w.genOf q)
      ⟨w.wordRun d q (packBits width (o.codes.map fun k => (BitVec.ofInt width k).toNat) width ++ [o.param])
        ++ w.scaleRun d q width 0x7F, o.flags, o.gen⟩ :=
  .of_fpLanes he fun w _ hq => .wrRun_wrScales w d hq _ width 0x7F

theorem exec_vebmax (p : Bool) (d a : BitVec 7) (s : State) : exec (.vebmax p d a) s = execVebmax p d a s := rfl

theorem delivers_vebmax (p : Bool) (d a : BitVec 7) : Delivers (.vebmax p d a) p [.vd d 1, .vs a 32] fun w q =>
    ⟨w.wordRun d q [BitVec.ofNat 32 (blockMax (runOf w a 32 q)).code], (blockMax (runOf w a 32 q)).flags, w.genOf q⟩ :=
  .of_fpLanes (exec_vebmax p d a) fun w _ hq => .wrV w d hq _

/-- The Hadamard transforms. -/
theorem delivers_vhad {n : Nat} (he : ∀ s, exec i s = vhad s p d a n) :
    Delivers i p [.vd d (2 ^ n), .vs a (2 ^ n)] fun w q =>
      ⟨w.wordRun d q ((hadamard n (runOf w a (2 ^ n) q)).1.map (BitVec.ofNat 32)), (hadamard n (runOf w a (2 ^ n) q)).2, w.genOf q⟩ :=
  .of_fpLanes he fun w _ hq => .wrRun w d hq _

end Sys2Proof.Machine
end

section
namespace Sys2Proof.Machine

/-- Settles O32: VPACK by its five groups, then VMX by its four. -/
theorem packedAndBlocks : Obligations.PackedAndBlocks := by
  refine ⟨fun p d a b => ⟨fun e he => ?_, fun e he => ?_, ?_, ?_, ?_⟩, fun p c8 d a h r => ⟨fun e he => ?_, ?_, ?_, ?_⟩⟩
  · suffices h : ∃ signed, (∀ s, exec e.1 s = vdot s p d a b e.2.1 signed) ∧
        ∀ (x : Word) (k : Nat), packElem e.2.1 signed x.toNat k = e.2.2 (x >>> (e.2.1 * k)) by
      obtain ⟨_, hx, hg⟩ := h
      exact completes_vdot hx hg
    revert e
    simp only [List.forall_mem_cons]
    exact ⟨⟨true, fun _ => rfl, packElem_signed 4 (by decide)⟩, ⟨false, fun _ => rfl, packElem_unsigned 4⟩,
      ⟨true, fun _ => rfl, packElem_signed 8 (by decide)⟩, ⟨false, fun _ => rfl, packElem_unsigned 8⟩, List.forall_mem_nil _⟩
  · refine delivers_vdotF (val := e.2.2) ?_
    revert e
    simp only [List.forall_mem_cons]
    exact ⟨fun _ => rfl, fun _ => rfl, fun _ => rfl, List.forall_mem_nil _⟩
  · simp only [List.forall_mem_cons]
    exact ⟨completes_vunpack (by decide) fun _ => rfl, completes_vunpack (by decide) fun _ => rfl,
      completes_vunpack (by decide) fun _ => rfl, List.forall_mem_nil _⟩
  · simp only [List.forall_mem_cons]
    exact ⟨completes_escale (exec_veset p d b), completes_escale fun _ => rfl, completes_escale fun _ => rfl, List.forall_mem_nil _⟩
  · exact completes_vlanes fun _ => rfl
  · refine delivers_rqnt (rq := e.2.2) ?_
    revert e
    simp only [List.forall_mem_cons]
    exact ⟨fun _ => rfl, fun _ => rfl, fun _ => rfl, fun _ => rfl, fun _ => rfl, List.forall_mem_nil _⟩
  · simp only [List.forall_mem_cons]
    exact ⟨delivers_rqntg fun _ => rfl, delivers_rqntg fun _ => rfl, List.forall_mem_nil _⟩
  · exact delivers_vebmax p d a
  · simp only [List.forall_mem_cons]
    exact ⟨delivers_vhad fun _ => rfl, delivers_vhad fun _ => rfl, List.forall_mem_nil _⟩

end Sys2Proof.Machine
end

section
/-!
Decoding what was encoded (03 R83 to R90): a word's fields are what the encoder put into them, form by form and option by
option, and on such a word the decoder takes the branch of the instruction.
-/
namespace Sys2Proof

/-! ## Parts of a bit vector -/

theorem getLsbD_bit (p : Bool) : (bit p).getLsbD 0 = p := by cases p <;> rfl

@[simp] theorem decide_bit (p : Bool) : decide (bit p = 1#1) = p := by cases p <;> rfl

/-- A 14-bit operand stands in two fields of seven bits. -/
theorem append_halves (c : BitVec 14) : (c.extractLsb' 7 7 ++ c.extractLsb' 0 7 : BitVec 14) = c :=
  (BitVec.extractLsb'_append_extractLsb'_eq_extractLsb' (start₁ := 0) rfl).trans BitVec.extractLsb'_eq_self

/-! ## Fields of the six forms -/

section Forms
variable (p : Bool) (m : BitVec 5)

@[simp] theorem fields_wordA (d a b : BitVec 7) (f : BitVec 5) :
    let w := wordA p m d a b f
    wP w = p ∧ wMajor w = m ∧ wD w = d ∧ wA w = a ∧ wB w = b ∧ wF w = f := by
  simp only [wP, wMajor, wD, wA, wB, wF, wordA, getLsbD_bit, BitVec.getLsbD_append, BitVec.extractLsb'_append_eq_of_le,
    BitVec.extractLsb'_append_eq_right, Nat.reduceLT, Nat.reduceLeDiff, Nat.reduceSub, if_false, and_self]

@[simp] theorem fields_wordI (d a : BitVec 7) (f : BitVec 3) (i : BitVec 9) :
    let w := wordI p m d a f i
    wP w = p ∧ wMajor w = m ∧ wD w = d ∧ wA w = a ∧ wF3 w = f ∧ wImm9 w = i := by
  simp only [wP, wMajor, wD, wA, wF3, wImm9, wordI, getLsbD_bit, BitVec.getLsbD_append, BitVec.extractLsb'_append_eq_of_le,
    BitVec.extractLsb'_append_eq_right, Nat.reduceLT, Nat.reduceLeDiff, Nat.reduceSub, if_false, and_self]

@[simp] theorem fields_wordL (d : BitVec 7) (i : BitVec 19) :
    let w := wordL p m d i
    wP w = p ∧ wMajor w = m ∧ wD w = d ∧ wImm19 w = i := by
  simp only [wP, wMajor, wD, wImm19, wordL, getLsbD_bit, BitVec.getLsbD_append, BitVec.extractLsb'_append_eq_of_le,
    BitVec.extractLsb'_append_eq_right, Nat.reduceLT, Nat.reduceLeDiff, Nat.reduceSub, if_false, and_self]

@[simp] theorem fields_wordB (k a : BitVec 4) (o : BitVec 18) :
    let w := wordB p m k a o
    wP w = p ∧ wMajor w = m ∧ wKind w = k ∧ wMask w = a ∧ wOff18 w = o := by
  simp only [wP, wMajor, wKind, wMask, wOff18, wordB, getLsbD_bit, BitVec.getLsbD_append, BitVec.extractLsb'_append_eq_of_le,
    BitVec.extractLsb'_append_eq_right, Nat.reduceLT, Nat.reduceLeDiff, Nat.reduceSub, if_false, and_self]

@[simp] theorem fields_wordS (s : BitVec 7) (c : BitVec 3) (o : BitVec 16) :
    let w := wordS p m s c o
    wP w = p ∧ wMajor w = m ∧ wD w = s ∧ wCond w = c ∧ wOff16 w = o := by
  simp only [wP, wMajor, wD, wCond, wOff16, wordS, getLsbD_bit, BitVec.getLsbD_append, BitVec.extractLsb'_append_eq_of_le,
    BitVec.extractLsb'_append_eq_right, Nat.reduceLT, Nat.reduceLeDiff, Nat.reduceSub, if_false, and_self]

@[simp] theorem fields_wordW (t : BitVec 7) (a : BitVec 4) (n : BitVec 2) (o : BitVec 13) :
    let w := wordW p m t a n o
    wP w = p ∧ wMajor w = m ∧ wD w = t ∧ wMa w = a ∧ wPairs w = n ∧ wOff13 w = o := by
  simp only [wP, wMajor, wD, wMa, wPairs, wOff13, wordW, getLsbD_bit, BitVec.getLsbD_append, BitVec.extractLsb'_append_eq_of_le,
    BitVec.extractLsb'_append_eq_right, Nat.reduceLT, Nat.reduceLeDiff, Nat.reduceSub, if_false, and_self]

end Forms

/-! ## Reserved fields and options (03 R85, R90) -/

@[simp] theorem rsv_true (k : Except Reject Instr) : rsv true k = k := rfl

@[simp] theorem opt_some {α : Type} (e : Reject) (x : α) (k : α → Except Reject Instr) : opt e (some x) k = k x := rfl

@[simp] theorem Rounding.ofCode_code (r : Rounding) : Rounding.ofCode r.code = some r := by cases r <;> rfl
@[simp] theorem RqRound.ofCode_code (r : RqRound) : RqRound.ofCode r.code = some r := by cases r <;> rfl
@[simp] theorem HadOpt.ofCode_code (h : HadOpt) : HadOpt.ofCode h.code = some h := by cases h <;> rfl
@[simp] theorem Cond.ofCode_code (c : Cond) : Cond.ofCode c.code = c := by cases c <;> rfl
@[simp] theorem AddrMode.ofCode_code (m : AddrMode) : AddrMode.ofCode m.code = m := by cases m <;> rfl
@[simp] theorem Scope.ofCode_code (s : Scope) : Scope.ofCode s.code = s := by cases s <;> rfl
@[simp] theorem AtomUse.ofCode_code (u : AtomUse) : AtomUse.ofCode u.code = u := by cases u <;> rfl

/-! ## Every word -/

/-- Settles O1, row by row of the opcode table: an event has no word; an instruction's word has the fields that `encode` put
into it. So the major opcode leads `decode` to the decoder of its major, the selector leads that one to the row, and the row
finds its reserved fields 0 and reads the operands back. -/
theorem decodeEncode : Obligations.DecodeEncode := by
  intro i w h
  cases i <;> cases h
  -- the major opcode
  all_goals simp only [decode, fields_wordA, fields_wordI, fields_wordL, fields_wordB, fields_wordS, fields_wordW,
    BitVec.reduceEq, ↓reduceIte]
  -- the selector
  all_goals simp only [decodeSys, decodeSalu, decodeSalui, decodeSli, decodeShi, decodeBr, decodeBrs, decodeJmp, decodeMbr,
    decodeWctl, decodeVint, decodeVints, decodeVf32, decodeVf64, decodeVf16, decodeVbf16, decodeVfmisc, decodeVcvt, decodeVxc,
    decodeVcmp, decodeVlane, decodeVpack, decodeVmx, decodeVld, decodeVst, decodeVatom, decodeSmem, decodeVsync, decodeTens,
    decodeMat, decodeNet, fields_wordA, fields_wordI, fields_wordL, fields_wordB, fields_wordS, fields_wordW,
    BitVec.extractLsb'_append_eq_of_le, BitVec.extractLsb'_append_eq_right, BitVec.extractLsb'_eq_self,
    Nat.reduceLeDiff, Nat.reduceSub, BitVec.reduceEq, ↓reduceIte]
  -- the reserved fields and the options, where the row has them
  all_goals simp only [append_halves, decide_true, Bool.and_true, rsv_true, opt_some, decide_bit, Rounding.ofCode_code,
    RqRound.ofCode_code, HadOpt.ofCode_code, Cond.ofCode_code, AddrMode.ofCode_code, Scope.ofCode_code, AtomUse.ofCode_code]

/-- Settles O2: each word is the encoding of its instruction. -/
theorem decodedWords : Obligations.DecodedWords :=
  ⟨decodeEncode _ _ rfl, decodeEncode _ _ rfl, decodeEncode _ _ rfl, decodeEncode _ _ rfl, decodeEncode _ _ rfl⟩

end Sys2Proof
end

section
/-!
ERET (04 R125), and a step as the meaning of the word that its slice fetches (03 R91; 04 R113; 06 R168).
-/
namespace Sys2Proof.Machine

/-! ## Control registers across a commit -/

/-- The commit of an entry changes FSTICKY alone of the control registers. -/
theorem Wave.commitEntry_csr (w : Wave) (en : Entry) :
    { (w.commitEntry en).csr with fsticky := w.csr.fsticky } = w.csr := by
  unfold Wave.commitEntry
  split
  · rfl
  · exact congrArg (fun c : Csrs => { c with fsticky := w.csr.fsticky })
      (congrArg Wave.csr (Wave.commitElems_rest en en.vals w) :)

/-- And so does the commit of the return buffer (02 R70). -/
theorem Wave.commit_csr (w : Wave) : { w.commit.csr with fsticky := w.csr.fsticky } = w.csr := by
  suffices h : ∀ (l : List Entry) (v : Wave),
      { (l.foldl Wave.commitEntry v).csr with fsticky := v.csr.fsticky } = v.csr from h w.rb w
  intro l
  induction l with
  | nil => exact fun _ => rfl
  | cons e l ih =>
    intro v
    have h := congrArg (fun c : Csrs => { c with fsticky := v.csr.fsticky }) (ih (v.commitEntry e))
    exact h.trans (v.commitEntry_csr e)

@[simp] theorem Wave.commit_hnd (w : Wave) : w.commit.csr.hnd = w.csr.hnd := (congrArg Csrs.hnd w.commit_csr :)
@[simp] theorem Wave.commit_trappc (w : Wave) : w.commit.csr.trappc = w.csr.trappc := (congrArg Csrs.trappc w.commit_csr :)
@[simp] theorem Wave.commit_retired (w : Wave) : w.commit.csr.retired = w.csr.retired := (congrArg Csrs.retired w.commit_csr :)

/-! ## ERET -/

theorem exec_eret (p : Bool) (a : BitVec 7) (s : State) : exec (.eret p a) s =
    issue s p ⟨true, noEntry, onlyHandler, []⟩ fun u w _ => .done (s.setWave u (w.eret a.toNat)) := rfl

/-- In the handler ERET returns, to TRAPPC or past it. -/
theorem answers_eret (p : Bool) (a : BitVec 7) :
    Answers (.eret p a) (fun _ => true) [] (fun _ _ w _ => w.csr.hnd = true) fun s u w _ => s.setWave u (w.eret a.toNat) :=
  .of_issue (exec_eret p a) (fun _ w => by simp) (fun _ => rfl) (fun _ _ _ _ _ hh => if_pos hh) fun _ _ _ _ _ _ => ⟨_, rfl, rfl⟩

/-- Outside it, it fails check 4 of 03 R91. -/
theorem raises_eret (p : Bool) (a : BitVec 7) :
    Raises (.eret p a) (fun _ => true) [] (fun _ _ w _ => w.csr.hnd = false) fun s _ _ => illegal s 4 :=
  .of_refused (exec_eret p a) (fun _ w => by simp) (fun _ => rfl) fun _ _ w _ hh => by simp [onlyHandler, hh]

/-- ERET after the commit of a park takes MODE.HND, TRAPPC and RETIRED from the wave as it was. -/
theorem Wave.eret_commit (w : Wave) (n : Nat) : w.commit.eret n =
    { w.commit with
      pc := w.csr.trappc + BitVec.ofNat 64 (4 * n)
      csr := { w.commit.csr with hnd := false, retired := w.csr.retired + 1 } } := by
  simp only [Wave.eret, Wave.retire, Wave.commit_trappc, Wave.commit_retired]

theorem check_eret (p : Bool) (a : BitVec 7) : WellFormed.check (.eret p a) = if 1 < a.toNat then some 2 else none := by
  change firstFail [(2, decide (a.toNat ≤ 1))] = _
  by_cases h : a.toNat ≤ 1
  · simp [firstFail, h, Nat.not_lt.mpr h]
  · simp [firstFail, h, Nat.not_le.mp h]

/-- Settles O8: ERET's return and its trap, each of the wave as the park leaves it, whose control registers but FSTICKY are
those of before. -/
theorem eretReturns : Obligations.EretReturns := by
  intro p a s u w b h
  refine ⟨fun hh => ?_, fun hh => ?_, rfl, check_eret p a⟩
  · rw [← Wave.eret_commit]
    exact answers_eret p a s u w b h (w.commit_hnd.trans hh)
  · exact raises_eret p a s u w b h (w.commit_hnd.trans hh)

/-! ## A step -/

variable {s : State} {run : Word → State → Result}

theorem step_of_agenda {h : Happening} {rest : List Happening} (hs : s.agenda = h :: rest) :
    step s = settled (happen runWord exec h { s with agenda := rest }) := by
  unfold step; rw [hs]

/-- The turn of a slice, or of the forerunner engine as slice 8, is an issue slot. -/
theorem happen_slot {core k : Nat} (event : Instr → State → Result) (hc : core < 128) (hk : k ≤ 8) :
    happen run event (if k < 8 then .slice core k else .fore core) s = issueSlot run core k s := by
  have hd : onDie core = true := decide_eq_true hc
  by_cases h : k < 8
  · simp [h, happen, hd]
  · obtain rfl : k = 8 := by omega
    simp [happen, hd]

/-- A unit whose fetch gives a word runs the word. -/
theorem runUnit_of_word {u : Nat} {w : Wave} {b : Block} {x : Context} {ir : Word} (hw : s.wave u = some w)
    (hn : w.cancelDue = none) (hb : s.block w.block = some b) (hx : s.ctx b.ctx = some x) (hf : fetchAt s x w = .word ir) :
    runUnit run u s = run ir (s.fetched u w ir) := by
  simp only [runUnit, hw, hn, hb, hx, hf, Option.bind_some, Option.map_some]

/-- A word that passes checks 1 to 3 of 03 R91 runs its instruction. -/
theorem runWord_of_decode {ir : Word} {i : Instr} (hd : decode ir = .ok i) (hc : WellFormed.check i = none) (s : State) :
    runWord ir s = exec i s := by
  rw [runWord, hd, runDecoded, hc, checked]

/-- Settles O4: the agenda's entry is an issue slot, whose unit runs the word that it fetches. -/
theorem stepRunsDecoded : Obligations.StepRunsDecoded := by
  intro s core k u rest w b x ir i hagenda hcore hk hu hw hn hb hx hf hd hc
  have hrun := (runUnit_of_word hw hn hb hx hf).trans (runWord_of_decode hd hc _)
  rw [step_of_agenda hagenda, happen_slot _ hcore hk]
  simp only [issueSlot, hu, hrun]
  rfl

end Sys2Proof.Machine
end
